-- ==== Sys2Proof/Word.lean ====
section
/-! DEFINITION. The words of the FG-1400 hub: bytes, registers, lines and addresses. -/

namespace Sys2Proof

/-- A byte of memory. -/
abbrev Byte := BitVec 8
/-- A scalar register, an accumulator or an instruction word. -/
abbrev W32 := BitVec 32
/-- A block register, a fence word or a page-table entry. -/
abbrev W64 := BitVec 64
/-- The 64 bytes of a vector register; byte n is bits [8n+7:8n] (R6). -/
abbrev VData := BitVec 512
/-- A 128-byte line of HBM (R234); byte n is bits [8n+7:8n]. -/
abbrev Line := BitVec 1024

end Sys2Proof
end

