-- ==== Sys2Proof/Types.lean ====
section
/-! DEFINITION. The kinds of data that commands carry and State holds. -/

namespace Sys2Proof

/-- Element formats of a vector register (Table 03-2). -/
inductive ElemFmt where
  | none | e4m3 | e5m2 | e2m3 | e3m2 | e2m1 | int8 | int4 | bf16 | fp32
  deriving DecidableEq, Repr

/-- A binary floating-point value: NaN, an infinity, or the sign and magnitude m × 2^e (R105, R106). -/
inductive FVal where
  | nan
  | inf (neg : Bool)
  | fin (neg : Bool) (m : Nat) (e : Int)
  deriving DecidableEq, Repr

/-- A vector register: its format tag, its 64 bytes and its zero flags (R78). -/
structure VReg where
  tag  : ElemFmt
  data : VData
  zf   : BitVec 128
  deriving DecidableEq, Repr

/-- The fields of a format A word (Table 03-3); the major opcode and func are the command's own. -/
structure FmtA where
  d  : BitVec 4
  a  : BitVec 4
  b  : BitVec 4
  md : BitVec 8
  deriving DecidableEq, Repr

/-- The fields of a format I word: bits [17:14] and the 14-bit immediate. -/
structure FmtI where
  d   : BitVec 4
  a   : BitVec 4
  b   : BitVec 4
  imm : BitVec 14
  deriving DecidableEq, Repr

/-- The fields of a format M word: the kind and the 14-bit offset. -/
structure FmtM where
  d    : BitVec 4
  a    : BitVec 4
  kind : BitVec 4
  imm  : BitVec 14
  deriving DecidableEq, Repr

/-- The fields of a format E pair of words: bits [13:0] of the first and the whole second word. -/
structure FmtE where
  d   : BitVec 4
  a   : BitVec 4
  b   : BitVec 4
  imm : BitVec 14
  ext : BitVec 32
  deriving DecidableEq, Repr

/-! ### Who acts -/

/-- The party behind a register access or a command: a PCIe function (0 is the PF, n the VF n), the field cores or the
datum controller (R15, R399). -/
inductive Party where
  | fn (n : Nat)
  | fieldCores
  | datum
  deriving DecidableEq, Repr

/-- An end of a fabric message: a caching agent 0 to 287 (R235), a home slice, or a hub engine by number. -/
inductive Node where
  | agent (a : Nat)
  | home (c : Nat)
  | hub (e : Nat)
  deriving DecidableEq, Repr

/-! ### Coherence messages (Table 08-3) -/

/-- The messages of Table 08-3. -/
inductive MsgKind where
  | rdS | rdX | upg | rdU | wrU | atN
  | fwdS | fwdX | inv | rcl
  | data | dataH | wb | atR
  | invAck | cmpAck | wbAck | uAck | specWait
  deriving DecidableEq, Repr

/-- Line states of a caching agent (Table 08-1). -/
inductive LineState where
  | I | S | E | M
  deriving DecidableEq, Repr

/-- What the sender's interface adds to a packet's header: the route copied from its bearing entry (R276), the slack a request carries in
units of 16 ns (0x3FF: none stated, R477), TOLERATE (Table 09-3), and the order in which packets were sent. -/
structure Hdr where
  route : Nat
  slack : Nat
  tol   : Bool
  seq   : Nat
  deriving DecidableEq, Repr

/-- A header before it is sent: no slack stated. -/
def Hdr.blank : Hdr := ⟨0, 0x3FF, false, 0⟩

/-- A coherence message with its header fields. `tag` is the parcel tag (16: the hub's own), `txid` names the request,
`req` is the requester a forward serves or the ACK_TO of an Inv, `pay` is the data where the message carries data units,
`dpa` and `size` place an uncached access or an atomic, and `op` and `cmp` are a near atomic's operation and
expected value. -/
structure Msg where
  kind  : MsgKind
  src   : Node
  dst   : Node
  dpa   : Nat
  tag   : Nat
  txid  : Nat
  req   : Node
  grant : LineState
  acks  : Nat
  pay   : Option Nat
  size  : Nat
  op    : Nat
  cmp   : Nat
  sonly : Bool
  aged  : Bool
  flag  : Bool
  poison : Bool
  prio  : Nat
  hdr   : Hdr := Hdr.blank
  deriving DecidableEq, Repr

/-! ### Token messages (chapter 05, Table 09-4) -/

/-- The token messages. -/
inductive TokKind where
  | tcopy | admitCopy | refuse | room | confirm | refute | tret
  deriving DecidableEq, Repr

/-- A token packet: sender, destination and its unit (a section or an engine), parcel tag, the origin's ledger entry, and the
token view of Table 09-5 with the packet's part of the row and its zero maps (R271). `launch` is the origin's launch: the
model's own field, by which a lost launch's packets are found (R174). -/
structure Tok where
  kind   : TokKind
  src    : Node
  dst    : Node
  sub    : Nat
  tag    : Nat
  entry  : Nat
  expert : Nat
  layer  : Nat
  fmt    : Nat
  weight : BitVec 32
  spec   : Bool
  last   : Bool
  row    : List Byte
  launch : Nat := 0
  maps   : List Nat := []
  hdr    : Hdr := Hdr.blank
  deriving DecidableEq, Repr

/-- A packet of either view. -/
inductive Pkt where
  | coh (m : Msg)
  | tok (m : Tok)
  deriving DecidableEq, Repr

/-- A packet that a wake buffer holds (R282): its class, virtual channel and place in the order of sending; it stays on the fabric until
it is delivered. -/
structure HeldPkt where
  cls : Nat
  vc  : Nat
  seq : Nat
  deriving DecidableEq, Repr

/-! ### Thread accesses -/

/-- Where a loaded value goes: a scalar register with its byte count, sign extension and FP16 conversion; a pair; a
vector register; a converting vector load (fmt, scale register, conv); an instruction that waits for the bytes of a row, or of a CSB
group; nothing. -/
inductive LoadDst where
  | scalar (d : Nat) (size : Nat) (signed : Bool) (f16 : Bool)
  | pair (d : Nat)
  | vector (d : Nat) (fmt : ElemFmt)
  | convert (d : Nat) (conv : Nat) (fmt : ElemFmt) (scale : Nat)
  | row (csb : Option ElemFmt)
  | none
  deriving DecidableEq, Repr

/-- What an access does: a load, a store of a value, an atomic (op, size, operand, expected value), or a fence signal. -/
inductive AccOp where
  | load (dst : LoadDst)
  | store (value : Nat)
  | atomic (op size operand expect : Nat) (dst : LoadDst)
  | signal (value : Nat)
  deriving DecidableEq, Repr

/-- Where an access stands: waiting for its line in the township's cache, for a free request identifier (R243), for the answer to an uncached
request, for the host link's answer, for an ATS translation, for Bus Master Enable, for its thread's speculation closure, or answered. -/
inductive AccState where
  | line | room | uncached | host | ats | held | closure | done
  deriving DecidableEq, Repr

/-- How bytes are reached: a cached line, a streaming line, an uncached or near access at the home slice, a chiplet window,
the host window (Table 02-9), or the section scratchpad. -/
inductive Via where
  | line | stream | uncached | window | host | pad
  deriving DecidableEq, Repr

/-- A run of bytes of an access inside one line: its DPA (or host address), PPA, length, how it is reached, and the value once it
is there. -/
structure Part where
  dpa : Nat
  ppa : Nat
  len : Nat
  via : Via
  got : Option Nat
  deriving DecidableEq, Repr

/-- An outstanding access of a thread. `pva` is the address a fault names and `base` the address of the first byte (a local
address in the scratchpad). `seen` holds the thread's own logged stores (address, length, value; newest first)
that a speculative load sees over memory. `rel` marks a store that a release of a narrow scope has passed, and `old` a load that may read
what its location has held since a count of replaced lines (R61). -/
structure Acc where
  thread : Nat
  launch : Nat
  ctx    : Nat
  ship   : Nat
  tag    : Nat
  prio   : Nat
  pva    : Nat
  base   : Nat
  op     : AccOp
  ctr    : Nat
  acq    : Bool
  spec   : Bool
  tol    : Bool
  seen   : List (Nat × Nat × Nat)
  parts  : List Part
  st     : AccState
  rel    : Bool := false
  old    : Option Nat := none
  deriving DecidableEq, Repr

/-- A scratchpad request (R211 to R217): the requester's rank (0 copy engine, 1 gather engine, 2 dispatch unit, 3 + h a
thread numbered h), its thread and access (of a gather engine's write, 1 where every earlier one must be done first), its first local
address and length, the bytes already served, what it does, the steps it has stalled, whether it is raised, its number, whether it
holds the bank for the second step of an atoml, and the launch it is made for. -/
structure SpReq where
  rank   : Nat
  thread : Nat
  acc    : Nat
  base   : Nat
  len    : Nat
  off    : Nat
  op     : AccOp
  stalls : Nat
  raised : Bool
  seq    : Nat
  hold   : Bool
  launch : Nat := 0
  deriving DecidableEq, Repr

/-! ### On-die arrays (Table 07-3) -/

/-- An array of a physical township that has spare columns: a core's register file, a scratchpad bank, the dual-port region and the
shadow area of a section, and the save buffer, a data bank and the tags of the township's cache. Sections and cores are
physical, 0 to 65. -/
inductive ArrayId where
  | regs (sec core : Nat)
  | bank (sec b : Nat)
  | dual (sec : Nat)
  | shadow (sec : Nat)
  | save
  | data (b : Nat)
  | tags
  deriving DecidableEq, Repr

/-- A spare column in use: the physical township, the array and the column it replaces. -/
structure Repair where
  ship : Nat
  arr  : ArrayId
  col  : Nat
  deriving DecidableEq, Repr

/-! ### Start-up, gate requests and debug -/

/-- What a start-up finds outside the state: whether each record copy and the images that a firmware slot held from the factory verify, PLL lock
and the fabric test, the failing columns that the array test finds, channels that fail with saved parameters and from scratch, the presence pads, townships whose digest differs three times, cores that fail the
self-test, the firmware versions, and the time taken in ms.
(DESIGN CHOICE: log entry 11.) -/
structure BootFacts where
  recA   : Bool
  recB   : Bool
  fw0    : Bool
  fw1    : Bool
  pll    : Bool
  fabric : Bool
  cols   : List Repair
  saved  : List Nat
  failed : List Nat
  pads   : Nat
  digest : List Nat
  selfC  : List Nat
  fw     : Nat
  ms     : Nat
  deriving DecidableEq, Repr

/-- A request through the gate (Table 17-1): a plat entry, a granule's owner, a township or a site of a parcel, and the requests
whose effect is the command's own. -/
inductive GateReq where
  | platWrite (p g entry : Nat)
  | ownerWrite (g owner : Nat)
  | township (p t : Nat)
  | site (p n : Nat)
  | key (e slot : Nat)
  | conf
  | lc
  deriving DecidableEq, Repr

/-- What software does with the registers of the DOE mailbox (R392): a DW written to or read from it, GO, Abort, and its status. -/
inductive DoeOp where
  | write (dw : BitVec 32)
  | go
  | read
  | abort
  | status
  deriving DecidableEq, Repr

/-- A configuration request as the hub acts on it: a read or a write of a word of configuration space that has no effect of its own, the
identity of the SR-IOV capability, NumVFs, VF Enable, the power state, ATS Enable with its Smallest Translation Unit (2^stu pages of
4 KiB), MSI-X Enable with Function Mask, the options of Table 13-1, Max Payload Size and Max Read Request Size in bytes, the Completion
Timeout Value with its Disable, the DOE mailbox, and an address association range of an IDE stream. -/
inductive CfgReq where
  | read (word : Nat)
  | write (word : Nat) (value : BitVec 32)
  | sriov
  | numVfs (n : Nat)
  | vfEnable (on : Bool)
  | power (d3 : Bool)
  | ats (on : Bool) (stu : Nat)
  | msix (on mask : Bool)
  | options
  | devCtl (mps mrrs : Nat)
  | devCtl2 (timeout : Nat) (disable : Bool)
  | doe (op : DoeOp)
  | ideRange (stream idx lo hi : Nat)
  deriving DecidableEq, Repr

/-- A read of host memory that can fail: of a thread's access, of a queue's ring fetch, or of a COPY's source or a LAUNCH's structures. -/
inductive HostReq where
  | access (id : Nat)
  | ring (q : Nat)
  | command (q i : Nat)
  deriving DecidableEq, Repr

/-- What happens to the host link: training ends, Recovery is entered, the link goes down. -/
inductive LinkEvent where
  | trained (rate width : Nat) (flit : Bool)
  | recovery
  | down
  deriving DecidableEq, Repr

/-- An IDE_KM request: a key set of a stream programmed, started or stopped. -/
inductive IdeOp where
  | prog | go | stop
  deriving DecidableEq, Repr

/-- A TDISP request other than LOCK_INTERFACE_REQUEST. -/
inductive TdispOp where
  | start | stop | query | other
  deriving DecidableEq, Repr

/-- Why a site's rail trips (R322): its power has stood above OCP_W, or its voltage has fallen 10 % below its setting. -/
inductive RailFault where
  | over (site : Nat)
  | under (site : Nat)
  deriving DecidableEq, Repr

/-- An MCTP message by what the endpoint does with it. -/
inductive MctpMsg where
  | setEid (eid : Nat)
  | getEid
  | spdm
  | other
  deriving DecidableEq, Repr

/-- The two debug paths (chapter 22). -/
inductive DebugPath where
  | port | window
  deriving DecidableEq, Repr

/-! ### Messages out of the block -/

/-- A PASID prefix: the number, with Privileged Mode Requested and Execute Requested, which the hub leaves 0 (R388). -/
structure Pasid where
  num  : Nat
  priv : Bool := false
  exe  : Bool := false
  deriving DecidableEq, Repr

/-- What leaves the hub and is seen outside it: writes and reads on the host link (`xlat` says that the address is translated, R389),
interrupts, ATS traffic, completions, flits to a chiplet by link module and place in order (R341, R345), sideband writes by the link module
that carries them (R313), frames of the traverse ring, and answers on the management paths.
(DESIGN CHOICE: log entry 85.) -/
inductive Out where
  | hostWrite (fn : Nat) (pasid : Option Pasid) (addr : Nat) (bytes : List Byte) (xlat : Bool := false)
  | hostRead (fn : Nat) (pasid : Option Pasid) (addr len id : Nat) (xlat : Bool := false)
  | atsRequest (fn : Nat) (pasid : Option Pasid) (addr : Nat)
  | atsDone (fn : Nat) (tag : Nat)
  | msix (fn vector : Nat)
  | completion (fn : Nat) (status : Nat) (bytes : List Byte)
  | regValue (off : Nat) (value : W64)
  | flit (site module seq ctrl : Nat) (slots : List Nat)
  | sideband (site module off : Nat) (value : W64)
  | pin (name : Nat) (level : Bool)
  | frame (opcode : Nat) (words : List Nat)
  | mgmt (kind : Nat) (words : List Nat)
  deriving DecidableEq, Repr

end Sys2Proof
end

