-- ==== Sys2Proof/Syntax.lean ====
section
/-! DEFINITION. The commands of the block: one constructor for each row of the opcode table. A thread instruction carries the
global thread number that issues it (R22) and the fields of its word or words (Table 03-3). -/

namespace Sys2Proof

/-- The commands of the FG-1400 hub. -/
inductive Instr where
  /-- R96: Scalar instruction: d := (a + b) mod 2^32. -/
  | add (t : Nat) (f : FmtA)
  /-- R96: Scalar instruction: d := (a - b) mod 2^32. -/
  | sub (t : Nat) (f : FmtA)
  /-- R96: Scalar bitwise AND of a and b into d. -/
  | and (t : Nat) (f : FmtA)
  /-- R96: Scalar bitwise OR of a and b into d. -/
  | or (t : Nat) (f : FmtA)
  /-- R96: Scalar bitwise XOR of a and b into d. -/
  | xor (t : Nat) (f : FmtA)
  /-- R96: Shifts a left by b[4:0] into d. -/
  | sll (t : Nat) (f : FmtA)
  /-- R96: Shifts a right by b[4:0], filling with zeros, into d. -/
  | srl (t : Nat) (f : FmtA)
  /-- R96: Shifts a right by b[4:0], filling with the sign, into d. -/
  | sra (t : Nat) (f : FmtA)
  /-- R96: Writes the low 32 bits of a × b to d. -/
  | mul (t : Nat) (f : FmtA)
  /-- R96: Writes the high 32 bits of the signed product a × b to d. -/
  | mulh (t : Nat) (f : FmtA)
  /-- R96: Writes the high 32 bits of the unsigned product a × b to d. -/
  | mulhu (t : Nat) (f : FmtA)
  /-- R96: Writes the signed minimum of a and b to d. -/
  | min (t : Nat) (f : FmtA)
  /-- R96: Writes the signed maximum of a and b to d. -/
  | max (t : Nat) (f : FmtA)
  /-- R96: Writes the unsigned minimum of a and b to d. -/
  | minu (t : Nat) (f : FmtA)
  /-- R96: Writes the unsigned maximum of a and b to d. -/
  | maxu (t : Nat) (f : FmtA)
  /-- R96: Adds the sign-extended immediate to a. -/
  | addi (t : Nat) (f : FmtI)
  /-- R96: ANDs a with the zero-extended immediate. -/
  | andi (t : Nat) (f : FmtI)
  /-- R96: ORs a with the zero-extended immediate. -/
  | ori (t : Nat) (f : FmtI)
  /-- R96: XORs a with the zero-extended immediate. -/
  | xori (t : Nat) (f : FmtI)
  /-- R96: Shifts a by an immediate amount, of the kind that imm[13:12] selects. -/
  | shi (t : Nat) (f : FmtI)
  /-- R81: Extended instruction: loads the 32-bit extension word into d. -/
  | movi (t : Nat) (f : FmtE)
  /-- R96: Writes an integer or FP32 comparison of a and b into a predicate. -/
  | cmp (t : Nat) (cond : BitVec 6) (f : FmtA)
  /-- R96: Writes a comparison of a with the sign-extended immediate into a predicate. -/
  | cmpi (t : Nat) (f : FmtI)
  /-- R96: Predicate AND. -/
  | pand (t : Nat) (f : FmtA)
  /-- R96: Predicate OR. -/
  | por (t : Nat) (f : FmtA)
  /-- R96: Predicate XOR. -/
  | pxor (t : Nat) (f : FmtA)
  /-- R96: Predicate AND-NOT. -/
  | pandn (t : Nat) (f : FmtA)
  /-- R96: Predicate NOT. -/
  | pnot (t : Nat) (f : FmtA)
  /-- R96: Sets a predicate true. -/
  | pset (t : Nat) (f : FmtA)
  /-- R96: Sets a predicate false. -/
  | pclr (t : Nat) (f : FmtA)
  /-- R96: Selects a or b by a predicate, optionally inverted. -/
  | sel (t : Nat) (f : FmtA)
  /-- R116: Scalar FP32 addition, rounded to nearest even. -/
  | fadd (t : Nat) (f : FmtA)
  /-- R116: Scalar FP32 subtraction. -/
  | fsub (t : Nat) (f : FmtA)
  /-- R116: Scalar FP32 multiplication. -/
  | fmul (t : Nat) (f : FmtA)
  /-- R116: Scalar fused multiply-add d + a × b with one rounding. -/
  | ffma (t : Nat) (f : FmtA)
  /-- R116: Scalar FP32 minimumNumber. -/
  | fmin (t : Nat) (f : FmtA)
  /-- R116: Scalar FP32 maximumNumber. -/
  | fmax (t : Nat) (f : FmtA)
  /-- R116: Scalar reciprocal approximation with relative error at most 2^-22. -/
  | frcp (t : Nat) (f : FmtA)
  /-- R116: Scalar reciprocal square root approximation. -/
  | frsq (t : Nat) (f : FmtA)
  /-- R116: Scalar base-2 exponential approximation. -/
  | fexp2 (t : Nat) (f : FmtA)
  /-- R116: Converts FP32 to INT32, saturating, with NaN giving 0. -/
  | fcvtI (t : Nat) (f : FmtA)
  /-- R116: Converts INT32 to FP32. -/
  | fcvtF (t : Nat) (f : FmtA)
  /-- R108: Clears the sign bit and keeps the NaN payload. -/
  | fabs (t : Nat) (f : FmtA)
  /-- R108: Inverts the sign bit and keeps the NaN payload. -/
  | fneg (t : Nat) (f : FmtA)
  /-- R84: Global scalar or pair load, or FP16 load converted to FP32. -/
  | ld (t : Nat) (f : FmtM)
  /-- R84: Global scalar, pair or FP16 store. -/
  | st (t : Nat) (f : FmtM)
  /-- R85: Scratchpad scalar load at a local address. -/
  | ldl (t : Nat) (f : FmtM)
  /-- R85: Scratchpad scalar store at a local address. -/
  | stl (t : Nat) (f : FmtM)
  /-- R84: Loads 64 bytes into a vector register and sets its tag and zero flags. -/
  | vld (t : Nat) (f : FmtM)
  /-- R84: Stores 64 bytes of a vector register to memory. -/
  | vst (t : Nat) (f : FmtM)
  /-- R85: Scratchpad vector load. -/
  | vldl (t : Nat) (f : FmtM)
  /-- R85: Scratchpad vector store. -/
  | vstl (t : Nat) (f : FmtM)
  /-- R137: Converting vector load: FP16, packed FP6 or CSB expansion. -/
  | vldx (t : Nat) (f : FmtE)
  /-- R142: Converting vector store: FP16, packed FP6 or CSB compression. -/
  | vstx (t : Nat) (f : FmtE)
  /-- R87: Global atomic operation with an ordering and a scope. -/
  | atom (t : Nat) (f : FmtE)
  /-- R217: Scratchpad atomic at section scope. -/
  | atoml (t : Nat) (f : FmtE)
  /-- R97: Vector multiply-accumulate into a0 in dot, out or bc form. -/
  | vmac (t : Nat) (f : FmtE)
  /-- R141: Multiply-accumulate with the A operand expanded directly from CSB blocks in the scratchpad. -/
  | vmacc (t : Nat) (f : FmtE)
  /-- R98: Clears every accumulator to +0.0. -/
  | aclr (t : Nat) (f : FmtA)
  /-- R98: Moves the FP32 elements of a vector into a0. -/
  | amovf (t : Nat) (f : FmtA)
  /-- R98: Moves a0 into a vector register tagged FP32. -/
  | amovt (t : Nat) (f : FmtA)
  /-- R116: Scales every accumulator by a scalar. -/
  | ascl (t : Nat) (f : FmtA)
  /-- R116: Adds vector elements into the accumulators. -/
  | aadd (t : Nat) (f : FmtA)
  /-- R116: Takes the element-wise fmax of the accumulators and a vector. -/
  | amax (t : Nat) (f : FmtA)
  /-- R116: Applies 2^x to each accumulator. -/
  | aexp2 (t : Nat) (f : FmtA)
  /-- R116: Applies the reciprocal to each accumulator. -/
  | arcp (t : Nat) (f : FmtA)
  /-- R117: Reduces the accumulators in a fixed pairwise FP32 tree into a scalar. -/
  | ared (t : Nat) (f : FmtA)
  /-- R116: Reduces the accumulators by fmax into a scalar. -/
  | armax (t : Nat) (f : FmtA)
  /-- R104: Reduces the accumulators as INT32, modulo 2^32, into a scalar. -/
  | aired (t : Nat) (f : FmtA)
  /-- R123: Converts 16 accumulators into a register format, with optional stochastic rounding. -/
  | acvt (t : Nat) (f : FmtE)
  /-- R78: Copies a vector register with its tag and flags. -/
  | vmov (t : Nat) (f : FmtA)
  /-- R78: Broadcasts a scalar to every word of a vector register. -/
  | vbc (t : Nat) (f : FmtA)
  /-- R96: Extracts one word of a vector register into a scalar. -/
  | vext (t : Nat) (f : FmtA)
  /-- R78: Inserts a scalar into one word of a vector register and recomputes the flags. -/
  | vins (t : Nat) (f : FmtA)
  /-- R78: Zeroes a vector register and sets its tag to none. -/
  | vzero (t : Nat) (f : FmtA)
  /-- R96: Merges accumulator scores into a top-k gate list. -/
  | gtopk (t : Nat) (f : FmtE)
  /-- R607: Normalises gate list scores by softmax or by sum. -/
  | gnorm (t : Nat) (fn : BitVec 6) (f : FmtA)
  /-- R92: Dispatches a token row to experts, committed or speculative. -/
  | dspt (t : Nat) (f : FmtE)
  /-- R152: Takes the next token record of an expert, or reports the layer closed. -/
  | drecv (t : Nat) (f : FmtE)
  /-- R156: Returns a result row to the origin named in the token record. -/
  | dret (t : Nat) (f : FmtE)
  /-- R62: Orders the thread's accesses at a scope. -/
  | fence (t : Nat) (f : FmtA)
  /-- R69: Fence signal: near atomic maximum with release ordering. -/
  | fsig (t : Nat) (f : FmtE)
  /-- R71: Waits for a fence word to reach a target and returns the abandon flag. -/
  | fwait (t : Nat) (f : FmtE)
  /-- R94: Barrier at section or township scope. -/
  | bar (t : Nat) (f : FmtA)
  /-- R429: Writes an event record to the context's event ring. -/
  | evpost (t : Nat) (f : FmtI)
  /-- R96: Conditional or unconditional relative branch. -/
  | br (t : Nat) (f : FmtI)
  /-- R96: Jump and link into a register pair. -/
  | jal (t : Nat) (f : FmtE)
  /-- R96: Jump to a register pair, taking ALIGN when misaligned. -/
  | jr (t : Nat) (f : FmtA)
  /-- R40: The thread ends. -/
  | endThread (t : Nat) (f : FmtA)
  /-- R95: Thread instruction with no effect. -/
  | nopInstruction (t : Nat) (f : FmtA)
  /-- R93: Reads a special register into a scalar. -/
  | rdsr (t : Nat) (sr : BitVec 6) (f : FmtA)
  /-- R129: Writes the stochastic rounding generator. -/
  | wrsr (t : Nat) (f : FmtA)
  /-- R95: A core issues one instruction of a ready thread, chosen in rotating order. -/
  | threadIssue (ship sec core : Nat)
  /-- R97: The MAC vector becomes free after a vmac's occupation. -/
  | macOccupationEnd (ship sec core : Nat)
  /-- R96: Data of an outstanding load arrives and is written to its register. -/
  | loadDataReturn (acc : Nat) (data : Option Nat)
  /-- R606: A host-window access fails when the hub learns of the failure. -/
  | hostError (r : HostReq)
  /-- R71: A waiting fwait observes its target and releases its thread. -/
  | fwaitSatisfied (t : Nat)
  /-- R94: The last thread arrives at or ends before a bar and releases the waiters. -/
  | barRelease (t : Nat)
  /-- R92: A held dspt completes once every copy is admitted or dropped. -/
  | dsptAccepted (t : Nat)
  /-- R40: The last thread ends and all effects are visible; the reply and fences follow. -/
  | launchComplete (launch : Nat)
  /-- R214: A bank serves one row per step and stalled requests retry. -/
  | scratchpadBankArbitration (ship sec bank : Nat)
  /-- R215: A scratchpad request stalled 16 consecutive steps becomes raised. -/
  | raisedRequest (ship sec seq : Nat)
  /-- R153: A token copy packet reaches its hosting section or adapter. -/
  | tcopy (m : Tok)
  /-- R153: The origin receives an admission of a copy. -/
  | admitCopy (m : Tok)
  /-- R154: The origin receives a refusal and acts under the overflow policy. -/
  | refuse (m : Tok)
  /-- R242: The origin marks a held ledger entry eligible for re-sending. -/
  | room (m : Tok)
  /-- R170: A speculative record is confirmed and its logs are performed. -/
  | confirm (m : Tok)
  /-- R171: A speculative record is refuted and its thread is rolled back. -/
  | refute (m : Tok)
  /-- R156: A returned result row is combined into the token's combine row. -/
  | tret (m : Tok)
  /-- R154: A held copy waits HOLD_LIMIT × 1,024 steps without admission and is dropped. -/
  | holdExpired (ship entry : Nat)
  /-- R158: A closed layer's copies are all settled and COMBINE_FENCE is signalled. -/
  | layerSettled (launch : Nat)
  /-- R240: The home receives a read-for-shared request. -/
  | rds (m : Msg)
  /-- R240: The home receives a read-for-ownership request. -/
  | rdx (m : Msg)
  /-- R240: The home receives an upgrade request from an S holder. -/
  | upg (m : Msg)
  /-- R240: The home or a window server receives an uncached read. -/
  | rdu (m : Msg)
  /-- R240: The home or a window server receives an uncached write. -/
  | wru (m : Msg)
  /-- R252: The home or a window server receives a near atomic. -/
  | atn (m : Msg)
  /-- R246: The owner receives a forward to give the requester an S copy. -/
  | fwds (m : Msg)
  /-- R246: The owner receives a forward to give away the line. -/
  | fwdx (m : Msg)
  /-- R247: A holder receives an invalidation. -/
  | inv (m : Msg)
  /-- R246: The owner receives a recall of the line to the home. -/
  | rcl (m : Msg)
  /-- R248: The requester receives a grant; it performs the access once the acks are in. -/
  | data (m : Msg)
  /-- R245: The home receives the owner's line for memory. -/
  | datah (m : Msg)
  /-- R237: The home receives an eviction of an E or M line. -/
  | wb (m : Msg)
  /-- R254: The master receives a near atomic's old value and CONTENDED bit. -/
  | atr (m : Msg)
  /-- R248: An invalidation acknowledgement is received. -/
  | invack (m : Msg)
  /-- R240: The home receives a completion and ends the busy state of the line. -/
  | cmpack (m : Msg)
  /-- R249: The evicting agent receives a writeback acknowledgement. -/
  | wback (m : Msg)
  /-- R255: The master receives the acknowledgement of an uncached write. -/
  | uack (m : Msg)
  /-- R251: A speculative SONLY read is refused and waits for closure. -/
  | specwait (m : Msg)
  /-- R244: A request that has waited AGE_STEPS without entering its home sets AGED. -/
  | aged (m : Msg)
  /-- R284: A header that fails its parity check is refused and sent again. -/
  | headerResend (router tries : Nat)
  /-- R282: A packet reaches a sleeping township or engine, is held and starts the wake. -/
  | wake (p : Pkt)
  /-- R282: A wake ends and the held packets are delivered in order. -/
  | wakeDone (engine : Bool) (n : Nat)
  /-- R546: A township idle for IDLE_US goes to sleep. -/
  | townshipSleep (ship : Nat)
  /-- R546: A channel-pair engine idle for 200 µs enters self-refresh. -/
  | selfRefreshEntry (engine : Nat)
  /-- R299: A read burst returns from the stack with a corrected or uncorrectable report. -/
  | hbmReadBurst (dpa : Nat) (uncorrectable : Bool)
  /-- R570: A reload of a poisoned easement page starts after the event. -/
  | poisonReloadStart (page : Nat)
  /-- R570: A reload's writes finish and the page leaves the list. -/
  | poisonReloadDone (page : Nat)
  /-- R572: A reload fails and the page stays listed with cause 0x10. -/
  | poisonReloadFail (page : Nat)
  /-- R296: The 1 ms stack temperature reading sets the refresh step. -/
  | refreshStepChange (stack : Nat) (temp : BitVec 8)
  /-- R300: A period, drift or CE cause requests a channel retraining. -/
  | retrainTrigger (channel cause : Nat)
  /-- R302: A retraining slice of one channel begins and its requests are held. -/
  | sliceStart (channel : Nat)
  /-- R303: A slice ends at latest after 250 µs and the hold store is served. -/
  | sliceEnd (kept : Bool)
  /-- R298: A channel fails in service by failed retraining or loss of PHY lock. -/
  | channelFailed (channel : Nat)
  /-- R297: A write or a UE count sets the channel to be mapped out at the next start-up. -/
  | mapoutNext (channel : Nat)
  /-- R300: Driver register write requesting a channel retraining. -/
  | retrain (channel : Nat)
  /-- R14: Writing APPLY captures a staged group's shadow set for validation. -/
  | commitApply (p : Party) (off : Nat)
  /-- R14: Writing DISCARD reloads the shadow set from the active set. -/
  | commitDiscard (p : Party) (off : Nat)
  /-- R13: Writing 1 to REJECTED clears it and returns REASON to 0x00. -/
  | commitRejectedClear (p : Party) (off : Nat)
  /-- R11: Validation ends and the new set is applied at one instant, or rejected. -/
  | commitApplied (off group : Nat)
  /-- R9: A write to a register without behaviour of its own, under its access codes. -/
  | registerWrite (p : Party) (off size : Nat) (value : W64) (tee : Bool)
  /-- R9: A read of an RC field returns the value and clears it. -/
  | rcRead (p : Party) (off size : Nat) (tee bar2 : Bool)
  /-- R378: A BAR0 access of a wrong size, alignment or with a PASID is refused and counted. -/
  | badAccess (off size : Nat) (pasid write : Bool)
  /-- R385: A doorbell write sets a queue's tail and submits commands. -/
  | doorbell (n page slot : Nat) (value : W64) (tee : Bool)
  /-- R401: A command packet is fetched from the ring and its references taken. -/
  | commandFetch (q pkt : Nat)
  /-- R407: A ring fetch faults or times out, losing the context or stopping the function queue. -/
  | ringFetchFail (q : Nat)
  /-- R405: A command of a queue starts in index order after its barrier conditions. -/
  | commandStart (q : Nat)
  /-- R406: A completing command writes its reply and raises the queue fence. -/
  | statusReply (q i : Nat)
  /-- R17: Command that does nothing and completes. -/
  | nop (q i : Nat)
  /-- R417: Command: fence signal at system scope. -/
  | fenceSignal (q i : Nat)
  /-- R417: Command: waits until a fence reaches a target. -/
  | fenceWait (q i : Nat)
  /-- R417: A pending FENCE_WAIT observes its target and completes. -/
  | fenceWaitSatisfied (q i : Nat)
  /-- R423: Creates a VF's group 0 and function queue. -/
  | fqCreate (q i : Nat)
  /-- R421: Creates a queue group. -/
  | groupCreate (q i : Nat)
  /-- R421: Destroys an empty queue group. -/
  | groupDestroy (q i : Nat)
  /-- R422: Creates a context queue. -/
  | queueCreate (q i : Nat)
  /-- R423: Destroys an idle or stopped queue. -/
  | queueDestroy (q i : Nat)
  /-- R436: Stops named queues at boundary or instruction grade. -/
  | queueStop (q i : Nat)
  /-- R437: The last named queue becomes stopped and QUEUE_STOP completes. -/
  | queueStopped (q i : Nat)
  /-- R439: Makes stopped queues running and restarts saved launches. -/
  | queueResume (q i : Nat)
  /-- R449: Restores a saved launch's image and applies its ledger entries. -/
  | restore (launch : Nat)
  /-- R448: An answer to a recorded request is written into its returns ledger entry. -/
  | ledgerAnswer (ship tx : Nat)
  /-- R419: Creates a context. -/
  | ctxCreate (q i : Nat)
  /-- R420: Retires a context in the steps of Table 14-8. -/
  | ctxRetire (q i : Nat)
  /-- R51: Invalidates the context's cached translations and sends XINV. -/
  | ctxInvalidate (q i : Nat)
  /-- R424: Creates a memory object. -/
  | memCreate (q i : Nat)
  /-- R424: Adds host references to a memory object. -/
  | memHold (q i : Nat)
  /-- R424: Drops host references to a memory object. -/
  | memFree (q i : Nat)
  /-- R425: Returns a memory object's host and device counts. -/
  | memQuery (q i : Nat)
  /-- R426: Creates a fence object. -/
  | fenceCreate (q i : Nat)
  /-- R428: Frees a fence object without writing it. -/
  | fenceFree (q i : Nat)
  /-- R608: Checks a launch's structures and queues it for placement. -/
  | launch (q i : Nat)
  /-- R430: The scheduler places a waiting launch on its townships. -/
  | launchPlaced (launch : Nat)
  /-- R432: The first waiting launch has waited STARVE_US and lower launches are held back. -/
  | starve (launch : Nat)
  /-- R415: Copies bytes on the copy engines. -/
  | copy (q i : Nat)
  /-- R415: Fills bytes with a pattern on the copy engines. -/
  | fill (q i : Nat)
  /-- R434: A copy engine finishes one 4 KiB piece of a COPY or FILL. -/
  | copyPiece (q i : Nat)
  /-- R416: Command sending work to a foreign engine. -/
  | work (q i : Nat)
  /-- R433: A waiting WORK is sent once its engine has room. -/
  | workSent (q i : Nat)
  /-- R185: Admits a sequence, reserving entries and frames. -/
  | seqAdmit (q i : Nat)
  /-- R196: Releases or marks leaving a sequence. -/
  | seqRetire (q i : Nat)
  /-- R189: Opens a batch step and writes the slot list. -/
  | stepOpen (q i : Nat)
  /-- R193: Requests step closure of a batch. -/
  | stepClose (q i : Nat)
  /-- R194: Once its conditions hold, the step's tokens commit and leaving sequences are released. -/
  | stepClosure (q i : Nat)
  /-- R201: A gather stream takes its bound and writes ROWS and STATUS. -/
  | gatherStreamStart (ship sec : Nat)
  /-- R203: The gather engine completes a chunk and raises READY. -/
  | gatherChunk (ship sec : Nat)
  /-- R450: Registers a weight set bound to an easement. -/
  | wsetRegister (q i : Nat)
  /-- R451: Loads an absent weight set into bays. -/
  | wsetLoad (q i : Nat)
  /-- R451: Every byte of a weight-set load is in HBM. -/
  | wsetLoadDone (wset : Nat) (bad : Option (Nat × Nat))
  /-- R452: Pins a weight set. -/
  | wsetPin (q i : Nat)
  /-- R452: Unpins a weight set. -/
  | wsetUnpin (q i : Nat)
  /-- R452: Frees the bays of an evictable resident set. -/
  | wsetEvict (q i : Nat)
  /-- R467: Creates a parcel with townships, sites and granules. -/
  | parcelCreate (q i : Nat)
  /-- R470: Changes a parcel's holding. -/
  | parcelResize (q i : Nat)
  /-- R471: Destroys a parcel with no contexts. -/
  | parcelDestroy (q i : Nat)
  /-- R461: Granule zeroing ends and the holding changes at one instant. -/
  | granuleZeroed (q i : Nat)
  /-- R256: A leaving township is written back and leaves at a free command boundary. -/
  | townshipLeave (ship : Nat)
  /-- R466: Edits a run of plat entries. -/
  | platEdit (q i : Nat)
  /-- R472: Creates an easement. -/
  | easeCreate (q i : Nat)
  /-- R473: Maps an easement into a parcel's plat. -/
  | easeMap (q i : Nat)
  /-- R473: Unmaps an easement from a parcel. -/
  | easeUnmap (q i : Nat)
  /-- R474: Destroys an unmapped, unbound easement. -/
  | easeDestroy (q i : Nat)
  /-- R482: Sets and commits a parcel's shares. -/
  | shareSet (q i : Nat)
  /-- R146: Writes a parcel's expert route table. -/
  | erouteSet (q i parcel : Nat) (entries : List (Nat × Nat))
  /-- R228: Runs the transparent built-in test on named townships. -/
  | arrayTest (q i : Nat)
  /-- R230: A block under test ends its phases and is released. -/
  | arrayTestBlock (ship : Nat) (sect : Option Nat) (block : Nat) (cols : List Nat) (mismatch : Bool)
  /-- R229: A township's test ends and it returns to service. -/
  | arrayTestEnd (ship : Nat)
  /-- R479: A 256-slot window ends and guarantee misses are counted. -/
  | slotWindowEnd (channel : Nat) (waited : List Nat) (grants : List (Nat × Nat))
  /-- R478: A waiting request's remaining slack reaches 0. -/
  | slackExpired (m : Msg)
  /-- R480: Writing 1 clears a miss bit and re-arms the event. -/
  | shrMissClear (value : W64)
  /-- R509: Installs a wrapped weight key in an easement's slot. -/
  | keyInstall (q i blob : Nat)
  /-- R510: Erases a key slot when no page is in flight. -/
  | keyRetire (q i : Nat)
  /-- R500: Enters confidential mode. -/
  | confEnter (q i : Nat)
  /-- R504: Leaves confidential mode and scrubs. -/
  | confLeave (q i : Nat)
  /-- R503: A TDISP change, FLR or domain loss leaves confidential mode. -/
  | confidentialLeaveEvent
  /-- R524: Erases keys, HBM, arrays and the record and writes an erase attestation. -/
  | secretsErase (q i : Nat)
  /-- R523: Checks and performs a signed life-cycle transition or owner enrolment. -/
  | lcRequest (q i envelope : Nat)
  /-- R522: Writing NEW draws a fresh life-cycle nonce. -/
  | new
  /-- R397: Writing SWAP flushes the dirty cache and exchanges the active map. -/
  | swap (n : Nat)
  /-- R578: Writing SNAP copies every transit counter to host memory. -/
  | snap
  /-- R569: Writing a page to RAS_POISON_CLEAR removes it from the list. -/
  | poisonClear (page : Nat)
  /-- R162: Writing CLEAR invalidates every predictor entry. -/
  | predClear (ship : Nat)
  /-- R254: Writing CLEAR sets every contention counter to 0. -/
  | atomClear (ship : Nat)
  /-- R334: Writing RESTART brings a DOWN site up again after recovery. -/
  | restart (site : Nat)
  /-- R536: A GLB_BOOT_CTRL bit is set and written into the benchmark record. -/
  | bootCtrlWrite (value : W64)
  /-- R559: A PWR_TRV_CFG write is recorded; RING_EN 0 sends RELEASE and closes the bypass. -/
  | traverseConfigWrite (value : W64)
  /-- R379: A host read through BAR4 is served as a coherent request. -/
  | bar4Read (n off len : Nat) (tee : Bool)
  /-- R379: A host write through BAR4 enters the fabric or is discarded. -/
  | bar4Write (n off : Nat) (bytes : List Byte) (tee : Bool)
  /-- R384: A change of Bus Master Enable stops or lets resume a function's host accesses. -/
  | busMasterEnable (n : Nat) (on : Bool)
  /-- R382: A VF Function Level Reset retires its contexts and groups. -/
  | vfFlr (n : Nat)
  /-- R383: A PF FLR or D3hot to D0 transition is a warm reset. -/
  | pfFlr
  /-- R375: Deassertion of PERST# starts link training. -/
  | perst (asserted : Bool)
  /-- R390: The hub removes cached translations and sends the completion. -/
  | atsInvalidationRequest (n tag pasid page count : Nat)
  /-- R389: A Translation Request returns; the access proceeds or takes HOST_ERROR. -/
  | atsTranslationCompletion (n tag hostPage : Nat) (read write : Bool)
  /-- R391: A non-posted request of the hub times out. -/
  | completionTimeout (r : HostReq)
  /-- R501: TDISP request locking a VF interface. -/
  | lockInterfaceRequest (n : Nat)
  /-- R394: A VF interface enters ERROR and acts as a VF FLR. -/
  | tdiError (n : Nat)
  /-- R497: SPDM request for measurement blocks, taking fresh chiplet reports. -/
  | getMeasurements (index nonce : Nat)
  /-- R495: SPDM challenge signed with the alias key. -/
  | challenge (nonce : Nat)
  /-- R495: Vendor request for the ML-DSA-65 alias signature of the last signed response. -/
  | mlDsaSignatureRequest
  /-- R393: IDE key programming over Secured SPDM. -/
  | ideKm (stream set : Nat) (op : IdeOp)
  /-- R369: MEAS_READY is not set within 100 ms and the site is unmeasured. -/
  | measTimeout (site : Nat)
  /-- R369: The chiplet sets MEAS_READY and the hub reads the report. -/
  | measReady (site : Nat) (report : List Nat)
  /-- R585: PLDM RequestUpdate opens a firmware update. -/
  | requestUpdate (components : List Nat)
  /-- R585: Received firmware data is written into the other slot. -/
  | requestFirmwareData (component : Nat) (bytes : List Byte)
  /-- R586: Verifies the new slot and names it for the next start-up. -/
  | activateFirmware (_selfContained : Bool)
  /-- R575: I3C dynamic address assignment. -/
  | entdaa (addr : BitVec 7)
  /-- R575: I3C set all addresses to static address. -/
  | setaasa
  /-- R576: An MCTP message is received over I3C or PCIe. -/
  | mctpMessage (pcie : Bool) (m : MctpMsg)
  /-- R577: PLDM request for a numeric sensor value. -/
  | pldmSensorRead (id : Nat)
  /-- R582: A debug path is attached and a session opens. -/
  | debugAttach (p : DebugPath)
  /-- R582: A debug path is detached and the session closes. -/
  | debugDetach (p : DebugPath)
  /-- R583: A debug halt stops issue in a township. -/
  | debugHalt (ship : Nat)
  /-- R583: A halted township resumes issue. -/
  | debugResume (ship : Nat)
  /-- R591: MRST_N low for 10 µs or more is a cold reset. -/
  | mrst
  /-- R527: Release of reset runs the nine start-up steps. -/
  | startUp (f : BootFacts)
  /-- R593: VIN48 in range for 1 ms releases a start-up held at step 4. -/
  | vin48InRange
  /-- R536: The datum controller writes the other record copy within 100 ms of an event. -/
  | benchmarkRecordWrite
  /-- R590: VIN48 below 42 V for 100 µs switches off every rail except auxiliary. -/
  | vin48Loss
  /-- R594: VAUX33 below 2.8 V switches off every rail within 100 µs. -/
  | vaux33Loss
  /-- R325: The hub releases a site's reset to begin bring-up. -/
  | siteResetRelease (site : Nat)
  /-- R319: No sideband by 20 ms leaves the site absent. -/
  | noSideband (site : Nat)
  /-- R330: The chiplet's sideband starts and the hub reads identity and width. -/
  | sidebandReady (site : Nat) (regs : List (Nat × Nat))
  /-- R328: Mainband training ends; repair, degrade and width are applied. -/
  | siteTrainingDone (site active half repairs scratch read : Nat)
  /-- R347: The hub reads the chiplet's credits and sends its credit flit; the site becomes UP. -/
  | creditExchange (site : Nat)
  /-- R333: A site goes down, with its reset asserted and cause recorded. -/
  | siteDown (site cause : Nat)
  /-- R322: A site rail overcurrent or undervoltage switches the rail off. -/
  | railTrip (fault : RailFault)
  /-- R345: A flit from the chiplet is received, reordered and its slots read. -/
  | flitReceived (site seq : Nat) (crcBad nak : Bool) (ctrl : Nat) (slots : List Nat)
  /-- R344: A control slot returns credits per class. -/
  | controlSlot (site word : Nat)
  /-- R332: A module link loss or replay exhaustion takes the site down. -/
  | replayExhausted (site : Nat)
  /-- R365: The chiplet's UE sideband message makes the hub read BLK_ERR. -/
  | ueSidebandMessage (site err : Nat)
  /-- R365: The 1 ms poll of BLK_ERR. -/
  | blkErrPoll (site err : Nat)
  /-- R363: A timed message to a chiplet exceeds RESP_US and the site goes down. -/
  | respUsExpiry (site : Nat)
  /-- R352: The hub sets FLUSH and the chiplet writes back its lines. -/
  | flush (site : Nat)
  /-- R352: The chiplet sets FLUSH_DONE and the site's agents are cleared. -/
  | flushDone (site : Nat)
  /-- R353: The hub sets DROP on domain loss from outside the site. -/
  | drop (site : Nat)
  /-- R353: The chiplet sets DROP_DONE and the site serves again. -/
  | dropDone (site : Nat)
  /-- R352: FLUSH_DONE or DROP_DONE is not set within FLUSH_MS. -/
  | flushMsExpiry (site : Nat)
  /-- R356: A foreign engine accepts a WORK packet into its queue. -/
  | workMessage (site : Nat)
  /-- R357: An engine's DONE completes its WORK command. -/
  | done (site txid st detail result : Nat)
  /-- R362: The chiplet receives a cancel of a window request or WORK. -/
  | cancel (site : Nat)
  /-- R362: The hub receives confirmation that a request or WORK was cancelled. -/
  | cancelled (site txid who : Nat)
  /-- R358: The adapter translates an engine's PVA. -/
  | xlate (site txid ctx page write : Nat)
  /-- R359: The engine receives a translation or fault code. -/
  | xlated (site : Nat)
  /-- R359: The chiplet receives a translation invalidation for a context. -/
  | xinv (site : Nat)
  /-- R360: The hub receives the acknowledgement of an XINV. -/
  | xinvack (site txid ctx : Nat)
  /-- R260: A parcel's coherent domain goes down and recovery runs. -/
  | domainDown (cause parcel dpa unit : Nat)
  /-- R260: The recovery test ends and the parcel reset is applied. -/
  | recoveryEnd (parcel : Nat)
  /-- R563: A device-class error stops every context. -/
  | deviceError (addr unit kind : Nat)
  /-- R564: A field core watchdog expires and service firmware restarts. -/
  | fieldCoreWatchdog (core : Nat)
  /-- R564: The datum controller's watchdog expires: device-class error. -/
  | datumControllerWatchdog
  /-- R488: The datum controller performs or refuses a gate request. -/
  | gateRequest (g : GateReq)
  /-- R547: Power is measured every 10 µs. -/
  | powerSample (hub : Nat) (sites : List Nat)
  /-- R549: The 100 µs comparison adjusts VCEIL against the hub budget. -/
  | vceilAdjust
  /-- R549: The 20 µs check drops VCEIL by 50 mV above 1.2 × budget. -/
  | vceilFastDrop
  /-- R550: Each 1 ms at refresh step 3 lowers VCEIL by 5 mV. -/
  | stack3Step
  /-- R551: The budget is exceeded for 10 ms at 0.45 V. -/
  | floor
  /-- R552: Contour sensors are read every 50 µs. -/
  | sensorRead (readings : List (Nat × BitVec 16))
  /-- R553: Each 1 ms the township thermal ceiling moves by 10 mV. -/
  | thermalCeilingStep
  /-- R555: A POOL frame adjusts the station's held tokens. -/
  | pool (f : BitVec 128)
  /-- R554: A CENSUS frame adds held tokens and count. -/
  | census (f : BitVec 128)
  /-- R556: A THROTTLE frame sets an origin's throttle level. -/
  | throttle (f : BitVec 128)
  /-- R554: A RELEASE frame is forwarded unchanged. -/
  | release (f : BitVec 128)
  /-- R554: Any other frame is checked and forwarded. -/
  | traverseFrameForward (f : BitVec 128)
  /-- R554: 100 ms without a valid POOL returns the allotment to FALLBACK. -/
  | ringLost
  /-- R556: An origin's throttle level lapses 1 s after its last THROTTLE. -/
  | throttleExpiry (origin : Nat)
  /-- R556: Every 250 ms while HOT or FLOOR, the hub sends THROTTLE level 2. -/
  | throttleOriginate
  /-- R558: The station opens its bypass after a frame's end. -/
  | traverseJoin
  /-- R558: A condition of the open bypass ends and it closes within 1 µs. -/
  | bypassClose
  /-- R376: A PCIe configuration request reaches a function and is answered, with Request Retry Status for up to 200 ms after a reset, or acts on NumVFs, VF Enable, D-state and other configuration fields. -/
  | configurationRequest (n : Nat) (c : CfgReq)
  /-- R394: A TDISP request other than LOCK_INTERFACE_REQUEST moves a VF interface from CONFIG_LOCKED to RUN, or returns it to CONFIG_UNLOCKED. -/
  | tdispMessage (n : Nat) (op : TdispOp)
  /-- R373: The PCIe host link finishes training, enters Recovery or goes down, and GLB_LINK takes the new rate, width, mode and RECOVERIES count. -/
  | hostLinkStateChange (e : LinkEvent)
  /-- R592: The 3.3 V auxiliary rail comes into range, powering the auxiliary domain as a cold reset with the datum controller held and the bypass closed. -/
  | vaux33PowerOn
  /-- R321: A ramping site rail comes within its tolerance and is reported good, moving the site from STATE RAIL toward RESET. -/
  | siteRailGood (site : Nat)
  deriving DecidableEq, Repr

end Sys2Proof
end

