-- ==== Sys2Proof/Decode.lean ====
section
/-! DEFINITION. The words of the opcode table. The commands of this block have no words: no row of the table gives bits. The
words of thread instructions, which a core fetches, are decoded in Machine/ThreadDecode.lean. -/

namespace Sys2Proof

/-- The command that a word spells by the table's bits: none, since no row gives any.
(DESIGN CHOICE: log entry 3.) -/
def decodeTableWord (_nbits _w : Nat) : Option Instr := none

end Sys2Proof
end

