-- ==== Sys2Proof/Machine/Bits.lean ====
section
/-! DEFINITION. Bit fields of a number, sign extension, and bytes in little-endian order (R4, R6). -/

namespace Sys2Proof

/-- Bits [hi:lo] of a number (R4: ranges are inclusive and bit 0 is the least significant). -/
def fld (v hi lo : Nat) : Nat := (v >>> lo) % 2 ^ (hi + 1 - lo)

/-- The number with bits [hi:lo] replaced by the low bits of x. -/
def putFld (v hi lo x : Nat) : Nat :=
  v - (fld v hi lo) <<< lo + (x % 2 ^ (hi + 1 - lo)) <<< lo

/-- One bit of a number. -/
def bitOf (v i : Nat) : Bool := v.testBit i

/-- A Bool as a bit. -/
def b2n (b : Bool) : Nat := if b then 1 else 0

/-- A number of n bits read as two's complement. -/
def sextNat (n v : Nat) : Int := if v % 2 ^ n < 2 ^ (n - 1) then (v % 2 ^ n : Nat) else (v % 2 ^ n : Nat) - (2 ^ n : Nat)

/-- An integer reduced modulo 2^n. -/
def wrap (n : Nat) (x : Int) : Nat := (x % (2 ^ n : Nat)).toNat

/-- The n lowest bytes of a number, lowest first (R6). -/
def bytesOf : Nat → Nat → List Byte
  | 0, _ => []
  | n + 1, v => BitVec.ofNat 8 v :: bytesOf n (v / 256)

/-- The number that a run of bytes spells, lowest byte first (R6). -/
def ofBytes : List Byte → Nat
  | [] => 0
  | b :: bs => b.toNat + 256 * ofBytes bs

/-- Numbers 0 to n - 1 in ascending order. -/
def upTo (n : Nat) : List Nat := List.range n

/-- How many numbers below n satisfy p. -/
def countBelow (n : Nat) (p : Nat → Bool) : Nat := ((upTo n).filter p).length

/-- Addition saturating at the given number of bits. -/
def satAdd (bits a b : Nat) : Nat := min (a + b) (2 ^ bits - 1)

/-- n divided by d, rounded up. -/
def ceilDiv (n d : Nat) : Nat := (n + d - 1) / d

end Sys2Proof
end

