-- ==== Sys2Proof/Machine/Float.lean ====
section
/-! DEFINITION. The number formats of chapter 04: what each encoding stands for, exact arithmetic on the values,
rounding back into a format, and the FP32 operations. -/

namespace Sys2Proof

/-- A floating-point format of Table 04-1: exponent bits, mantissa bits, bias, and which of its encodings with an
all-ones exponent are special: 0 none of them, 1 only the all-ones mantissa (E4M3), 2 all of them. -/
structure FloatFmt where
  ebits : Nat
  mbits : Nat
  bias  : Nat
  spec  : Nat
  deriving DecidableEq, Repr

def FloatFmt.fp32 : FloatFmt := ⟨8, 23, 127, 2⟩
def FloatFmt.bf16 : FloatFmt := ⟨8, 7, 127, 2⟩
def FloatFmt.fp16 : FloatFmt := ⟨5, 10, 15, 2⟩
def FloatFmt.e4m3 : FloatFmt := ⟨4, 3, 7, 1⟩
def FloatFmt.e5m2 : FloatFmt := ⟨5, 2, 15, 2⟩
def FloatFmt.e2m3 : FloatFmt := ⟨2, 3, 1, 0⟩
def FloatFmt.e3m2 : FloatFmt := ⟨3, 2, 3, 0⟩
def FloatFmt.e2m1 : FloatFmt := ⟨2, 1, 1, 0⟩

/-- Magnitude code of the largest finite value (Table 04-1, Table 04-2). -/
def FloatFmt.maxCode (f : FloatFmt) : Nat :=
  if f.spec = 2 then (2 ^ f.ebits - 1) * 2 ^ f.mbits - 1
  else if f.spec = 1 then 2 ^ (f.ebits + f.mbits) - 2
  else 2 ^ (f.ebits + f.mbits) - 1

/-- Magnitude code of infinity where the format has one. -/
def FloatFmt.infCode (f : FloatFmt) : Nat := (2 ^ f.ebits - 1) * 2 ^ f.mbits

/-- The NaN the hub produces in the format (R108, Table 04-2), sign 0. -/
def FloatFmt.nanCode (f : FloatFmt) : Nat :=
  if f.spec = 2 then f.infCode + 2 ^ (f.mbits - 1)
  else if f.spec = 1 then 2 ^ (f.ebits + f.mbits) - 1
  else 0

/-- The value of an encoding (R105, R106). -/
def FloatFmt.decode (f : FloatFmt) (c : Nat) : FVal :=
  let neg := c.testBit (f.ebits + f.mbits)
  let mag := c % 2 ^ (f.ebits + f.mbits)
  let ex := mag / 2 ^ f.mbits
  let m := mag % 2 ^ f.mbits
  if f.spec = 2 && ex == 2 ^ f.ebits - 1 then (if m = 0 then .inf neg else .nan)
  else if f.spec = 1 && mag == 2 ^ (f.ebits + f.mbits) - 1 then .nan
  else if ex = 0 then .fin neg m (1 - (f.bias : Int) - f.mbits)
  else .fin neg (2 ^ f.mbits + m) ((ex : Int) - f.bias - f.mbits)

/-- How a magnitude m × 2^e lies against the grid of a format with an unbounded exponent range above the format's
subnormals: the magnitude code of its truncation, and the discarded part as a fraction num ÷ 2^sh of one unit. -/
def FloatFmt.truncate (f : FloatFmt) (m : Nat) (e : Int) : Nat × Nat × Nat :=
  if m = 0 then (0, 0, 0)
  else
    let top : Int := (Nat.log2 m : Int) + e
    let emin : Int := 1 - (f.bias : Int)
    let q : Int := max top emin - f.mbits
    let b : Nat := (q + f.mbits + f.bias - 1).toNat
    if q ≤ e then (b * 2 ^ f.mbits + m <<< (e - q).toNat, 0, 0)
    else
      let sh := (q - e).toNat
      (b * 2 ^ f.mbits + m >>> sh, m % 2 ^ sh, sh)

/-- The magnitude code of m × 2^e rounded to nearest, ties to the even mantissa (R121), unbounded above. -/
def FloatFmt.nearest (f : FloatFmt) (m : Nat) (e : Int) : Nat :=
  let (c, num, sh) := f.truncate m e
  if sh = 0 then c
  else if 2 * num > 2 ^ sh ∨ (2 * num = 2 ^ sh ∧ c % 2 = 1) then c + 1
  else c

/-- The sign bit of the format at its place. -/
def FloatFmt.signBit (f : FloatFmt) (neg : Bool) : Nat := if neg then 2 ^ (f.ebits + f.mbits) else 0

/-- A value rounded to nearest even into a format that has infinities (R115, R125): overflow gives an infinity. -/
def FloatFmt.round (f : FloatFmt) : FVal → Nat
  | .nan => f.nanCode
  | .inf neg => f.signBit neg + f.infCode
  | .fin neg m e =>
    let c := f.nearest m e
    f.signBit neg + (if c > f.maxCode then f.infCode else c)

/-- Negation of a value. -/
def FVal.neg : FVal → FVal
  | .nan => .nan
  | .inf n => .inf (!n)
  | .fin n m e => .fin (!n) m e

/-- Whether a value is a zero. -/
def FVal.isZero : FVal → Bool
  | .fin _ m _ => m == 0
  | _ => false

/-- Whether a value is NaN. -/
def FVal.isNan : FVal → Bool
  | .nan => true
  | _ => false

/-- The signed integer of a finite magnitude, scaled to the exponent e0 at or below its own. -/
def FVal.scaled (neg : Bool) (m : Nat) (e e0 : Int) : Int :=
  let v : Int := (m <<< (e - e0).toNat : Nat)
  if neg then -v else v

/-- The exact sum of two values; an exact zero sum of unlike signs is +0, as round to nearest even gives. -/
def FVal.add : FVal → FVal → FVal
  | .nan, _ => .nan
  | _, .nan => .nan
  | .inf a, .inf b => if a = b then .inf a else .nan
  | .inf a, .fin .. => .inf a
  | .fin .., .inf b => .inf b
  | .fin n1 m1 e1, .fin n2 m2 e2 =>
    let e0 := min e1 e2
    let v := FVal.scaled n1 m1 e1 e0 + FVal.scaled n2 m2 e2 e0
    if v = 0 then .fin (n1 && n2) 0 0
    else .fin (decide (v < 0)) v.natAbs e0

/-- The exact product of two values. -/
def FVal.mul : FVal → FVal → FVal
  | .nan, _ => .nan
  | _, .nan => .nan
  | .inf a, .inf b => .inf (a != b)
  | .inf a, .fin n m _ => if m = 0 then .nan else .inf (a != n)
  | .fin n m _, .inf b => if m = 0 then .nan else .inf (n != b)
  | .fin n1 m1 e1, .fin n2 m2 e2 => .fin (n1 != n2) (m1 * m2) (e1 + e2)

/-- The order of two values that are no NaN; the two zeros are equal. -/
def FVal.lt : FVal → FVal → Bool
  | .nan, _ => false
  | _, .nan => false
  | .inf a, .inf b => a && !b
  | .inf a, .fin .. => a
  | .fin .., .inf b => !b
  | .fin n1 m1 e1, .fin n2 m2 e2 =>
    let e0 := min e1 e2
    decide (FVal.scaled n1 m1 e1 e0 < FVal.scaled n2 m2 e2 e0)

/-- Equality of two values that are no NaN. -/
def FVal.feq (x y : FVal) : Bool := !x.isNan && !y.isNan && !x.lt y && !y.lt x

/-- The sign of a value. -/
def FVal.sign : FVal → Bool
  | .nan => false
  | .inf n => n
  | .fin n _ _ => n

/-! ### FP32 operations (R107 to R109, R116) -/

def f32 (w : W32) : FVal := FloatFmt.fp32.decode w.toNat
def f32Round (v : FVal) : W32 := BitVec.ofNat 32 (FloatFmt.fp32.round v)
def f32Nan : W32 := 0x7FC00000#32

def f32Add (x y : W32) : W32 := f32Round ((f32 x).add (f32 y))
def f32Sub (x y : W32) : W32 := f32Round ((f32 x).add (f32 y).neg)
def f32Mul (x y : W32) : W32 := f32Round ((f32 x).mul (f32 y))
/-- d + a × b with one rounding (Table 03-5). -/
def f32Fma (d x y : W32) : W32 := f32Round ((f32 d).add ((f32 x).mul (f32 y)))

/-- IEEE 754-2019 minimumNumber: a number before a NaN, and −0 below +0. -/
def f32Min (x y : W32) : W32 :=
  let a := f32 x; let b := f32 y
  if a.isNan then (if b.isNan then f32Nan else y)
  else if b.isNan then x
  else if a.lt b then x else if b.lt a then y
  else if a.sign then x else y

/-- IEEE 754-2019 maximumNumber. -/
def f32Max (x y : W32) : W32 :=
  let a := f32 x; let b := f32 y
  if a.isNan then (if b.isNan then f32Nan else y)
  else if b.isNan then x
  else if a.lt b then y else if b.lt a then x
  else if a.sign then y else x

/-- The integer nearest to a magnitude m × 2^e, ties to even. -/
def nearestInt (m : Nat) (e : Int) : Nat :=
  if 0 ≤ e then m <<< e.toNat
  else
    let sh := (-e).toNat
    let q := m >>> sh
    let r := m % 2 ^ sh
    if 2 * r > 2 ^ sh ∨ (2 * r = 2 ^ sh ∧ q % 2 = 1) then q + 1 else q

/-- fcvt.i: INT32 by rounding to nearest even, saturating; NaN gives 0. -/
def f32ToInt (x : W32) : W32 :=
  match f32 x with
  | .nan => 0
  | .inf neg => if neg then 0x80000000#32 else 0x7FFFFFFF#32
  | .fin neg m e =>
    let n := nearestInt m e
    if neg then (if n > 2 ^ 31 then 0x80000000#32 else BitVec.ofInt 32 (-(n : Int)))
    else (if n ≥ 2 ^ 31 then 0x7FFFFFFF#32 else BitVec.ofNat 32 n)

/-- fcvt.f: INT32 as FP32. -/
def intToF32 (x : W32) : W32 := f32Round (.fin (decide (x.toInt < 0)) x.toInt.natAbs 0)

def f32Abs (x : W32) : W32 := x &&& 0x7FFFFFFF#32
def f32Neg (x : W32) : W32 := x ^^^ 0x80000000#32

/-- The comparisons of cmp on FP32 operands: feq, flt, fle and fun. -/
def f32Eq (x y : W32) : Bool := (f32 x).feq (f32 y)
def f32Lt (x y : W32) : Bool := (f32 x).lt (f32 y)
def f32Le (x y : W32) : Bool := f32Eq x y || f32Lt x y
def f32Un (x y : W32) : Bool := (f32 x).isNan || (f32 y).isNan

/-- FP16 to FP32, exact (Table 04-4). -/
def f16ToF32 (h : Nat) : W32 := f32Round (FloatFmt.fp16.decode h)
/-- FP32 to FP16, rounding to nearest even; overflow gives an infinity and NaN gives 0x7E00 (Table 04-4). -/
def f32ToF16 (x : W32) : Nat := FloatFmt.fp16.round (f32 x)

/-! ### Approximations with a bound (R116, R607)

`ub num den` compares exactly; a candidate that the configuration supplies stands where it lies within the bound of
2^-22 of the exact result, and the largest FP32 value at or below the exact result stands in its place otherwise. -/

/-- The magnitude of a finite FP32 code as m and e. -/
def f32Mag (c : Nat) : Nat × Int :=
  match FloatFmt.fp32.decode c with
  | .fin _ m e => (m, e)
  | _ => (0, 0)

/-- The largest code below 2^k extending `acc` whose value satisfies a downward closed test, bit by bit. -/
def searchDown (ok : Nat → Bool) : Nat → Nat → Nat
  | 0, acc => acc
  | k + 1, acc => searchDown ok k (if ok (acc + 2 ^ k) then acc + 2 ^ k else acc)

/-- The largest finite FP32 magnitude code that satisfies a downward closed test. -/
def f32Below (ok : Nat → Bool) : Nat := searchDown (fun c => decide (c ≤ FloatFmt.fp32.maxCode) && ok c) 31 0

/-- A magnitude code or the one after it: which of the two is free.
(DESIGN CHOICE: log entry 16.) -/
def f32Between (lo : Nat) (cand : W32) : W32 := BitVec.ofNat 32 (lo + cand.toNat % 2)

/-- The candidate where its relative error is within the bound, else a neighbour of the exact result that is. Among subnormal numbers the exact
result may have no number within the bound: then one of its two neighbours, which is free.
(DESIGN CHOICE: log entry 16.) -/
def f32Approx (within below : Nat → Bool) (cand : W32) : W32 :=
  let lo := f32Below below
  if cand.toNat ≤ FloatFmt.fp32.maxCode && within cand.toNat then cand
  else if within lo then BitVec.ofNat 32 lo
  else if within (lo + 1) then BitVec.ofNat 32 (lo + 1)
  else f32Between lo cand

/-- x × 2^e ≤ y × 2^f for magnitudes. -/
def magLe (x : Nat) (e : Int) (y : Nat) (f : Int) : Bool :=
  let e0 := min e f
  decide (x <<< (e - e0).toNat ≤ y <<< (f - e0).toNat)

/-- |r − x| ≤ x × 2^-22 where r and x are given up to a common positive factor: 2^22 r within (2^22 ± 1) x. -/
def withinRel (r : Nat) (er : Int) (x : Nat) (ex : Int) : Bool :=
  magLe (r * 2 ^ 22) er (x * (2 ^ 22 + 1)) ex && magLe (x * (2 ^ 22 - 1)) ex (r * 2 ^ 22) er

/-- Reciprocal of a positive magnitude m × 2^e: the candidate of the configuration bounded to 2^-22. -/
def f32RcpMag (cand : W32) (m : Nat) (e : Int) : W32 :=
  -- exact result 1 / (m 2^e)
  let le (c : Nat) : Bool := let (r, er) := f32Mag c; magLe (r * m) (er + e) 1 0
  let within (c : Nat) : Bool := let (r, er) := f32Mag c; withinRel (r * m) (er + e) 1 0
  f32Approx within le cand

/-- frcp: special values as IEEE 754 division of 1 gives them. A result above the largest finite value is infinity.
(DESIGN CHOICE: log entry 16.) -/
def f32Rcp (cand : W32) (x : W32) : W32 :=
  match f32 x with
  | .nan => f32Nan
  | .inf n => BitVec.ofNat 32 (FloatFmt.fp32.signBit n)
  | .fin n m e =>
    let sg := BitVec.ofNat 32 (FloatFmt.fp32.signBit n)
    if m = 0 then sg ||| 0x7F800000#32
    else if magLe m e 1 (-128) then sg ||| 0x7F800000#32
    else sg ||| (f32RcpMag (cand &&& 0x7FFFFFFF#32) m e)

/-- frsq: the reciprocal square root; of −0 it is −infinity and of any other negative number NaN (IEEE 754 rSqrt).
(DESIGN CHOICE: log entry 16.) -/
def f32Rsq (cand : W32) (x : W32) : W32 :=
  match f32 x with
  | .nan => f32Nan
  | .inf n => if n then f32Nan else 0
  | .fin n m e =>
    if m = 0 then BitVec.ofNat 32 (FloatFmt.fp32.signBit n) ||| 0x7F800000#32
    else if n then f32Nan
    else
      let le (c : Nat) : Bool := let (r, er) := f32Mag c; magLe (r * r * m) (2 * er + e) 1 0
      let within (c : Nat) : Bool :=
        let (r, er) := f32Mag c
        -- (r / x)^2 within (1 ± 2^-22)^2
        magLe (r * r * m * 2 ^ 44) (2 * er + e) ((2 ^ 22 + 1) ^ 2) 0 &&
        magLe ((2 ^ 22 - 1) ^ 2) 0 (r * r * m * 2 ^ 44) (2 * er + e)
      f32Approx within le cand

/-- fexp2: 2 to a finite power; one below 2^-150 lies between 0 and the least subnormal. The power k × 2^-j is compared through 2^j-th powers.
(DESIGN CHOICE: log entry 16.) -/
def f32Exp2Fin (cand : W32) (neg : Bool) (m : Nat) (e : Int) : W32 :=
  let j : Nat := (-e).toNat
  let k : Nat := m <<< e.toNat
  let kz : Int := if neg then -(k : Int) else k
  -- r ≤ 2^(kz / 2^j)  iff  r^(2^j) ≤ 2^kz
  let le (c : Nat) : Bool := let (r, er) := f32Mag c; magLe (r ^ 2 ^ j) (er * (2 ^ j : Nat)) 1 kz
  let within (c : Nat) : Bool :=
    let (r, er) := f32Mag c
    magLe ((r * 2 ^ 22) ^ 2 ^ j) (er * (2 ^ j : Nat)) ((2 ^ 22 + 1) ^ 2 ^ j) kz &&
    magLe ((2 ^ 22 - 1) ^ 2 ^ j) kz ((r * 2 ^ 22) ^ 2 ^ j) (er * (2 ^ j : Nat))
  if !neg && magLe 128 0 m e then 0x7F800000#32
  else if neg && !magLe m e 150 0 then f32Between 0 cand
  else f32Approx within le cand

/-- DESIGN CHOICE: log entry 16. -/
def f32Exp2 (cand : W32) (x : W32) : W32 :=
  match f32 x with
  | .nan => f32Nan
  | .inf n => if n then 0 else 0x7F800000#32
  | .fin n m e => f32Exp2Fin cand n m e

/-- The first n terms of the series of e^y for y = p ÷ q, over the common denominator q^n × n!. -/
def expSeries (p q : Nat) : Nat → Nat × Nat
  | 0 => (1, 1)
  | n + 1 =>
    let (s, d) := expSeries p q n
    (s * (q * (n + 1)) + p ^ (n + 1), d * (q * (n + 1)))

/-- The exponential of a finite value that is not positive, as gnorm forms it (R607): within 2^-22 of the exact value, compared through 600 terms of the series of e^y with y the magnitude.
(DESIGN CHOICE: log entry 16.) -/
def f32ExpNeg (cand : W32) (m : Nat) (e : Int) : W32 :=
  let p : Nat := m <<< e.toNat
  let q : Nat := 2 ^ (-e).toNat
  if m = 0 then 0x3F800000#32
  else if !magLe m e 104 0 then f32Between 0 cand
  else
    let (s, d) := expSeries p q 600
    -- the exact result is d / s
    let le (c : Nat) : Bool := let (r, er) := f32Mag c; magLe (r * s) er d 0
    let within (c : Nat) : Bool := let (r, er) := f32Mag c; withinRel (r * s) er d 0
    f32Approx within le cand

/-- A quotient of two FP32 values within 2^-22 (R607); special values as IEEE 754 division gives them.
(DESIGN CHOICE: log entry 16.) -/
def f32Div (cand : W32) (x y : W32) : W32 :=
  match f32 x, f32 y with
  | .nan, _ => f32Nan
  | _, .nan => f32Nan
  | .inf _, .inf _ => f32Nan
  | .inf a, .fin n _ _ => BitVec.ofNat 32 (FloatFmt.fp32.signBit (a != n)) ||| 0x7F800000#32
  | .fin n _ _, .inf a => BitVec.ofNat 32 (FloatFmt.fp32.signBit (a != n))
  | .fin n1 m1 e1, .fin n2 m2 e2 =>
    let sg := BitVec.ofNat 32 (FloatFmt.fp32.signBit (n1 != n2))
    if m2 = 0 then (if m1 = 0 then f32Nan else sg ||| 0x7F800000#32)
    else if m1 = 0 then sg
    else
      let le (c : Nat) : Bool := let (r, er) := f32Mag c; magLe (r * m2) (er + e2) m1 e1
      let within (c : Nat) : Bool := let (r, er) := f32Mag c; withinRel (r * m2) (er + e2) m1 e1
      if magLe m2 (e2 + 128) m1 e1 then sg ||| 0x7F800000#32
      else sg ||| f32Approx within le (cand &&& 0x7FFFFFFF#32)

end Sys2Proof
end

