-- ==== Sys2Proof/Machine/Flags.lean ====
section
/-! DEFINITION. Vector registers: element formats, the elements of a register, its zero flags (R78, R130), and the
conversions that write one element (R119 to R129). -/

namespace Sys2Proof

/-- The format a code names; 0xA to 0xF name none (Table 03-2). -/
def ElemFmt.ofCode? : Nat → Option ElemFmt
  | 0 => some .none | 1 => some .e4m3 | 2 => some .e5m2 | 3 => some .e2m3 | 4 => some .e3m2
  | 5 => some .e2m1 | 6 => some .int8 | 7 => some .int4 | 8 => some .bf16 | 9 => some .fp32
  | _ => Option.none

/-- The code of a format (Table 03-2). -/
def ElemFmt.code : ElemFmt → Nat
  | .none => 0 | .e4m3 => 1 | .e5m2 => 2 | .e2m3 => 3 | .e3m2 => 4
  | .e2m1 => 5 | .int8 => 6 | .int4 => 7 | .bf16 => 8 | .fp32 => 9

/-- Elements per vector register (Table 03-2). -/
def ElemFmt.count : ElemFmt → Nat
  | .none => 0 | .e4m3 => 64 | .e5m2 => 64 | .e2m3 => 64 | .e3m2 => 64
  | .e2m1 => 128 | .int8 => 64 | .int4 => 128 | .bf16 => 32 | .fp32 => 16

/-- Bits of storage of one element in a register. -/
def ElemFmt.slot : ElemFmt → Nat
  | .none => 0 | .e2m1 => 4 | .int4 => 4 | .bf16 => 16 | .fp32 => 32 | _ => 8

/-- Bits of one element itself: six for FP6 (R109). -/
def ElemFmt.width : ElemFmt → Nat
  | .e2m3 => 6 | .e3m2 => 6 | f => f.slot

def ElemFmt.isInt : ElemFmt → Bool
  | .int8 => true | .int4 => true | _ => false

def ElemFmt.isFp6 : ElemFmt → Bool
  | .e2m3 => true | .e3m2 => true | _ => false

def ElemFmt.isFp86 : ElemFmt → Bool
  | .e4m3 => true | .e5m2 => true | .e2m3 => true | .e3m2 => true | _ => false

/-- Formats with a CSB form (R134). -/
def ElemFmt.hasCsb : ElemFmt → Bool
  | .none => false | .bf16 => false | .fp32 => false | _ => true

/-- The floating-point format behind an element format. -/
def ElemFmt.float? : ElemFmt → Option FloatFmt
  | .e4m3 => some .e4m3 | .e5m2 => some .e5m2 | .e2m3 => some .e2m3 | .e3m2 => some .e3m2
  | .e2m1 => some .e2m1 | .bf16 => some .bf16 | .fp32 => some .fp32 | _ => Option.none

/-- The encoding of element i of 64 bytes read in a format; bits [7:6] of an FP6 byte are ignored. -/
def elem (f : ElemFmt) (d : VData) (i : Nat) : Nat := (d.toNat >>> (f.slot * i)) % 2 ^ f.width

/-- The 64 bytes with element i written. -/
def putElem (f : ElemFmt) (d : VData) (i x : Nat) : VData :=
  BitVec.ofNat 512 (putFld d.toNat (f.slot * i + f.slot - 1) (f.slot * i) (x % 2 ^ f.width))

/-- Whether an encoding is a zero of its format (Table 04-5). -/
def ElemFmt.isZeroCode (f : ElemFmt) (c : Nat) : Bool :=
  match f with
  | .none => false
  | .int8 => c == 0
  | .int4 => c == 0
  | g => c % 2 ^ (g.width - 1) == 0

/-- The zero flags of 64 bytes read in a format (R130). -/
def zeroFlags (f : ElemFmt) (d : VData) : BitVec 128 :=
  BitVec.ofNat 128 ((upTo f.count).foldl (fun acc i => if f.isZeroCode (elem f d i) then acc + 2 ^ i else acc) 0)

/-- A register written with 64 bytes in a format: tag and flags follow (R78). -/
def VReg.write (f : ElemFmt) (d : VData) : VReg := ⟨f, d, zeroFlags f d⟩

/-- A register as it stands at launch (Table 02-2). -/
def VReg.zero : VReg := ⟨.none, 0, 0⟩

/-- The zero flags an instruction reads: the register's own in the tag's format, else recomputed (R79). -/
def VReg.flagsIn (v : VReg) (f : ElemFmt) : BitVec 128 := if v.tag = f then v.zf else zeroFlags f v.data

/-- 32-bit word n of 64 bytes. -/
def vword (d : VData) (n : Nat) : W32 := BitVec.ofNat 32 (d.toNat >>> (32 * n))
def putVword (d : VData) (n : Nat) (w : W32) : VData :=
  BitVec.ofNat 512 (putFld d.toNat (32 * n + 31) (32 * n) w.toNat)

/-- Sixteen words as 64 bytes. -/
def vdataOfWords (f : Nat → W32) : VData :=
  BitVec.ofNat 512 ((upTo 16).foldl (fun acc i => acc + (f i).toNat <<< (32 * i)) 0)

/-- The value of a floating-point or integer element. -/
def elemVal (f : ElemFmt) (c : Nat) : FVal :=
  match f.float? with
  | some g => g.decode c
  | Option.none => let v := sextNat f.width c; .fin (decide (v < 0)) v.natAbs 0

/-! ### The stochastic rounding generator (R126, R129) -/

/-- The state after a draw; a generator that holds zero is first set to 1. -/
def genAdvance (g : W32) : W32 :=
  let g := if g = 0 then 1#32 else g
  let g := g ^^^ (g <<< 13)
  let g := g ^^^ (g >>> 17)
  g ^^^ (g <<< 5)

/-- The value a draw returns: bits [22:0] of the new state. -/
def genDraw (g : W32) : Nat := g.toNat % 2 ^ 23

/-- The generator at launch (R128). -/
def genSeed (seed : W32) (rank : Nat) : W32 :=
  let g := BitVec.ofNat 32 (seed.toNat + rank * 0x9E3779B9)
  if g = 0 then 1#32 else g

/-! ### acvt: one element (Table 04-3, R120 to R124) -/

/-- The magnitude code of a finite source in a target, rounded to nearest even or, with a draw, stochastically. -/
def roundMag (g : FloatFmt) (m : Nat) (e : Int) (draw : Option Nat) : Nat :=
  match draw with
  | Option.none => g.nearest m e
  | some u =>
    let (c, num, sh) := g.truncate m e
    if num * 2 ^ 23 / 2 ^ sh > u then c + 1 else c

/-- One FP32 accumulator converted into a float format. -/
def cvtFloat (f : ElemFmt) (g : FloatFmt) (sat : Bool) (draw : Option Nat) (x : W32) : Nat :=
  let ovf (neg : Bool) : Nat :=
    if g.spec = 0 || sat then g.signBit neg + g.maxCode
    else if f = .e4m3 then g.nanCode
    else g.signBit neg + g.infCode
  match f32 x with
  | .nan => g.nanCode
  | .inf neg => ovf neg
  | .fin neg m e =>
    let c := roundMag g m e draw
    if c > g.maxCode then ovf neg else g.signBit neg + c

/-- One INT32 accumulator converted to INT8 or INT4: an arithmetic right shift, then a clamp (R124). -/
def cvtInt (f : ElemFmt) (shift : Nat) (x : W32) : Nat :=
  let v : Int := x.toInt >>> shift
  let hi : Int := 2 ^ (f.width - 1) - 1
  wrap f.width (max (-hi - 1) (min hi v))

/-- One accumulator converted by acvt. -/
def cvtElem (f : ElemFmt) (sat : Bool) (shift : Nat) (draw : Option Nat) (x : W32) : Nat :=
  match f.float? with
  | some g => cvtFloat f g sat draw x
  | Option.none => cvtInt f shift x

/-- The generator states of n successive draws, in order. -/
def genRun (g : W32) : Nat → List W32
  | 0 => []
  | n + 1 => let g' := genAdvance g; g' :: genRun g' n

end Sys2Proof
end

