-- ==== Sys2Proof/Config.lean ====
section
/-! DEFINITION. What one part or one run fixes and the spec leaves open: free values without a body, and the fused
contents of a part. -/

namespace Sys2Proof

/-- The byte at an address whose content epoch is not 0: memory that lost its contents (R290, R590, R594).
(DESIGN CHOICE: log entry 7.) -/
opaque Config.freeByte (epoch addr : Nat) : Byte
/-- A free number, fresh for each value of the counter that State holds.
(DESIGN CHOICE: log entry 5.) -/
opaque Config.freeNat (n : Nat) : Nat
/-- The approximations of R116 and R607, a function of the operand alone.
(DESIGN CHOICE: log entry 16.) -/
opaque Config.frcp (x : W32) : W32
/-- DESIGN CHOICE: log entry 16. -/
opaque Config.frsq (x : W32) : W32
/-- DESIGN CHOICE: log entry 16. -/
opaque Config.fexp2 (x : W32) : W32
/-- DESIGN CHOICE: log entry 16. -/
opaque Config.gnormExp (x : W32) : W32
/-- DESIGN CHOICE: log entry 16. -/
opaque Config.gnormDiv (x y : W32) : W32
/-- SHA-384 of a message, as a number of 384 bits.
(DESIGN CHOICE: log entry 74.) -/
opaque Config.sha384 (m : List Nat) : Nat
/-- Whether a pair of signatures verifies over a digest under a key.
(DESIGN CHOICE: log entry 74.) -/
opaque Config.verify (key digest sig : Nat) : Bool
/-- A signature made by the hub with a named key over a digest.
(DESIGN CHOICE: log entry 74.) -/
opaque Config.sign (key digest : Nat) : Nat
/-- The plaintext and the tag check of authenticated decryption under a key.
(DESIGN CHOICE: log entry 74.) -/
opaque Config.decrypt (key iv : Nat) (c : Nat) : Nat
/-- DESIGN CHOICE: log entry 74. -/
opaque Config.tagOk (key iv : Nat) (c tag : Nat) : Bool
/-- A key derived from another by a label.
(DESIGN CHOICE: log entry 74.) -/
opaque Config.derive (key label : Nat) : Nat
/-- The repair map of the fuses: the spare columns in use of a physical township (R225).
(DESIGN CHOICE: log entry 11.) -/
opaque Config.fuseRepairs (ship : Nat) : List (ArrayId × Nat)
/-- What the part's certificates hold from outside: 0 and 1 the key and signature of Skasol's root, 2 the root's signature on the identity
certificate issued at MAKER, 3 and 4 the signer and the pair of that certificate's extension (R494).
(DESIGN CHOICE: log entry 11.) -/
opaque Config.cert (n : Nat) : Nat
/-- Where the records of contexts, queues and groups lie in their region of the reserved range, in units of 64 bytes (R611).
(DESIGN CHOICE: log entry 101.) -/
opaque Config.recordPlace (n : Nat) : Nat
/-- The firmware images that the part brings, by slot and component (R584).
(DESIGN CHOICE: log entry 11.) -/
opaque Config.image (slot comp : Nat) : List Byte
/-- The fused contents of the part: words of its fuse map by number.
(DESIGN CHOICE: log entry 11.) -/
opaque Config.fuse (word : Nat) : Nat

end Sys2Proof
end

