-- ==== Sys2Proof/Machine/Table.lean ====
section
/-! DEFINITION. Sparse data by number: a list of key and value pairs with strictly rising keys. -/

namespace Sys2Proof

/-- A table keyed by numbers. -/
abbrev Tbl (α : Type) := List (Nat × α)

/-- The entry of a key. -/
def Tbl.get? {α : Type} : Tbl α → Nat → Option α
  | [], _ => none
  | e :: r, k => if e.1 = k then some e.2 else Tbl.get? r k

/-- The entry of a key, or d where the table has none. -/
def Tbl.getD {α : Type} (t : Tbl α) (k : Nat) (d : α) : α := (t.get? k).getD d

/-- The table with the entry of a key written: keys below it stay before it, and the rest of the table, without an old entry of it, after it. -/
def Tbl.set {α : Type} : Tbl α → Nat → α → Tbl α
  | [], k, v => [(k, v)]
  | e :: r, k, v => if e.1 < k then e :: Tbl.set r k v else (k, v) :: (if e.1 = k then r else e :: r)

/-- The table without the entry of a key. -/
def Tbl.erase {α : Type} (t : Tbl α) (k : Nat) : Tbl α := t.filter (fun e => decide (e.1 ≠ k))

/-- The entry of a key changed by f where there is one. -/
def Tbl.modify {α : Type} (t : Tbl α) (k : Nat) (f : α → α) : Tbl α :=
  match t.get? k with
  | some v => t.set k (f v)
  | none => t

/-- Every entry changed by f. -/
def Tbl.mapV {α : Type} (t : Tbl α) (f : Nat → α → α) : Tbl α := t.map (fun e => (e.1, f e.1 e.2))

/-- The entries that satisfy p. -/
def Tbl.keep {α : Type} (t : Tbl α) (p : Nat → α → Bool) : Tbl α := t.filter (fun e => p e.1 e.2)

/-- Whether a key has an entry. -/
def Tbl.has {α : Type} (t : Tbl α) (k : Nat) : Bool := (t.get? k).isSome

/-- The keys, ascending. -/
def Tbl.keys {α : Type} (t : Tbl α) : List Nat := t.map Prod.fst

/-- The least number below n that is no key, or n where every one is: as many numbers as the table has entries, and one more, hold
one that is free. -/
def Tbl.freeKey {α : Type} (t : Tbl α) (n : Nat) : Nat :=
  ((upTo (min n (t.length + 1))).find? (fun k => !t.has k)).getD n

/-- The least number from lo to hi - 1 that is no key, found in the same way. -/
def Tbl.freeFrom? {α : Type} (t : Tbl α) (lo hi : Nat) : Option Nat :=
  (upTo (min (hi - lo) (t.length + 1))).map (· + lo) |>.find? (fun k => !t.has k)

/-- One more than the largest key, 0 for an empty table. -/
def Tbl.nextKey {α : Type} (t : Tbl α) : Nat := t.foldl (fun m e => max m (e.1 + 1)) 0

/-- The keys rise strictly from a bound. -/
def Tbl.sortedFrom {α : Type} : Nat → Tbl α → Bool
  | _, [] => true
  | lo, e :: r => decide (lo ≤ e.1) && Tbl.sortedFrom (e.1 + 1) r

/-- The canonical form of a table. -/
def Tbl.wf {α : Type} (t : Tbl α) : Bool := Tbl.sortedFrom 0 t

end Sys2Proof
end

