-- ==== Sys2Proof/Machine/Memory.lean ====
section
/-! DEFINITION. Byte memory in canonical form: the stacked memory by device physical address and the section scratchpads
by section and local address. -/

namespace Sys2Proof

/-- Memory: listed bytes with strictly rising addresses, and the content epochs of its 1 GiB granules. Epoch 0 is all
zeros; the content of any later epoch is not known.
(DESIGN CHOICE: log entry 7.) -/
structure Memory where
  cells  : List Host.Cell
  base   : Nat
  epochs : Tbl Nat
  deriving DecidableEq, Repr

/-- Memory with nothing listed, every byte 0. -/
def Memory.empty : Memory := ⟨[], 0, []⟩

/-- The content epoch of the granule of an address. -/
def Memory.epochAt (m : Memory) (a : Nat) : Nat := m.epochs.getD (a / 2 ^ 30) m.base

/-- What an unlisted address reads as: 0 in epoch 0, and a value the configuration leaves open in any other epoch. -/
def Memory.background (m : Memory) (a : Nat) : Byte :=
  if m.epochAt a = 0 then 0 else Config.freeByte (m.epochAt a) a

/-- One byte. -/
def Memory.read (m : Memory) (a : Nat) : Byte := (Tbl.get? m.cells a).getD (m.background a)

/-- One byte written; a byte equal to what the unlisted address reads as is not listed. -/
def Memory.write (m : Memory) (a : Nat) (b : Byte) : Memory :=
  if b = m.background a then { m with cells := Tbl.erase m.cells a } else { m with cells := Tbl.set m.cells a b }

/-- n bytes from an address, as a little-endian number (R6). -/
def Memory.readN (m : Memory) (a : Nat) : Nat → Nat
  | 0 => 0
  | n + 1 => (m.read a).toNat + 256 * Memory.readN m (a + 1) n

/-- Bytes written from an address upward. -/
def Memory.writeBytes (m : Memory) (a : Nat) : List Byte → Memory
  | [] => m
  | b :: bs => Memory.writeBytes (m.write a b) (a + 1) bs

/-- The n low bytes of a number written at an address (R6). -/
def Memory.writeN (m : Memory) (a n v : Nat) : Memory := m.writeBytes a (bytesOf n v)

/-- A 1 GiB granule with the contents of an epoch and nothing listed; the epoch of the whole memory is not listed. -/
def Memory.setEpoch (m : Memory) (g e : Nat) : Memory :=
  { m with
    cells := m.cells.filter (fun c => decide (c.1 / 2 ^ 30 ≠ g))
    epochs := if e = m.base then m.epochs.erase g else m.epochs.set g e }

/-- A 1 GiB granule written with zeros (R461). -/
def Memory.zeroGranule (m : Memory) (g : Nat) : Memory := m.setEpoch g 0

/-- Every byte of a range below a bound dropped to what an unlisted address reads as. -/
def Memory.dropRange (m : Memory) (lo hi : Nat) : Memory :=
  { m with cells := m.cells.filter (fun c => !(decide (lo ≤ c.1) && decide (c.1 < hi))) }

/-- All contents lost: a fresh epoch everywhere. -/
def Memory.lose (_m : Memory) (epoch : Nat) : Memory := ⟨[], epoch, []⟩

/-- The canonical form: addresses strictly rise, and no listed byte equals what the unlisted address reads as. -/
def Memory.wf (m : Memory) : Bool := Tbl.wf m.cells && m.cells.all (fun c => decide (c.2 ≠ m.background c.1))

end Sys2Proof
end

