-- ==== Sys2Proof/Machine/RegMap.lean ====
section
/-! DEFINITION. The block registers: their offsets in BAR0, reset kinds, reset values and access codes, row by row from
the register tables of the chapters (R9, Table 00-3, Table 00-4). -/

namespace Sys2Proof

/-- The block registers, one name for each title line of the chapters. -/
inductive RegName where
  | dspCaps | dspErouteSel | dspErouteEntry | dspErouteCommit | dspPredCtrl | dspStatus | dspCnt 
  | cadCaps | cadSeqSel | cadSeqView | cadPCtrl | cadPPool | cadPFrames | cadPEntries | cadPSeqs 
  | cadPCommit | cadPStatus | cadCnt | rasArrStat | rasArrConflict | cohCaps | cohAge | cohAtomCtrl 
  | cohCnt | cohSliceStat | nocCaps | nocBearSel | nocBearEntry | nocBearCommit | nocCoord | nocCnt 
  | memCaps | memCap | memCmapSel | memCmapEntry | memCmapCommit | memRetrainCtrl | memRetrainStat 
  | memStack | memCh | memCnt | siteCaps | siteCfg | siteCfgCommit | siteModMap | siteModStat 
  | siteStat | siteCtrl | siteCnt | glbId | glbFw | glbStatus | glbLink | glbBar4Base | glbVfCfg 
  | glbVfWin | glbVfCommit | glbDirtyCtrl | glbDirtyBase | glbDirtyMapA | glbDirtyMapB | cmdCaps 
  | cmdFqRing | cmdFqReply | cmdFqEvent | cmdFqCommit | cmdSel | cmdQueueView | cmdCtxView | cmdSchedP 
  | cmdSave | cmdSaveBase | cmdWpoolCfg | cmdWpoolCommit | cmdWpoolStat | prcCaps | prcStatus 
  | prcPStat | prcPTship | prcGran | prcPlatSel | prcPlatEntry | prcPlatCommit | prcEase | shrCaps 
  | shrGlobal | shrMissStatus | shrMissMask | shrSite | shrMCfg | shrMSlack | shrPFlags | shrPCommit 
  | shrMApplied | shrMCnt | secCaps | secStatus | secSvn | secGateCnt | secKeySel | secKeyView0 
  | secKeyView1 | lcsCaps | lcsStatus | lcsFuse | lcsNonceCtrl | lcsNonce | lcsIdentity | lcsOwner 
  | lcsErase | glbBootStat | glbCapacity | glbYield | glbBootCtrl | pwrCaps | pwrCapCfg | pwrCapCommit 
  | pwrStatus | pwrPTarget | pwrT | pwrContour | pwrThermCfg | pwrEvent | pwrTrip | pwrTrvCfg 
  | pwrTrvStat | rasCaps | rasStatus | rasLogSel | rasLogView | rasPoisonStat | rasPoisonSel 
  | rasPoisonView | rasPoisonClear | mgtCaps | mgtI3c | mgtFwuStat | mgtDbgStat | trnCaps | trnCtrl 
  | trnFilter | trnBufBase | trnSnapBase | trnStat 
  deriving DecidableEq, Repr

/-- The reset that returns a register to its reset value (Table 00-3). -/
inductive ResetKind where
  | none | cold | warm | parcel
  deriving DecidableEq, Repr

/-- The party that may write a register: the driver through the PF, the field cores, the datum controller, or any of the three where no table names a writer (R9, R15). -/
inductive RegOwner where
  | pf | fieldCores | datum | any
  deriving DecidableEq, Repr

/-- One register: its name, the offset of its first instance, its index dimensions as (count, stride) with the larger
stride first, its reset kind and value, the masks of its RW, RWS, W1C, W1S, WO and RC fields, whether it is a COMMIT
register, and its writer. -/
structure RegSpec where
  name   : RegName
  base   : Nat
  dims   : List (Nat × Nat)
  kind   : ResetKind
  reset  : Nat
  rw     : Nat
  rws    : Nat
  w1c    : Nat
  w1s    : Nat
  wo     : Nat
  rc     : Nat
  commit : Bool
  owner  : RegOwner
  deriving DecidableEq, Repr

/-- Registers of chapter 05. -/
def regTable05 : List RegSpec := [
  ⟨.dspCaps, 0xE00000, [], .none, 0x400FFF41000, 0x0, 0x0, 0x0, 0x0, 0x0, 0x0, false, .pf⟩,
  ⟨.dspErouteSel, 0xE00010, [], .warm, 0x0, 0xFFF000F, 0x0, 0x0, 0x0, 0x0, 0x0, false, .any⟩,
  ⟨.dspErouteEntry, 0xE00018, [], .warm, 0x0, 0x0, 0xFFFFFFFFFFFFFFFF, 0x0, 0x0, 0x0, 0x0, false, .fieldCores⟩,
  ⟨.dspErouteCommit, 0xE00020, [], .warm, 0x0, 0x0, 0x0, 0x8, 0x3, 0x0, 0x0, true, .fieldCores⟩,
  ⟨.dspPredCtrl, 0xE10000, [(256, 0x800)], .parcel, 0x5, 0x7, 0x0, 0x0, 0x8, 0x0, 0x0, false, .pf⟩,
  ⟨.dspStatus, 0xE10008, [(256, 0x800)], .parcel, 0x0, 0x0, 0x0, 0x0, 0x0, 0x0, 0x0, false, .pf⟩,
  ⟨.dspCnt, 0xE10100, [(256, 0x800), (10, 0x8)], .parcel, 0x0, 0x0, 0x0, 0x0, 0x0, 0x0, 0x0, false, .pf⟩]

/-- Registers of chapter 06. -/
def regTable06 : List RegSpec := [
  ⟨.cadCaps, 0xF00000, [], .none, 0x200400000400000, 0x0, 0x0, 0x0, 0x0, 0x0, 0x0, false, .pf⟩,
  ⟨.cadSeqSel, 0xF00010, [], .warm, 0x0, 0x3FFF, 0x0, 0x0, 0x0, 0x0, 0x0, false, .any⟩,
  ⟨.cadSeqView, 0xF00040, [(8, 0x8)], .warm, 0x0, 0x0, 0x0, 0x0, 0x0, 0x0, 0x0, false, .pf⟩,
  ⟨.cadPCtrl, 0xF01000, [(16, 0x40)], .parcel, 0x2, 0x0, 0x7, 0x0, 0x0, 0x0, 0x0, false, .pf⟩,
  ⟨.cadPPool, 0xF01008, [(16, 0x40)], .parcel, 0x0, 0x0, 0xFFFFFFFFFFFF, 0x0, 0x0, 0x0, 0x0, false, .pf⟩,
  ⟨.cadPFrames, 0xF01010, [(16, 0x40)], .parcel, 0x0, 0x0, 0x1FFFFFF01FFFFFF, 0x0, 0x0, 0x0, 0x0, false, .pf⟩,
  ⟨.cadPEntries, 0xF01018, [(16, 0x40)], .parcel, 0x0, 0x0, 0x7FFFFF003FFFFF, 0x0, 0x0, 0x0, 0x0, false, .pf⟩,
  ⟨.cadPSeqs, 0xF01020, [(16, 0x40)], .parcel, 0x0, 0x0, 0x7FFF00003FFF, 0x0, 0x0, 0x0, 0x0, false, .pf⟩,
  ⟨.cadPCommit, 0xF01028, [(16, 0x40)], .parcel, 0x0, 0x0, 0x0, 0x8, 0x3, 0x0, 0x0, true, .pf⟩,
  ⟨.cadPStatus, 0xF01030, [(16, 0x40)], .parcel, 0x0, 0x0, 0x0, 0x0, 0x0, 0x0, 0x0, false, .pf⟩,
  ⟨.cadCnt, 0xF10000, [(256, 0x800), (6, 0x8)], .parcel, 0x0, 0x0, 0x0, 0x0, 0x0, 0x0, 0x0, false, .pf⟩]

/-- Registers of chapter 07. -/
def regTable07 : List RegSpec := [
  ⟨.rasArrStat, 0x980000, [(256, 0x40)], .warm, 0x0, 0x0, 0x0, 0x0, 0x0, 0x0, 0x0, false, .pf⟩,
  ⟨.rasArrConflict, 0x980008, [(256, 0x40)], .parcel, 0x0, 0x0, 0x0, 0x0, 0x0, 0x0, 0x0, false, .pf⟩]

/-- Registers of chapter 08. -/
def regTable08 : List RegSpec := [
  ⟨.cohCaps, 0x700000, [], .none, 0x20012020000180, 0x0, 0x0, 0x0, 0x0, 0x0, 0x0, false, .pf⟩,
  ⟨.cohAge, 0x700008, [], .warm, 0x1000, 0xFFFF, 0x0, 0x0, 0x0, 0x0, 0x0, false, .fieldCores⟩,
  ⟨.cohAtomCtrl, 0x710000, [(256, 0x40)], .parcel, 0x0, 0x3, 0x0, 0x0, 0x4, 0x0, 0x0, false, .pf⟩,
  ⟨.cohCnt, 0x710008, [(256, 0x40), (6, 0x8)], .parcel, 0x0, 0x0, 0x0, 0x0, 0x0, 0x0, 0x0, false, .pf⟩,
  ⟨.cohSliceStat, 0x720000, [(384, 0x20)], .warm, 0x0, 0x0, 0x0, 0x0, 0x0, 0x0, 0x0, false, .pf⟩]

/-- Registers of chapter 09. -/
def regTable09 : List RegSpec := [
  ⟨.nocCaps, 0x600000, [], .none, 0x48000080A1A, 0x0, 0x0, 0x0, 0x0, 0x0, 0x0, false, .pf⟩,
  ⟨.nocBearSel, 0x600010, [], .warm, 0x0, 0x3FF03FF, 0x0, 0x0, 0x0, 0x0, 0x0, false, .any⟩,
  ⟨.nocBearEntry, 0x600018, [], .warm, 0x0, 0x0, 0xFFFFFFFFFFFFFFFF, 0x0, 0x0, 0x0, 0x0, false, .fieldCores⟩,
  ⟨.nocBearCommit, 0x600020, [], .warm, 0x0, 0x0, 0x0, 0x8, 0x3, 0x0, 0x0, true, .fieldCores⟩,
  ⟨.nocCoord, 0x601000, [(256, 0x8)], .cold, 0x0, 0x0, 0x0, 0x0, 0x0, 0x0, 0x0, false, .pf⟩,
  ⟨.nocCnt, 0x620000, [(256, 0x40), (7, 0x8)], .warm, 0x0, 0x0, 0x0, 0x0, 0x0, 0x0, 0x0, false, .pf⟩]

/-- Registers of chapter 10. -/
def regTable10 : List RegSpec := [
  ⟨.memCaps, 0x400000, [], .none, 0x80000020180000C, 0x0, 0x0, 0x0, 0x0, 0x0, 0x0, false, .pf⟩,
  ⟨.memCap, 0x400008, [], .warm, 0x0, 0x0, 0x0, 0x0, 0x0, 0x0, 0x0, false, .pf⟩,
  ⟨.memCmapSel, 0x400010, [], .warm, 0x0, 0x1FF, 0x0, 0x0, 0x0, 0x0, 0x0, false, .any⟩,
  ⟨.memCmapEntry, 0x400018, [], .warm, 0x1FF, 0x0, 0x1FF, 0x0, 0x0, 0x0, 0x0, false, .datum⟩,
  ⟨.memCmapCommit, 0x400020, [], .warm, 0x0, 0x0, 0x0, 0x8, 0x3, 0x0, 0x0, true, .datum⟩,
  ⟨.memRetrainCtrl, 0x400030, [], .warm, 0x10400A00080203, 0xFFFFFFFFFFFF03, 0x0, 0x0, 0x0, 0x0, 0x0, false, .pf⟩,
  ⟨.memRetrainStat, 0x400038, [], .warm, 0x0, 0x0, 0x0, 0x0, 0x0, 0x0, 0x0, false, .pf⟩,
  ⟨.memStack, 0x401000, [(12, 0x8)], .warm, 0x0, 0x0, 0x0, 0x0, 0x0, 0x0, 0x0, false, .pf⟩,
  ⟨.memCh, 0x410000, [(384, 0x40)], .cold, 0x0, 0x0, 0x0, 0x0, 0x18, 0x0, 0x0, false, .pf⟩,
  ⟨.memCnt, 0x410008, [(384, 0x40), (6, 0x8)], .warm, 0x0, 0x0, 0x0, 0x0, 0x0, 0x0, 0x0, false, .pf⟩]

/-- Registers of chapter 11. -/
def regTable11 : List RegSpec := [
  ⟨.siteCaps, 0x500000, [], .none, 0x12C002000400008, 0x0, 0x0, 0x0, 0x0, 0x0, 0x0, false, .pf⟩,
  ⟨.siteCfg, 0x500100, [(8, 0x8)], .none, 0x1E0000, 0x0, 0x1F7F3F, 0x0, 0x0, 0x0, 0x0, false, .pf⟩,
  ⟨.siteCfgCommit, 0x500140, [], .none, 0x0, 0x0, 0x0, 0x8, 0x3, 0x0, 0x0, true, .pf⟩,
  ⟨.siteModMap, 0x500200, [(2, 0x8)], .warm, 0x0, 0x0, 0x0, 0x0, 0x0, 0x0, 0x0, false, .pf⟩,
  ⟨.siteModStat, 0x500210, [(2, 0x8)], .warm, 0x0, 0x0, 0x0, 0x0, 0x0, 0x0, 0x0, false, .pf⟩,
  ⟨.siteStat, 0x501000, [(8, 0x100)], .warm, 0x0, 0x0, 0x0, 0x0, 0x0, 0x0, 0x0, false, .pf⟩,
  ⟨.siteCtrl, 0x501008, [(8, 0x100)], .warm, 0x0, 0x0, 0x0, 0x0, 0x1, 0x0, 0x0, false, .pf⟩,
  ⟨.siteCnt, 0x501040, [(8, 0x100), (6, 0x8)], .warm, 0x0, 0x0, 0x0, 0x0, 0x0, 0x0, 0x0, false, .pf⟩]

/-- Registers of chapter 13. -/
def regTable13 : List RegSpec := [
  ⟨.glbId, 0x0, [], .none, 0x14001E77, 0x0, 0x0, 0x0, 0x0, 0x0, 0x0, false, .pf⟩,
  ⟨.glbFw, 0x8, [], .warm, 0x0, 0x0, 0x0, 0x0, 0x0, 0x0, 0x0, false, .pf⟩,
  ⟨.glbStatus, 0x10, [], .cold, 0x0, 0x0, 0x0, 0x0, 0x0, 0x0, 0xFFFFFFFF00000000, false, .pf⟩,
  ⟨.glbLink, 0x18, [], .warm, 0x0, 0x0, 0x0, 0x0, 0x0, 0x0, 0x0, false, .pf⟩,
  ⟨.glbBar4Base, 0x20, [], .warm, 0x0, 0x3FF, 0x0, 0x0, 0x0, 0x0, 0x0, false, .any⟩,
  ⟨.glbVfCfg, 0x1000, [(64, 0x10)], .warm, 0x0, 0x0, 0x1F7FFF1FFF001F, 0x0, 0x0, 0x0, 0x0, false, .pf⟩,
  ⟨.glbVfWin, 0x1008, [(64, 0x10)], .warm, 0x0, 0x0, 0x3FFFF, 0x0, 0x0, 0x0, 0x0, false, .pf⟩,
  ⟨.glbVfCommit, 0x1800, [(64, 0x8)], .warm, 0x0, 0x0, 0x0, 0x8, 0x3, 0x0, 0x0, true, .pf⟩,
  ⟨.glbDirtyCtrl, 0x2000, [(64, 0x20)], .warm, 0x0, 0xFFFFFFFF00000001, 0x0, 0x0, 0x2, 0x0, 0x0, false, .any⟩,
  ⟨.glbDirtyBase, 0x2008, [(64, 0x20)], .warm, 0x0, 0xFFFFFFFFFFFFF000, 0x0, 0x0, 0x0, 0x0, 0x0, false, .any⟩,
  ⟨.glbDirtyMapA, 0x2010, [(64, 0x20)], .warm, 0x0, 0xFFFFFFFFFFFFF000, 0x0, 0x0, 0x0, 0x0, 0x0, false, .any⟩,
  ⟨.glbDirtyMapB, 0x2018, [(64, 0x20)], .warm, 0x0, 0xFFFFFFFFFFFFF000, 0x0, 0x0, 0x0, 0x0, 0x0, false, .any⟩]

/-- Registers of chapter 14. -/
def regTable14 : List RegSpec := [
  ⟨.cmdCaps, 0x100000, [], .none, 0x14100040001000, 0x0, 0x0, 0x0, 0x0, 0x0, 0x0, false, .pf⟩,
  ⟨.cmdFqRing, 0x100010, [], .warm, 0x0, 0x0, 0xFFFFFFFFFFFFF00F, 0x0, 0x0, 0x0, 0x0, false, .pf⟩,
  ⟨.cmdFqReply, 0x100018, [], .warm, 0x0, 0x0, 0xFFFFFFFFFFFFF000, 0x0, 0x0, 0x0, 0x0, false, .pf⟩,
  ⟨.cmdFqEvent, 0x100020, [], .warm, 0x0, 0x0, 0xFFFFFFFFFFFFF01F, 0x0, 0x0, 0x0, 0x0, false, .pf⟩,
  ⟨.cmdFqCommit, 0x100028, [], .warm, 0x0, 0x0, 0x0, 0x8, 0x3, 0x0, 0x0, true, .pf⟩,
  ⟨.cmdSel, 0x100040, [], .warm, 0x0, 0xFFF3FFF, 0x0, 0x0, 0x0, 0x0, 0x0, false, .any⟩,
  ⟨.cmdQueueView, 0x100048, [], .warm, 0x0, 0x0, 0x0, 0x0, 0x0, 0x0, 0x0, false, .pf⟩,
  ⟨.cmdCtxView, 0x100080, [(4, 0x8)], .warm, 0x0, 0x0, 0x0, 0x0, 0x0, 0x0, 0x0, false, .pf⟩]

/-- Registers of chapter 15. -/
def regTable15 : List RegSpec := [
  ⟨.cmdSchedP, 0x101000, [(16, 0x10)], .parcel, 0x3E8, 0xFFFF, 0x0, 0x0, 0x0, 0x0, 0x0, false, .pf⟩,
  ⟨.cmdSave, 0x102000, [(256, 0x8)], .warm, 0x0, 0x0, 0x0, 0x0, 0x0, 0x0, 0x0, false, .pf⟩,
  ⟨.cmdSaveBase, 0x100200, [], .warm, 0x0, 0x0, 0x0, 0x0, 0x0, 0x0, 0x0, false, .pf⟩,
  ⟨.cmdWpoolCfg, 0x100208, [], .warm, 0x0, 0x0, 0x3FF03FF, 0x0, 0x0, 0x0, 0x0, false, .pf⟩,
  ⟨.cmdWpoolCommit, 0x100210, [], .warm, 0x0, 0x0, 0x0, 0x8, 0x3, 0x0, 0x0, true, .pf⟩,
  ⟨.cmdWpoolStat, 0x100218, [], .warm, 0x0, 0x0, 0x0, 0x0, 0x0, 0x0, 0x0, false, .pf⟩]

/-- Registers of chapter 16. -/
def regTable16 : List RegSpec := [
  ⟨.prcCaps, 0x200000, [], .none, 0x4000001000010, 0x0, 0x0, 0x0, 0x0, 0x0, 0x0, false, .pf⟩,
  ⟨.prcStatus, 0x200008, [], .warm, 0x0, 0x0, 0x0, 0x0, 0x0, 0x0, 0xFFFF00000000, false, .pf⟩,
  ⟨.prcPStat, 0x200100, [(16, 0x8)], .parcel, 0x0, 0x0, 0x0, 0x0, 0x0, 0x0, 0x0, false, .pf⟩,
  ⟨.prcPTship, 0x200200, [(16, 0x20), (4, 0x8)], .parcel, 0x0, 0x0, 0x0, 0x0, 0x0, 0x0, 0x0, false, .pf⟩,
  ⟨.prcGran, 0x201000, [(768, 0x8)], .warm, 0x1F, 0x0, 0x0, 0x0, 0x0, 0x0, 0x0, false, .pf⟩,
  ⟨.prcPlatSel, 0x200010, [], .warm, 0x0, 0x3FFFF000F, 0x0, 0x0, 0x0, 0x0, 0x0, false, .any⟩,
  ⟨.prcPlatEntry, 0x200018, [], .parcel, 0x0, 0x0, 0xFFFFFFFFFFFFFFFF, 0x0, 0x0, 0x0, 0x0, false, .datum⟩,
  ⟨.prcPlatCommit, 0x200020, [], .parcel, 0x0, 0x0, 0x0, 0x8, 0x3, 0x0, 0x0, true, .datum⟩,
  ⟨.prcEase, 0x203000, [(256, 0x8)], .warm, 0x0, 0x0, 0x0, 0x0, 0x0, 0x0, 0x0, false, .pf⟩,
  ⟨.shrCaps, 0x300000, [], .none, 0x1001000040, 0x0, 0x0, 0x0, 0x0, 0x0, 0x0, false, .pf⟩,
  ⟨.shrGlobal, 0x300008, [], .warm, 0x1000000, 0x0, 0x0, 0x0, 0x0, 0x0, 0x0, false, .pf⟩,
  ⟨.shrMissStatus, 0x300018, [], .warm, 0x0, 0x0, 0x0, 0xFFFFFFFFFFFFFFFF, 0x0, 0x0, 0x0, false, .any⟩,
  ⟨.shrMissMask, 0x300020, [], .warm, 0x0, 0xFFFFFFFFFFFFFFFF, 0x0, 0x0, 0x0, 0x0, 0x0, false, .pf⟩,
  ⟨.shrSite, 0x300100, [(8, 0x8)], .parcel, 0x0, 0x3, 0x0, 0x0, 0x0, 0x0, 0x0, false, .pf⟩,
  ⟨.shrMCfg, 0x301000, [(64, 0x10)], .parcel, 0x0, 0x0, 0x1FF01FF01FF01FF, 0x0, 0x0, 0x0, 0x0, false, .fieldCores⟩,
  ⟨.shrMSlack, 0x301008, [(64, 0x10)], .parcel, 0x3FF, 0x0, 0x3FF, 0x0, 0x0, 0x0, 0x0, false, .fieldCores⟩,
  ⟨.shrPFlags, 0x300400, [(16, 0x10)], .parcel, 0x0, 0x0, 0x1, 0x0, 0x0, 0x0, 0x0, false, .fieldCores⟩,
  ⟨.shrPCommit, 0x300408, [(16, 0x10)], .parcel, 0x0, 0x0, 0x0, 0x8, 0x3, 0x0, 0x0, true, .fieldCores⟩,
  ⟨.shrMApplied, 0x302000, [(64, 0x8)], .parcel, 0x0, 0x0, 0x0, 0x0, 0x0, 0x0, 0x0, false, .pf⟩,
  ⟨.shrMCnt, 0x303000, [(64, 0x20), (3, 0x8)], .parcel, 0x0, 0x0, 0x0, 0x0, 0x0, 0x0, 0x0, false, .pf⟩]

/-- Registers of chapter 17. -/
def regTable17 : List RegSpec := [
  ⟨.secCaps, 0xA00000, [], .none, 0x110010002, 0x0, 0x0, 0x0, 0x0, 0x0, 0x0, false, .pf⟩,
  ⟨.secStatus, 0xA00008, [], .cold, 0x0, 0x0, 0x0, 0x8, 0x0, 0x0, 0x0, false, .any⟩,
  ⟨.secSvn, 0xA00010, [], .none, 0x0, 0x0, 0x0, 0x0, 0x0, 0x0, 0x0, false, .pf⟩,
  ⟨.secGateCnt, 0xA00018, [], .warm, 0x0, 0x0, 0x0, 0x0, 0x0, 0x0, 0x0, false, .pf⟩,
  ⟨.secKeySel, 0xA00020, [], .warm, 0x0, 0xFF, 0x0, 0x0, 0x0, 0x0, 0x0, false, .any⟩,
  ⟨.secKeyView0, 0xA00028, [], .warm, 0x0, 0x0, 0x0, 0x0, 0x0, 0x0, 0x0, false, .pf⟩,
  ⟨.secKeyView1, 0xA00030, [], .warm, 0x0, 0x0, 0x0, 0x0, 0x0, 0x0, 0x0, false, .pf⟩]

/-- Registers of chapter 18. -/
def regTable18 : List RegSpec := [
  ⟨.lcsCaps, 0xB00000, [], .none, 0x2D, 0x0, 0x0, 0x0, 0x0, 0x0, 0x0, false, .pf⟩,
  ⟨.lcsStatus, 0xB00008, [], .cold, 0x0, 0x0, 0x0, 0x0, 0x0, 0x0, 0x0, false, .pf⟩,
  ⟨.lcsFuse, 0xB00010, [], .none, 0x0, 0x0, 0x0, 0x0, 0x0, 0x0, 0x0, false, .pf⟩,
  ⟨.lcsNonceCtrl, 0xB00018, [], .warm, 0x0, 0x0, 0x0, 0x0, 0x1, 0x0, 0x0, false, .pf⟩,
  ⟨.lcsNonce, 0xB00020, [(4, 0x8)], .warm, 0x0, 0x0, 0x0, 0x0, 0x0, 0x0, 0x0, false, .pf⟩,
  ⟨.lcsIdentity, 0xB00040, [(4, 0x8)], .none, 0x0, 0x0, 0x0, 0x0, 0x0, 0x0, 0x0, false, .pf⟩,
  ⟨.lcsOwner, 0xB00060, [(6, 0x8)], .none, 0x0, 0x0, 0x0, 0x0, 0x0, 0x0, 0x0, false, .pf⟩,
  ⟨.lcsErase, 0xB00090, [(6, 0x8)], .warm, 0x0, 0x0, 0x0, 0x0, 0x0, 0x0, 0x0, false, .pf⟩]

/-- Registers of chapter 19. -/
def regTable19 : List RegSpec := [
  ⟨.glbBootStat, 0x100, [], .cold, 0x0, 0x0, 0x0, 0x0, 0x0, 0x0, 0x0, false, .pf⟩,
  ⟨.glbCapacity, 0x108, [], .cold, 0x0, 0x0, 0x0, 0x0, 0x0, 0x0, 0x0, false, .pf⟩,
  ⟨.glbYield, 0x110, [], .cold, 0x0, 0x0, 0x0, 0x0, 0x0, 0x0, 0x0, false, .pf⟩,
  ⟨.glbBootCtrl, 0x118, [], .none, 0x0, 0x0, 0x0, 0x0, 0x1F, 0x0, 0x0, false, .pf⟩]

/-- Registers of chapter 20. -/
def regTable20 : List RegSpec := [
  ⟨.pwrCaps, 0x800000, [], .none, 0x1904100104, 0x0, 0x0, 0x0, 0x0, 0x0, 0x0, false, .pf⟩,
  ⟨.pwrCapCfg, 0x800008, [], .cold, 0x32001417700E10, 0x0, 0xFFFF03FFFFFFFFFF, 0x0, 0x0, 0x0, 0x0, false, .pf⟩,
  ⟨.pwrCapCommit, 0x800010, [], .cold, 0x0, 0x0, 0x0, 0x8, 0x3, 0x0, 0x0, true, .pf⟩,
  ⟨.pwrStatus, 0x800018, [], .warm, 0x46000000000000, 0x0, 0x0, 0x0, 0x0, 0x0, 0x0, false, .pf⟩,
  ⟨.pwrPTarget, 0x800100, [(16, 0x8)], .parcel, 0x1E, 0x7F, 0x0, 0x0, 0x0, 0x0, 0x0, false, .pf⟩,
  ⟨.pwrT, 0x801000, [(256, 0x8)], .warm, 0x4600, 0x0, 0x0, 0x0, 0x0, 0x0, 0x0, false, .pf⟩,
  ⟨.pwrContour, 0x802000, [(260, 0x8)], .warm, 0x0, 0x0, 0x0, 0x0, 0x0, 0x0, 0x0, false, .pf⟩,
  ⟨.pwrThermCfg, 0x800020, [], .warm, 0x17369, 0x1FFFF, 0x0, 0x0, 0x0, 0x0, 0x0, false, .any⟩,
  ⟨.pwrEvent, 0x800028, [], .warm, 0x0, 0xF00, 0x0, 0xF, 0x0, 0x0, 0x0, false, .any⟩,
  ⟨.pwrTrip, 0x800030, [], .none, 0x0, 0x0, 0x0, 0x1, 0x0, 0x0, 0x0, false, .any⟩,
  ⟨.pwrTrvCfg, 0x800040, [], .none, 0x4400F00100, 0xFFFFFFFFFF01, 0x0, 0x0, 0x0, 0x0, 0x0, false, .pf⟩,
  ⟨.pwrTrvStat, 0x800048, [], .warm, 0x0, 0x0, 0x0, 0x0, 0x0, 0x0, 0x0, false, .pf⟩]

/-- Registers of chapter 21. -/
def regTable21 : List RegSpec := [
  ⟨.rasCaps, 0x900000, [], .none, 0x4000200, 0x0, 0x0, 0x0, 0x0, 0x0, 0x0, false, .pf⟩,
  ⟨.rasStatus, 0x900008, [], .warm, 0x0, 0x0, 0x0, 0x0, 0x0, 0x0, 0xFFFF0000, false, .pf⟩,
  ⟨.rasLogSel, 0x900010, [], .cold, 0x0, 0xFFFFFFFF, 0x0, 0x0, 0x0, 0x0, 0x0, false, .any⟩,
  ⟨.rasLogView, 0x900040, [(4, 0x8)], .cold, 0x0, 0x0, 0x0, 0x0, 0x0, 0x0, 0x0, false, .pf⟩,
  ⟨.rasPoisonStat, 0x900100, [], .cold, 0x0, 0x0, 0x0, 0x0, 0x0, 0x0, 0x0, false, .pf⟩,
  ⟨.rasPoisonSel, 0x900108, [], .cold, 0x0, 0x3FF, 0x0, 0x0, 0x0, 0x0, 0x0, false, .any⟩,
  ⟨.rasPoisonView, 0x900110, [], .cold, 0x0, 0x0, 0x0, 0x0, 0x0, 0x0, 0x0, false, .pf⟩,
  ⟨.rasPoisonClear, 0x900118, [], .cold, 0x0, 0x0, 0x0, 0x0, 0x0, 0xFFFFFFFF0000, 0x0, false, .pf⟩]

/-- Registers of chapter 22. -/
def regTable22 : List RegSpec := [
  ⟨.mgtCaps, 0xC00000, [], .none, 0x134A, 0x0, 0x0, 0x0, 0x0, 0x0, 0x0, false, .pf⟩,
  ⟨.mgtI3c, 0xC00008, [], .cold, 0x0, 0x0, 0x0, 0x0, 0x0, 0x0, 0x0, false, .pf⟩,
  ⟨.mgtFwuStat, 0xC00010, [], .warm, 0x0, 0x0, 0x0, 0x10, 0x0, 0x0, 0x0, false, .any⟩,
  ⟨.mgtDbgStat, 0xC00018, [], .cold, 0x0, 0x0, 0x0, 0x0, 0x0, 0x0, 0x0, false, .pf⟩,
  ⟨.trnCaps, 0xD00000, [], .none, 0x72730, 0x0, 0x0, 0x0, 0x0, 0x0, 0x0, false, .pf⟩,
  ⟨.trnCtrl, 0xD00008, [], .warm, 0x0, 0x1F01, 0x0, 0x0, 0x2, 0x0, 0x0, false, .any⟩,
  ⟨.trnFilter, 0xD00010, [], .warm, 0x0, 0xFE, 0x0, 0x0, 0x0, 0x0, 0x0, false, .any⟩,
  ⟨.trnBufBase, 0xD00018, [], .warm, 0x0, 0xFFFFFFFFFFFFF000, 0x0, 0x0, 0x0, 0x0, 0x0, false, .any⟩,
  ⟨.trnSnapBase, 0xD00020, [], .warm, 0x0, 0xFFFFFFFFFFFFF000, 0x0, 0x0, 0x0, 0x0, 0x0, false, .any⟩,
  ⟨.trnStat, 0xD00028, [], .warm, 0x0, 0x0, 0x0, 0x0, 0x0, 0x0, 0xFFFF0000, false, .pf⟩]

/-- Every block register of BAR0.
(DESIGN CHOICE: log entry 8.) -/
def regTable : List RegSpec :=
  regTable05 ++ regTable06 ++ regTable07 ++ regTable08 ++ regTable09 ++ regTable10 ++ regTable11 ++ regTable13 ++ regTable14 ++ regTable15 ++ regTable16 ++ regTable17 ++ regTable18 ++ regTable19 ++ regTable20 ++ regTable21 ++ regTable22

/-- The indices of an offset among a register's instances: the larger stride first. -/
def regIndex : List (Nat × Nat) → Nat → Option (List Nat)
  | [], r => if r = 0 then some [] else none
  | (n, st) :: ds, r =>
    let i := r / st
    if i < n then (regIndex ds (r % st)).map (i :: ·) else none

/-- The instance of a register that an offset names. -/
def RegSpec.at? (r : RegSpec) (off : Nat) : Option (List Nat) :=
  if off < r.base then none else regIndex r.dims (off - r.base)

/-- The registers that VFs 1 to 63 have and function 0 has not: their tables number them from 1, and the offsets of number 0 are reserved (R378). -/
def RegName.ofVfs : RegName → Bool
  | .glbVfCfg => true
  | .glbVfWin => true
  | .glbVfCommit => true
  | .glbDirtyCtrl => true
  | .glbDirtyBase => true
  | .glbDirtyMapA => true
  | .glbDirtyMapB => true
  | _ => false

/-- The register and the instance at an offset of BAR0. -/
def regAt? (off : Nat) : Option (RegSpec × List Nat) :=
  regTable.findSome? (fun r => ((r.at? off).filter (fun ix => !(r.name.ofVfs && ix == [0]))).map (fun ix => (r, ix)))

/-- The reset value of the register word at an offset (the tables' Reset column; fused fields come from the fuses).
(DESIGN CHOICE: log entry 8.) -/
def regReset (off : Nat) : W64 :=
  match regAt? off with
  | some (r, _) => BitVec.ofNat 64 r.reset
  | none => 0

/-! Offsets by name. -/

def Reg.dspCaps : Nat := 0xE00000
def Reg.dspErouteSel : Nat := 0xE00010
def Reg.dspErouteEntry : Nat := 0xE00018
def Reg.dspErouteCommit : Nat := 0xE00020
def Reg.dspPredCtrl (t : Nat) : Nat := 0xE10000 + t * 0x800
def Reg.dspStatus (t : Nat) : Nat := 0xE10008 + t * 0x800
def Reg.dspCnt (t : Nat) (n : Nat) : Nat := 0xE10100 + t * 0x800 + n * 0x8
def Reg.cadCaps : Nat := 0xF00000
def Reg.cadSeqSel : Nat := 0xF00010
def Reg.cadSeqView (n : Nat) : Nat := 0xF00040 + n * 0x8
def Reg.cadPCtrl (p : Nat) : Nat := 0xF01000 + p * 0x40
def Reg.cadPPool (p : Nat) : Nat := 0xF01008 + p * 0x40
def Reg.cadPFrames (p : Nat) : Nat := 0xF01010 + p * 0x40
def Reg.cadPEntries (p : Nat) : Nat := 0xF01018 + p * 0x40
def Reg.cadPSeqs (p : Nat) : Nat := 0xF01020 + p * 0x40
def Reg.cadPCommit (p : Nat) : Nat := 0xF01028 + p * 0x40
def Reg.cadPStatus (p : Nat) : Nat := 0xF01030 + p * 0x40
def Reg.cadCnt (t : Nat) (n : Nat) : Nat := 0xF10000 + t * 0x800 + n * 0x8
def Reg.rasArrStat (t : Nat) : Nat := 0x980000 + t * 0x40
def Reg.rasArrConflict (t : Nat) : Nat := 0x980008 + t * 0x40
def Reg.cohCaps : Nat := 0x700000
def Reg.cohAge : Nat := 0x700008
def Reg.cohAtomCtrl (t : Nat) : Nat := 0x710000 + t * 0x40
def Reg.cohCnt (t : Nat) (n : Nat) : Nat := 0x710008 + t * 0x40 + n * 0x8
def Reg.cohSliceStat (c : Nat) : Nat := 0x720000 + c * 0x20
def Reg.nocCaps : Nat := 0x600000
def Reg.nocBearSel : Nat := 0x600010
def Reg.nocBearEntry : Nat := 0x600018
def Reg.nocBearCommit : Nat := 0x600020
def Reg.nocCoord (t : Nat) : Nat := 0x601000 + t * 0x8
def Reg.nocCnt (t : Nat) (n : Nat) : Nat := 0x620000 + t * 0x40 + n * 0x8
def Reg.memCaps : Nat := 0x400000
def Reg.memCap : Nat := 0x400008
def Reg.memCmapSel : Nat := 0x400010
def Reg.memCmapEntry : Nat := 0x400018
def Reg.memCmapCommit : Nat := 0x400020
def Reg.memRetrainCtrl : Nat := 0x400030
def Reg.memRetrainStat : Nat := 0x400038
def Reg.memStack (s : Nat) : Nat := 0x401000 + s * 0x8
def Reg.memCh (c : Nat) : Nat := 0x410000 + c * 0x40
def Reg.memCnt (c : Nat) (n : Nat) : Nat := 0x410008 + c * 0x40 + n * 0x8
def Reg.siteCaps : Nat := 0x500000
def Reg.siteCfg (n : Nat) : Nat := 0x500100 + n * 0x8
def Reg.siteCfgCommit : Nat := 0x500140
def Reg.siteModMap (e : Nat) : Nat := 0x500200 + e * 0x8
def Reg.siteModStat (e : Nat) : Nat := 0x500210 + e * 0x8
def Reg.siteStat (n : Nat) : Nat := 0x501000 + n * 0x100
def Reg.siteCtrl (n : Nat) : Nat := 0x501008 + n * 0x100
def Reg.siteCnt (n : Nat) (k : Nat) : Nat := 0x501040 + n * 0x100 + k * 0x8
def Reg.glbId : Nat := 0x0
def Reg.glbFw : Nat := 0x8
def Reg.glbStatus : Nat := 0x10
def Reg.glbLink : Nat := 0x18
def Reg.glbBar4Base : Nat := 0x20
def Reg.glbVfCfg (n : Nat) : Nat := 0x1000 + n * 0x10
def Reg.glbVfWin (n : Nat) : Nat := 0x1008 + n * 0x10
def Reg.glbVfCommit (n : Nat) : Nat := 0x1800 + n * 0x8
def Reg.glbDirtyCtrl (n : Nat) : Nat := 0x2000 + n * 0x20
def Reg.glbDirtyBase (n : Nat) : Nat := 0x2008 + n * 0x20
def Reg.glbDirtyMapA (n : Nat) : Nat := 0x2010 + n * 0x20
def Reg.glbDirtyMapB (n : Nat) : Nat := 0x2018 + n * 0x20
def Reg.cmdCaps : Nat := 0x100000
def Reg.cmdFqRing : Nat := 0x100010
def Reg.cmdFqReply : Nat := 0x100018
def Reg.cmdFqEvent : Nat := 0x100020
def Reg.cmdFqCommit : Nat := 0x100028
def Reg.cmdSel : Nat := 0x100040
def Reg.cmdQueueView : Nat := 0x100048
def Reg.cmdCtxView (n : Nat) : Nat := 0x100080 + n * 0x8
def Reg.cmdSchedP (p : Nat) : Nat := 0x101000 + p * 0x10
def Reg.cmdSave (t : Nat) : Nat := 0x102000 + t * 0x8
def Reg.cmdSaveBase : Nat := 0x100200
def Reg.cmdWpoolCfg : Nat := 0x100208
def Reg.cmdWpoolCommit : Nat := 0x100210
def Reg.cmdWpoolStat : Nat := 0x100218
def Reg.prcCaps : Nat := 0x200000
def Reg.prcStatus : Nat := 0x200008
def Reg.prcPStat (p : Nat) : Nat := 0x200100 + p * 0x8
def Reg.prcPTship (p : Nat) (w : Nat) : Nat := 0x200200 + p * 0x20 + w * 0x8
def Reg.prcGran (g : Nat) : Nat := 0x201000 + g * 0x8
def Reg.prcPlatSel : Nat := 0x200010
def Reg.prcPlatEntry : Nat := 0x200018
def Reg.prcPlatCommit : Nat := 0x200020
def Reg.prcEase (e : Nat) : Nat := 0x203000 + e * 0x8
def Reg.shrCaps : Nat := 0x300000
def Reg.shrGlobal : Nat := 0x300008
def Reg.shrMissStatus : Nat := 0x300018
def Reg.shrMissMask : Nat := 0x300020
def Reg.shrSite (n : Nat) : Nat := 0x300100 + n * 0x8
def Reg.shrMCfg (m : Nat) : Nat := 0x301000 + m * 0x10
def Reg.shrMSlack (m : Nat) : Nat := 0x301008 + m * 0x10
def Reg.shrPFlags (p : Nat) : Nat := 0x300400 + p * 0x10
def Reg.shrPCommit (p : Nat) : Nat := 0x300408 + p * 0x10
def Reg.shrMApplied (m : Nat) : Nat := 0x302000 + m * 0x8
def Reg.shrMCnt (m : Nat) (k : Nat) : Nat := 0x303000 + m * 0x20 + k * 0x8
def Reg.secCaps : Nat := 0xA00000
def Reg.secStatus : Nat := 0xA00008
def Reg.secSvn : Nat := 0xA00010
def Reg.secGateCnt : Nat := 0xA00018
def Reg.secKeySel : Nat := 0xA00020
def Reg.secKeyView0 : Nat := 0xA00028
def Reg.secKeyView1 : Nat := 0xA00030
def Reg.lcsCaps : Nat := 0xB00000
def Reg.lcsStatus : Nat := 0xB00008
def Reg.lcsFuse : Nat := 0xB00010
def Reg.lcsNonceCtrl : Nat := 0xB00018
def Reg.lcsNonce (n : Nat) : Nat := 0xB00020 + n * 0x8
def Reg.lcsIdentity (n : Nat) : Nat := 0xB00040 + n * 0x8
def Reg.lcsOwner (n : Nat) : Nat := 0xB00060 + n * 0x8
def Reg.lcsErase (n : Nat) : Nat := 0xB00090 + n * 0x8
def Reg.glbBootStat : Nat := 0x100
def Reg.glbCapacity : Nat := 0x108
def Reg.glbYield : Nat := 0x110
def Reg.glbBootCtrl : Nat := 0x118
def Reg.pwrCaps : Nat := 0x800000
def Reg.pwrCapCfg : Nat := 0x800008
def Reg.pwrCapCommit : Nat := 0x800010
def Reg.pwrStatus : Nat := 0x800018
def Reg.pwrPTarget (p : Nat) : Nat := 0x800100 + p * 0x8
def Reg.pwrT (t : Nat) : Nat := 0x801000 + t * 0x8
def Reg.pwrContour (p : Nat) : Nat := 0x802000 + p * 0x8
def Reg.pwrThermCfg : Nat := 0x800020
def Reg.pwrEvent : Nat := 0x800028
def Reg.pwrTrip : Nat := 0x800030
def Reg.pwrTrvCfg : Nat := 0x800040
def Reg.pwrTrvStat : Nat := 0x800048
def Reg.rasCaps : Nat := 0x900000
def Reg.rasStatus : Nat := 0x900008
def Reg.rasLogSel : Nat := 0x900010
def Reg.rasLogView (n : Nat) : Nat := 0x900040 + n * 0x8
def Reg.rasPoisonStat : Nat := 0x900100
def Reg.rasPoisonSel : Nat := 0x900108
def Reg.rasPoisonView : Nat := 0x900110
def Reg.rasPoisonClear : Nat := 0x900118
def Reg.mgtCaps : Nat := 0xC00000
def Reg.mgtI3c : Nat := 0xC00008
def Reg.mgtFwuStat : Nat := 0xC00010
def Reg.mgtDbgStat : Nat := 0xC00018
def Reg.trnCaps : Nat := 0xD00000
def Reg.trnCtrl : Nat := 0xD00008
def Reg.trnFilter : Nat := 0xD00010
def Reg.trnBufBase : Nat := 0xD00018
def Reg.trnSnapBase : Nat := 0xD00020
def Reg.trnStat : Nat := 0xD00028

end Sys2Proof
end

