-- ==== Sys2Proof/Machine/Parts.lean ====
section
/-! DEFINITION. The pieces of State: threads and launches, the expert dispatch, caches and directory, queues and
contexts, parcels, and the other blocks of the hub, each as plain data. -/

namespace Sys2Proof.Machine

/-! ### Threads (chapters 02, 03) -/

/-- A product of a MAC instruction that has not yet entered its accumulator (R90): FP32 (exact) or INT32. -/
inductive Prod where
  | fp (j : Nat) (v : FVal)
  | int (j : Nat) (v : Int)
  deriving DecidableEq, Repr

/-- An item of a speculative thread's log (Tables 05-5, 05-7): old register values, and stores and drets not yet made. -/
inductive SpecItem where
  | scalar (d : Nat) (old : W32)
  | preds (old : BitVec 4)
  | gen (old : W32)
  | vector (d : Nat) (old : VReg)
  | acc (old : List W32)
  | store (loc : Bool) (addr len value : Nat)
  | dret (rec row len fmt : Nat)
  deriving DecidableEq, Repr

/-- The speculation of a thread: its shadow slot, the record it took, the address of its drecv, the log (newest first),
the held fault, the closure message that has reached it, and the poisoned reads tolerated since, which count once it is confirmed. -/
structure Spec where
  slot    : Nat
  section_ : Nat
  record  : Nat
  drecvPc : Nat
  log     : List SpecItem
  fault   : Option (Nat × Nat × Nat × Nat)
  closure : Option (Option W32)
  poison  : Nat := 0
  deriving DecidableEq, Repr

/-- What a thread that issues nothing waits for. -/
inductive Wait where
  | none
  | fwait (p : Nat) (pva target scope : Nat)
  | bar (scope : Nat)
  | drecv (d p expert : Nat)
  | dspt
  | closure
  | lineStores (scope : Nat)
  deriving DecidableEq, Repr

/-- A register of a thread whose write is pending (R96). -/
inductive PendReg where
  | s (i : Nat)
  | v (i : Nat)
  | p (i : Nat)
  deriving DecidableEq, Repr

/-- An acquire of section or township scope that its thread has issued and that no release whose scope includes both threads has followed yet:
the thread's next load may read, in a line other than the acquire's, what its location has held at any time `since` it was issued, as a
count of the lines replaced (R61). -/
structure Stale where
  launch : Nat
  scope  : Nat
  since  : Nat
  line   : Nat
  deriving DecidableEq, Repr

/-- A thread (Table 03-1) with what it has outstanding; `replay` holds the logged stores and drets of a confirmed speculation that it has still to
perform, the oldest first, `raise` the fault to raise after them (R170), and `fetched` the address and the PPA of its last fetch (R101). -/
structure Thread where
  launch : Nat
  ctx    : Nat
  s      : List W32
  v      : List VReg
  a      : List W32
  prods  : List Prod
  p      : BitVec 4
  pc     : BitVec 52
  gen    : W32
  spec   : Option Spec
  wait   : Wait
  pend   : List PendReg
  replay : List SpecItem := []
  raise  : Option (Nat × Nat × Nat × Nat) := none
  fetched : Option (Nat × Nat) := none
  deriving DecidableEq, Repr

/-- A core: its step counter (R93), the thread and steps of the MAC occupation (R97), and the thread that issued last. -/
structure CoreSt where
  steps : Nat
  mac   : Option (Nat × Nat)
  last  : Nat
  deriving DecidableEq, Repr

/-- The dispatch descriptor of a launch (Table 05-1). -/
structure DispDesc where
  policy   : Nat
  spec     : Bool
  fanout   : Nat
  predMax  : Nat
  inboxKib : Nat
  hold     : Nat
  first    : Nat
  originLo : Nat
  originHi : Nat
  base     : Nat
  stride   : Nat
  fence    : Nat
  deriving DecidableEq, Repr

/-- The gather descriptor of a launch (Table 06-5): items in the list, the ring, its chunks and their size, the control block, and
the list items (Table 06-6) by grid section. -/
structure GatherDesc where
  count  : Nat
  ring   : Nat
  chunks : Nat
  units  : Nat
  ctrl   : Nat
  items  : Tbl Nat
  deriving DecidableEq, Repr

/-- Where a launch stands. -/
inductive LaunchSt where
  | waiting | placed | stopping | saved | restoring
  deriving DecidableEq, Repr

/-- A launch: the queue and command index that started it, its grid (Table 02-1) and packet fields (Table 14-6), the
townships it holds in ascending order, and its dispatch and gather state. `start` is how many writes of memory State.code listed when it
started.
(DEDUCED: log entry 21.) -/
structure Launch where
  queue   : Nat
  idx     : Nat
  ctx     : Nat
  parcel  : Nat
  prio    : Nat
  order   : Nat
  gt      : Nat
  gs      : Nat
  gc      : Nat
  gh      : Nat
  mask    : Option (List Nat)
  entry   : Nat
  args    : Nat
  seed    : W32
  seq     : Nat
  tol     : Bool
  disp    : Option DispDesc
  gather  : Option GatherDesc
  st      : LaunchSt
  ships   : List Nat
  start   : Nat
  ended   : Tbl Nat
  closedTo : Nat
  signalled : Nat
  dropped : Nat
  spilled : Nat
  poisoned : Nat
  starved : Bool
  deriving DecidableEq, Repr

/-! ### Dispatch (chapter 05) -/

/-- States of a copy in the dispatch ledger. -/
inductive CopySt where
  | sent | held | admitted | returned | settled
  deriving DecidableEq, Repr

/-- A dispatch ledger entry: one copy in flight (R153). `place` is where it was admitted: the agent or adapter, and the section or
engine, to which its closure goes (R168). -/
structure Copy where
  launch  : Nat
  thread  : Nat
  token   : Nat
  layer   : Nat
  expert  : Nat
  weight  : W32
  spec    : Bool
  st      : CopySt
  counted : Bool
  row     : List Byte
  fmt     : Nat
  len     : Nat
  reserve : List (Nat × W32)
  got     : Nat
  place   : Option (Node × Nat) := none
  deriving DecidableEq, Repr

/-- A token record of an inbox (Table 05-3), who holds it, the launch that hosts it, and its origin's launch. -/
structure Record where
  addr    : Nat
  tag     : Nat
  expert  : Nat
  layer   : Nat
  fmt     : Nat
  len     : Nat
  spec    : Bool
  weight  : W32
  taken   : Option Nat
  order   : Nat
  launch  : Nat
  origin  : Nat := 0
  deriving DecidableEq, Repr

/-- A section: its inbox records, the current layer of each expert, the threads that own its shadow slots, its waiting
scratchpad requests, and for each bank and thread number the core that last won it (R214). -/
structure SectionSt where
  records : List Record
  layers  : Tbl Nat
  slots   : List (Option Nat)
  reqs    : List SpReq
  won     : Tbl Nat
  refused : List (Nat × Nat × Nat × Nat)
  deriving DecidableEq, Repr

/-- A predictor entry (R159 to R161): the tag and four candidates with confidence. -/
structure PredEntry where
  tag   : Nat
  cands : List (Nat × Nat)
  deriving DecidableEq, Repr

/-! ### Coherence (chapters 07, 08) -/

/-- A way of a township cache: line number (DPA div 128), state and data. -/
structure Way where
  line : Nat
  st   : LineState
  data : Nat
  prio : Nat
  poison : Bool
  deriving DecidableEq, Repr

/-- A set of a township cache: its 16 ways and the 15 bits of the pseudo-LRU tree (R222). -/
structure CacheSet where
  ways : Tbl Way
  plru : BitVec 15
  deriving DecidableEq, Repr

/-- An eviction buffer (R237, R249); `tx` is its number, which its WB carries. -/
structure EvBuf where
  line : Nat
  st   : LineState
  data : Nat
  poison : Bool
  fwd  : Bool
  acked : Bool
  tx   : Nat := 0
  deriving DecidableEq, Repr

/-- An outstanding line request of an agent: its kind, the Data once received, the InvAcks collected (R248), and whether its fill has
waited for an eviction buffer. -/
structure Miss where
  line  : Nat
  kind  : MsgKind
  sonly : Bool
  acc   : Nat
  got   : Option Msg
  acks  : Nat
  dpa   : Nat
  full  : Bool := false
  deriving DecidableEq, Repr

/-- States of a directory entry (Table 08-2); a line without an entry is free. -/
inductive DirSt where
  | S | X | B
  deriving DecidableEq, Repr

/-- What a home waits for before it ends a transaction (Table 08-4). -/
structure Txn where
  req      : Msg
  cmpAck   : Bool
  dataH    : Bool
  invAcks  : Nat
  next     : DirSt
  nextVec  : BitVec 288
  free     : Bool
  fwdTo    : Option Nat
  evict    : Bool
  deriving DecidableEq, Repr

/-- A directory entry (Table 08-2) with its transaction and the requests that wait behind it in arrival order (R240). -/
structure DirEntry where
  vec    : BitVec 288
  st     : DirSt
  parcel : Nat
  ease   : Bool
  use    : Nat
  txn    : Option Txn
  deriving DecidableEq, Repr

/-! ### Townships -/

/-- A returns ledger entry (R446 to R448): the request's thread, what it asks and the answer once it has come. -/
structure Returned where
  acc      : Nat
  thread   : Nat
  window   : Bool
  answer   : Option Nat
  cancelled : Bool
  deriving DecidableEq, Repr

/-- A cached translation (R50, R51): context, PVA page base, page size, PPA page base and leaf flags. -/
structure Tlb where
  ctx  : Nat
  pva  : Nat
  size : Nat
  entry : Nat
  deriving DecidableEq, Repr

/-- A gather stream of a section (R199 to R205): its launch and number, its sequence and first token, the rows it delivers, the chunk it
writes next, the length and offset of a row in 64-byte units, the next page whose entry it looks up, the frames of its pages, and what it took of the
sequence and the parcel when it started: the sequence's entries and their number, its token size, the page size and the pool (R11). `status` is the STATUS
byte it has written, and `ended` says that every row has been delivered. -/
structure Stream where
  launch : Nat
  id     : Nat
  seq    : Nat
  first  : Nat
  rows   : Nat
  chunk  : Nat
  len    : Nat
  off    : Nat
  page   : Nat
  frames : List Nat
  cbase  : Nat
  run    : Nat
  shift  : Nat
  size   : Nat
  pool   : Nat
  status : Nat
  ended  : Bool
  deriving DecidableEq, Repr

/-- A save image (Table 15-4) of one township: the launch, its threads, section state and scratchpad bytes. -/
structure SaveImage where
  launch   : Nat
  ctx      : Nat
  threads  : Tbl Thread
  sections : Tbl SectionSt
  spm      : List Host.Cell
  ledger   : Tbl Copy
  streams  : Tbl Stream
  hints    : List (Nat × Nat × Nat × Nat × Nat) := []
  sentTok  : List (Nat × Nat × Nat) := []
  deriving DecidableEq, Repr

/-- The test of a township (R228 to R230): its occasion (1 start-up, 2 command, 3 recovery), the cache blocks still to test, and the steps that
the cache side and each physical section have ended: 0 while the save buffer or shadow area is marched, then one for each
block; the block after those is the one under test. -/
structure TestSt where
  cause : Nat
  left  : Nat
  cache : Nat
  sects : Tbl Nat
  deriving DecidableEq, Repr

/-- A township: its cache, eviction buffers, outstanding requests and their next identifier, contention predictor,
translation, micro and plat caches, dispatch ledger, expert predictor, cadastre cache, gather streams, save image and returns
ledger, test state, and wake state. `asm` holds rows whose packets are still arriving, with their launch, `hints` the speculative dispatches
whose committed list is awaited (thread, token, layer, predictor index and tag), `sentTok` the committed ones. -/
structure Township where
  sets    : Tbl CacheSet
  evb     : List EvBuf
  misses  : Tbl Miss
  nextTx  : Nat
  contend : Tbl Nat
  tlb     : List Tlb
  micro   : Tbl (List Tlb)
  plat    : Tbl Nat
  ledger  : Tbl Copy
  pred    : Tbl PredEntry
  cad     : Tbl Nat
  streams : Tbl Stream
  image   : Option SaveImage
  returns : Tbl Returned
  leaving : Bool
  test    : Option TestSt
  absent  : Bool
  asleep  : Bool
  waking  : Bool
  held    : List HeldPkt
  asm     : Tbl (Nat × List Byte)
  hints   : List (Nat × Nat × Nat × Nat × Nat)
  sentTok : List (Nat × Nat × Nat)
  halted  : Bool
  deriving DecidableEq, Repr

/-! ### Commands and objects (chapter 14) -/

/-- A completed command's answer: STATUS, DETAIL and RESULT of its status reply (Table 14-3). -/
structure Answer where
  status : Nat
  detail : Nat
  result : Nat
  deriving DecidableEq, Repr

/-- Where a fetched command stands. -/
inductive CmdSt where
  | fetched
  | started
  | serving (data : List Nat)
  | done (a : Answer)
  | replied
  deriving DecidableEq, Repr

/-- A fetched command packet: its 64 bytes as a number, its ordinal, the handles it holds references to, its start
order of submission, the poisoned reads it has met, an answer fixed at submission, and the launch extension read then. -/
structure Cmd where
  pkt     : Nat
  ordinal : Nat
  refs    : List Nat
  st      : CmdSt
  order   : Nat
  poison  : Nat
  early   : Option Answer
  ext     : Option Nat
  deriving DecidableEq, Repr

/-- States of a queue (CMD_QUEUE_VIEW). -/
inductive QueueSt where
  | running | stopping | stopped
  deriving DecidableEq, Repr

/-- A queue (R399 to R406): owning context handle (0 for a function queue), function, group and slot, rings, fetch index,
tail, ordinal, MSI-X vector, priority, fence handle, commands by index, the ordinals that wait to be signalled, the grade under
which it stops, whether a ring fetch of it has failed, and the tails and order of the doorbell writes whose commands are not all fetched. -/
structure Queue where
  ctx     : Nat
  fn      : Nat
  group   : Nat
  slot    : Nat
  log2    : Nat
  ring    : Nat
  reply   : Nat
  vector  : Nat
  prio    : Nat
  fence   : Nat
  fetch   : Nat
  tail    : Nat
  ordinal : Nat
  st      : QueueSt
  grade   : Nat
  dead    : Bool
  cmds    : Tbl Cmd
  signals : List Nat
  subs    : List (Nat × Nat)
  deriving DecidableEq, Repr

/-- A queue group: its function and its doorbell page. -/
structure Group where
  fn   : Nat
  page : Nat
  deriving DecidableEq, Repr

/-- States of a context. -/
inductive CtxSt where
  | live | lost | retiring
  deriving DecidableEq, Repr

/-- The first fault of a context (R53). -/
structure FaultRec where
  code   : Nat
  access : Nat
  pva    : Nat
  ppa    : Nat
  thread : Nat
  deriving DecidableEq, Repr

/-- An event ring (R429). -/
structure EventRing where
  addr  : Nat
  log2  : Nat
  count : Nat
  deriving DecidableEq, Repr

/-- A context. -/
structure Context where
  gen    : Nat
  parcel : Nat
  fn     : Nat
  pasid  : Nat
  root   : Nat
  host   : Nat
  event  : Option EventRing
  st     : CtxSt
  fault  : Option FaultRec
  later  : Nat
  holds  : Tbl Nat
  xinv   : Nat
  deriving DecidableEq, Repr

/-- A weight set bound to an easement (R450 to R456). -/
structure WeightSet where
  source  : Nat
  sctx    : Nat
  size    : Nat
  ease    : Nat
  sealed  : Bool
  bays    : List Nat
  resident : Bool
  loading : Bool
  pins    : Nat
  use     : Nat
  deriving DecidableEq, Repr

/-- A memory object (R424), or a weight set, which is one. -/
structure MemObj where
  gen    : Nat
  parcel : Nat
  base   : Nat
  size   : Nat
  host   : Nat
  dev    : Nat
  fence  : Nat
  value  : Nat
  wset   : Option WeightSet
  deriving DecidableEq, Repr

/-- A fence object (R426): owner, and the PVA, PPA and DPA of its word. -/
structure FenceObj where
  gen    : Nat
  ctx    : Nat
  parcel : Nat
  pva    : Nat
  ppa    : Nat
  word   : Nat
  deriving DecidableEq, Repr

/-! ### Sequences (chapter 06) -/

/-- States of a sequence (Table 06-1); a sequence without an entry is FREE. -/
inductive SeqSt where
  | joining | running | leaving
  deriving DecidableEq, Repr

/-- A sequence table entry (Table 06-1). -/
structure Seq where
  st      : SeqSt
  batch   : Nat
  shift   : Nat
  parcel  : Nat
  cbase   : Nat
  max     : Nat
  tokens  : Nat
  ptokens : Nat
  prompt  : Nat
  backed  : Nat
  order   : Nat
  user    : Nat
  ctx     : Nat
  deriving DecidableEq, Repr

/-- A cadastre entry that is not free (Table 06-2): its sequence, and its frame with the step count at which it was attached. -/
structure CadEntry where
  seq      : Nat
  frame    : Option Nat
  attached : Nat
  deriving DecidableEq, Repr

/-- A batch of a parcel: whether a step is open, and its step count. -/
structure Batch where
  open_ : Bool
  steps : Nat
  deriving DecidableEq, Repr

/-- A frame of a released sequence that gather streams started before the release still read (R197). -/
structure Freeing where
  parcel  : Nat
  frame   : Nat
  streams : List Nat
  deriving DecidableEq, Repr

/-! ### Parcels (chapter 16) -/

/-- A parcel: townships (leaving ones included), sites, granules, and the easements mapped into it by first granule. -/
structure Parcel where
  ships : List Nat
  sites : List Nat
  grans : List Nat
  eases : Tbl Nat
  down  : Bool
  deriving DecidableEq, Repr

/-- An easement: its size in granules, the bays its map names, and the handle of the bound weight set. -/
structure Easement where
  size : Nat
  map  : Tbl Nat
  wset : Nat
  deriving DecidableEq, Repr

/-- A staged group's COMMIT state (Table 00-5): the captured set while PENDING, REJECTED, REASON, GENERATION, and a
DISCARD that waits. `made` is for a plat's set that is in force and not yet complete (R464): whether the caches are
clear of old entries, and the accesses that are waited for. -/
structure Commit where
  pending  : Option (Tbl W64)
  rejected : Bool
  reason   : Nat
  generation : Nat
  discard  : Bool
  made     : Option (Bool × List Nat) := none
  deriving DecidableEq, Repr

/-- A record of the error log (R574). -/
structure ErrRec where
  seq    : Nat
  cause  : Nat
  cls    : Nat
  parcel : Nat
  addr   : Nat
  unit   : Nat
  kind   : Nat
  detail : Nat
  starts : Nat
  deriving DecidableEq, Repr

/-! ### Host link functions (chapter 13) -/

/-- A cached ATS translation (R389): its function and PASID, the page of the untranslated address in Smallest Translation Units, the translated
page, and its permissions. -/
structure AtcEntry where
  fn    : Nat
  pasid : Nat
  page  : Nat
  hostPage : Nat
  read  : Bool
  write : Bool
  deriving DecidableEq, Repr

/-- A Translation Request that has not returned. -/
structure AtsReq where
  pasid : Nat
  page  : Nat
  deriving DecidableEq, Repr

/-- A read request on the host link that has not returned (R371): its function, PASID and page, and whether its address is translated (R390). -/
structure HostRd where
  fn    : Nat
  pasid : Nat
  page  : Nat
  xlat  : Bool
  deriving DecidableEq, Repr

/-- What an engine has to send on the host link and waits, in order of its function, for a translation (R389, R387): a write, with the access type
of the fault record that its failure brings, none for an event record (R429); or an MSI-X message. -/
inductive HostPend where
  | write (fn : Nat) (pasid : Option Pasid) (addr : Nat) (bytes : List Byte) (acc : Option Nat)
  | msix (fn vector : Nat)
  | read (fn pasid addr len : Nat)
  deriving DecidableEq, Repr

/-- An Invalidation Request that is not completed (R390): function, tag, PASID, first page and pages, and the translated reads it waits for. -/
structure AtsInval where
  fn    : Nat
  tag   : Nat
  pasid : Nat
  page  : Nat
  count : Nat
  reads : List Nat
  deriving DecidableEq, Repr

/-- The DOE mailbox (R392): the DWs written and not yet sent with GO, the DWs of the response still to be read, the type of the data object
being served (1 CMA/SPDM, 2 Secured CMA/SPDM), and Error. -/
structure Doe where
  obj   : List Nat
  resp  : List Nat
  kind  : Option Nat
  error : Bool
  deriving DecidableEq, Repr

/-- An IDE stream (R393): the key sets programmed (bits 0 and 1) and in use (bits 2 and 3), and its address association ranges. -/
structure IdeSt where
  sets   : Nat
  ranges : Tbl (Nat × Nat)
  deriving DecidableEq, Repr

/-- A PCIe function: the configuration fields that the hub acts on, its TDISP interface state (0 CONFIG_UNLOCKED,
1 CONFIG_LOCKED, 2 RUN, 3 ERROR), its other configuration words, its Translation Requests, the words of its
dirty cache by number, whether a Function Level Reset is under way, the Smallest Translation Unit (2^stu pages of 4 KiB), the largest payload and
read request in bytes, and the Completion Timeout Value with its Disable. -/
structure FnSt where
  bme    : Bool
  ats    : Bool
  msix   : Bool
  msixMask : Bool
  tdi    : Nat
  flr    : Bool
  d3     : Bool
  retry  : Bool
  numVfs : Nat
  vfEnable : Bool
  cfg    : Tbl Nat
  atsReq : Tbl AtsReq
  dirty  : Tbl Nat
  stu    : Nat := 0
  mps    : Nat := 128
  mrrs   : Nat := 512
  cto    : Nat := 0
  ctoOff : Bool := false
  deriving DecidableEq, Repr

/-! ### Chiplet sites (chapters 11, 12) -/

/-- A WORK at a foreign engine (R356): the queue and index of its command, its context number, the engine and whether
CANCEL has been sent for it, and the memory objects whose device references it keeps once its context is retired (Table 14-8, step 6). -/
structure WorkOut where
  queue  : Nat
  idx    : Nat
  ctx    : Nat
  engine : Nat
  cancel : Bool
  refs   : List Nat
  deriving DecidableEq, Repr

/-- A token copy admitted at an adapter (R361). -/
structure SiteCopy where
  engine : Nat
  origin : Nat
  entry  : Nat
  expert : Nat
  layer  : Nat
  fmt    : Nat
  launch : Nat := 0
  deriving DecidableEq, Repr

/-- A flit received out of order (R345): its sequence number, SLOT_CTRL and the 15 slots. -/
structure Flit where
  seq   : Nat
  ctrl  : Nat
  slots : List Nat
  deriving DecidableEq, Repr

/-- A packet that the adapter has for the chiplet and that waits for credit: its command code (Table 12-5, or 0x20 for a TCOPY), transaction number,
class and sender, its header unit, and its data units. -/
structure TxMsg where
  code  : Nat
  txid  : Nat
  cls   : Nat
  who   : Nat
  head  : Nat
  data  : List Nat
  deriving DecidableEq, Repr

/-- A site: the chiplet's sideband registers as the hub has read or written them, credits held towards the chiplet and
granted to it by class, the site record (active and half-width masks), and everything outstanding at it: WORK, token copies,
copies refused, XINV by context, CANCEL by sender and transaction, what the chiplet owes (answer code, the end it names, transaction,
line), messages that wait for credit, and packets received from it that their commands have still to take. `rail` is the voltage of its rail in mV, 0
where it is off (R321). `stage` counts the steps of a bring-up, and `ask` says that a flush is wanted. `txSlots` holds the slots, by kind and contents,
that no flit carries yet (R341), `txSeq` counts the flits sent, and `txMod` is the link module that carries the next (R313). -/
structure SiteSt where
  sb       : Tbl W64
  credH    : List Nat
  credD    : List Nat
  grantH   : List Nat
  grantD   : List Nat
  active   : Nat
  half     : Nat
  width    : Nat
  retried  : Bool
  works    : Tbl WorkOut
  copies   : Tbl SiteCopy
  refused  : List (Nat × Nat × Nat × Nat)
  xinv     : Tbl Nat
  cancels  : List (Nat × Nat)
  rxSeq    : Nat
  rxHold   : List Flit
  rxPkt    : List Nat
  rxNeed   : Nat
  flush    : Bool
  drop     : Bool
  restart  : Bool
  report   : List Nat
  meas     : Bool
  rail     : Nat
  stage    : Nat
  ask      : Bool
  owed     : List (Nat × Nat × Nat × Nat)
  tx       : List TxMsg
  rxq      : List (Nat × Nat × List Nat)
  txSlots  : List (Nat × Nat) := []
  txSeq    : Nat := 0
  txMod    : Nat := 0
  deriving DecidableEq, Repr

/-! ### Keys of sealed weight sets (chapter 17) -/

/-- A weight key in a slot: its epoch, REQUIRE_CONF and the key. -/
structure WKey where
  epoch : Nat
  conf  : Bool
  key   : Nat
  deriving DecidableEq, Repr

/-- The two key slots of an easement (R506). -/
structure KeySlots where
  cur  : Option WKey
  prev : Option WKey
  deriving DecidableEq, Repr

/-! ### Certificates (R492, R494) -/

/-- A dual-signed envelope (Table 17-2): its signer, its body as numbers, and the signature pair. -/
structure Envelope where
  kind   : Nat
  signer : Nat
  body   : List Nat
  pair   : Nat
  deriving DecidableEq, Repr

/-- A certificate of slot 0: the public key it names, the Ed25519 signature of its issuer, and the envelope of its Skasol extension. -/
structure Cert where
  key : Nat
  sig : Nat
  ext : Option Envelope
  deriving DecidableEq, Repr

/-- The bad units that the map from logical to physical units was set with (R23): townships, sections and cores of the learned map at
start-up. -/
structure Units where
  ships : List Nat
  sects : List Nat
  cores : List Nat
  deriving DecidableEq, Repr

/-! ### The benchmark record (Table 19-3) -/

/-- The items of the benchmark record: the learned repair map, bad physical units, mapped-out channels and pending
MAPOUT_NEXT bits, the channels and modules with saved parameters, site configuration, site records (active and half-width
masks), module failure counts, the firmware slot, the scrub flag, GLB_BOOT_CTRL, the start-up count and PWR_TRV_CFG. -/
structure BmRec where
  generation : Nat
  repairs : List Repair
  badT    : List Nat
  badS    : List Nat
  badC    : List Nat
  mapped  : List Nat
  pendOut : List Nat
  chans   : List Nat
  mods    : List Nat
  cfg     : Tbl Nat
  sites   : Tbl (Nat × Nat)
  fails   : Tbl Nat
  slot    : Nat
  scrub   : Bool
  ctl     : Nat
  starts  : Nat
  trv     : Nat
  deriving DecidableEq, Repr

/-- The factory settings of a record that is absent (R534); PWR_TRV_CFG at its reset value.
(DESIGN CHOICE: log entry 9.) -/
def BmRec.factory : BmRec :=
  { generation := 0, repairs := [], badT := [], badS := [], badC := [], mapped := [], pendOut := [], chans := [], mods := [],
    cfg := [], sites := [], fails := [], slot := 0, scrub := false, ctl := 0, starts := 0, trv := 0x4400F00100 }

/-- Where a start-up stands: its step (0 none, 10 ended), whether it is held at step 4, whether it is warm, what the tests
after step 7 find, the units added to the learned map, and the failing columns that the array test found. -/
structure Boot where
  step  : Nat
  held  : Bool
  warm  : Bool
  dead  : Bool
  facts : Option BootFacts
  newBad : Nat
  cols   : List Repair := []
  deriving DecidableEq, Repr

/-! ### Power and the traverse ring (chapter 20) -/

/-- The power samples of the last millisecond (hub and HBM, and each site's rail, in W; newest first), the 100 µs comparisons in a row over budget at 0.45 V,
and the throttle levels by origin, frame count and POOL state of the station. -/
structure Power where
  samples : List (Nat × List Nat)
  floor   : Nat
  levels  : Tbl Nat
  seq     : Nat
  pool    : Bool
  deriving DecidableEq, Repr

/-- A firmware update in progress (R585): whether it is open, the components offered, and the bytes received of each. -/
structure Fwu where
  active  : Bool
  offered : List Nat
  got     : Tbl (List Byte)
  deriving DecidableEq, Repr

/-- Retraining in service (R300 to R303): the channels that wait for one in order, the phase each retraining channel is in, the temperature
of each channel's stack when it was last trained, the CE count of each channel at the last retraining that CE asked for, the requests
that interfaces keep at their source, the lines of the requests in the hold store in arrival order, and the lines in the write buffer of the channel
in a slice. -/
structure Retrain where
  queue  : List Nat
  phase  : Tbl Nat
  temps  : Tbl Nat
  ceAt   : Tbl Nat
  source : List Msg
  hold   : List Nat
  wbuf   : List Nat
  deriving DecidableEq, Repr

/-! ### Defaults -/

/-- A function after reset: PCIe clears its enables; a function's interface starts CONFIG_UNLOCKED. -/
def FnSt.empty : FnSt :=
  { bme := false, ats := false, msix := false, msixMask := false, tdi := 0, flr := false, d3 := false, retry := false,
    numVfs := 0, vfEnable := false, cfg := [], atsReq := [], dirty := [] }

def SiteSt.empty : SiteSt :=
  { sb := [], credH := [0, 0, 0, 0, 0], credD := [0, 0, 0, 0, 0], grantH := [0, 0, 0, 0, 0], grantD := [0, 0, 0, 0, 0],
    active := 0, half := 0, width := 0, retried := false, works := [], copies := [], refused := [],
    xinv := [], cancels := [], rxSeq := 0, rxHold := [], rxPkt := [], rxNeed := 0,
    flush := false, drop := false, restart := false, report := [], meas := false, rail := 0, stage := 0, ask := false, owed := [], tx := [], rxq := [] }

def Township.empty : Township :=
  { sets := [], evb := [], misses := [], nextTx := 0, contend := [], tlb := [], micro := [], plat := [], ledger := [], pred := [],
    cad := [], streams := [], image := none, returns := [], leaving := false, test := none, absent := false,
    asleep := false, waking := false, held := [], asm := [], hints := [], sentTok := [], halted := false }

def SectionSt.empty : SectionSt :=
  { records := [], layers := [], slots := [none, none, none, none], reqs := [], won := [], refused := [] }

/-- DESIGN CHOICE: log entry 89. -/
def CoreSt.empty : CoreSt := ⟨0, none, 3⟩

def CacheSet.empty : CacheSet := ⟨[], 0⟩

def Commit.empty : Commit := ⟨none, false, 0, 0, false, none⟩

end Sys2Proof.Machine
end

