-- ==== Sys2Proof/Machine/State.lean ====
section
/-! DEFINITION. The state of the hub, as plain data, and the state right after reset. -/

namespace Sys2Proof.Machine

/-- No command of this model faults: what the spec gives no effect for is a refusal, and an event whose conditions do
not hold has not happened and changes nothing.
(DESIGN CHOICE: log entry 2.) -/
inductive Fault where
  deriving DecidableEq, Repr

/-- Why a command is refused.
(DESIGN CHOICE: log entry 2.) -/
inductive Refusal where
  /-- Raised by the arm of a command that has no meaning yet; safe, since no state follows. -/
  | notModelled (mnemonic : String)
  deriving DecidableEq, Repr

/-- The hub. Every table lists only what differs from its default; the default stands in the accessor that reads it. -/
structure State where
  /-- The commands that are waiting, first in first out (the queue of the block). -/
  pending  : List Instr
  /-- The block registers of BAR0 by word offset, listed where they differ from their reset value (00_scope R7 to R10, Table 00-3, and the register table of each chapter). -/
  regs     : Tbl W64
  /-- The shadow words of staged groups, listed where they differ from the active word (00_scope R11, R12, Table 00-4). -/
  shadow   : Tbl W64
  /-- COMMIT of each staged group: the captured set, PENDING, REJECTED, REASON, GENERATION and a waiting DISCARD (00_scope R13
  to R16). -/
  commits  : Tbl Commit
  /-- The stacked memory by device physical address (02_threads_address_spaces_ordering R46, Table 02-4; 10_stacked_memory R288
  to R291). -/
  mem      : Memory
  /-- The section scratchpads by section and local address (07_on_die_memories R211 to R218; zeroed by R38). -/
  spm      : Memory
  /-- The threads that run: s0 to s15, v0 to v3 with tag and zero flags, a0, p0 to p3, pc, generator, speculation, what each
  waits for, its pending register writes and MAC products (03_thread_instruction_set Table 03-1, R90, R96;
  02_threads_address_spaces_ordering Table 02-2). -/
  threads  : Tbl Thread
  /-- The step counter of each core, the occupation of its MAC unit and the thread that issued last (03_thread_instruction_set
  R93, R95, R97). -/
  cores    : Tbl CoreSt
  /-- The launches: grid, packet fields, townships held, dispatch and gather descriptors, counts and stage
  (02_threads_address_spaces_ordering R32 to R41; 15_scheduling_residency_preemption R430 to R449). -/
  launches : Tbl Launch
  /-- Each section: the token records of its inbox, the current layer of each expert, its four shadow slots, its waiting
  scratchpad requests and who last won each bank (05_expert_dispatch_speculation R150 to R175; 07_on_die_memories R211 to R218).
  -/
  sections : Tbl SectionSt
  /-- Each township: cache sets with pseudo-LRU bits, eviction buffers, outstanding line requests, contention counters,
  translation caches of the township and of its sections, plat cache, dispatch ledger, hints and rows under way, predictor,
  cadastre cache, gather streams, save image, returns ledger, the state of its array test with the block under test, wake state
  and wake buffers (spec/05 R153, R159; spec/06 R201 to R208; spec/07 R220 to R232; spec/08 R236 to R256; spec/09 R282; spec/15
  R441 to R449). -/
  ships    : Tbl Township
  /-- The home directories: vector, state, parcel, easement bit, age and transaction of every entry (08_coherence R238 to R248,
  Table 08-4). -/
  dir      : Tbl DirEntry
  /-- The requests that wait behind a busy line at its home, in order of arrival (08_coherence R240). -/
  waitq    : Tbl (List Msg)
  /-- The grants of the present window of each channel: by channel × 64 + master, and their total by 24,576 + channel
  (16_parcels_easements_shares R475, R476).
  (DESIGN CHOICE: log entry 73.) -/
  slots    : Tbl Nat
  /-- The coherence messages that are on the fabric, each with its header fields: route, slack, tolerance and order
  (08_coherence Table 08-3; 09_fabric_packets_routing R268 to R284). -/
  net      : List Msg
  /-- The token packets that are on the fabric, each with its header fields and the zero maps of its data units
  (05_expert_dispatch_speculation R151 to R156; spec/09 Table 09-3, R271). -/
  toks     : List Tok
  /-- The counters of the routers, by station and counter (09_fabric_packets_routing, the NOC_CNT registers). -/
  routers  : Tbl Nat
  /-- Whether the start-up has written the default bearing tables (09_fabric_packets_routing R275, R279;
  19_startup_training_yield Table 19-1). -/
  tables   : Bool
  /-- The memory controllers in self-refresh, and whether each is waking (20_power_heat_traverse R546). -/
  engSleep : Tbl Bool
  /-- The packets that the spokes of memory controllers in self-refresh hold while they wake (09_fabric_packets_routing R282). -/
  engHeld  : Tbl (List HeldPkt)
  /-- Old values of lines that have been written, newest first: the model's own field, by which a running launch may still fetch an
  instruction word as it was (02_threads_address_spaces_ordering R41; log entry 21). -/
  code     : List (Nat × Nat)
  /-- By thread, the acquire of narrow scope that no release has met: the model's own field, by which the thread's next load may read an old
  value (02_threads_address_spaces_ordering R61; log entry 22). -/
  stale    : Tbl Stale
  /-- The memory accesses of threads and engines that are not yet answered (02_threads_address_spaces_ordering R56 to R66;
  08 R236). -/
  accs     : Tbl Acc
  /-- The command queues: owner, rings, fetch index, tail, ordinal, state, fetched commands with their stage, signals and
  submissions (14_commands_shared_objects R399 to R407, R423). -/
  queues   : Tbl Queue
  /-- The queue groups: function and doorbell page (14_commands_shared_objects R421). -/
  groups   : Tbl Group
  /-- The contexts: generation, parcel, function, PASID, page-table root, host window base, event ring, state, fault record and
  the host references they hold (14_commands_shared_objects R418 to R420, R429; 02 R47 to R54). -/
  ctxs     : Tbl Context
  /-- The last generation given to each context, memory object and fence number (14_commands_shared_objects R418, R424, R426).
  -/
  gens     : Tbl Nat
  /-- The memory objects and weight sets (14_commands_shared_objects R424, R425; 15 R450 to R456). -/
  objs     : Tbl MemObj
  /-- The fence objects: owner and the place of the word (14_commands_shared_objects R426 to R428; 02 R68 to R74). -/
  fences   : Tbl FenceObj
  /-- The sequence table (06_sequences_cadastre Table 06-1). -/
  seqs     : Tbl Seq
  /-- The cadastre entries (06_sequences_cadastre Table 06-2, R187 to R198). -/
  cad      : Tbl CadEntry
  /-- The batches of each parcel: whether a step is open, and the step count (06_sequences_cadastre R188 to R191). -/
  batches  : Tbl Batch
  /-- The next ORDER of each parcel (06_sequences_cadastre R187). -/
  orders   : Tbl Nat
  /-- The frames of released sequences that gather streams still read (06_sequences_cadastre R197). -/
  freeing  : List Freeing
  /-- The parcels: townships, sites, granules, mapped easements, and whether their coherent domain is down
  (16_parcels_easements_shares R465 to R471; 08 R259). -/
  parcels  : Tbl Parcel
  /-- The easements: size, map, bound weight set (16_parcels_easements_shares R472 to R474). -/
  eases    : Tbl Easement
  /-- The event ring of each function (14_commands_shared_objects R429). -/
  fnEvents : Tbl EventRing
  /-- The PCIe functions: enables, D-state, TDI state, configuration words, Translation Requests, dirty-map cache
  (13_host_link_virtual_functions R376 to R398). -/
  fns      : Tbl FnSt
  /-- The chiplet sites: sideband registers, credits, site record, WORK, token copies, XINV, CANCEL and flits outstanding
  (11_chiplet_sites R319 to R334; 12_belnik_endpoint R338 to R369). -/
  sites    : Tbl SiteSt
  /-- The site configuration that the last start-up took (11_chiplet_sites R317, R318). -/
  siteCfgs : Tbl Nat
  /-- The poison list: for each 64 KiB page whether it is listed, being reloaded or to be restarted
  (21_faults_containment_reporting R566 to R573). -/
  poison   : Tbl Nat
  /-- The 64-byte bursts whose codeword in the stack is bad, by DPA div 64 (10_stacked_memory R299). -/
  badBursts : List Nat
  /-- The error log, newest first (21_faults_containment_reporting R574). -/
  errlog   : List ErrRec
  /-- The count of start-ups (19_startup_training_yield Table 19-3). -/
  starts   : Nat
  /-- The sequence number of the trace (22_telemetry_trace_debug R580). -/
  traceSeq : Nat
  /-- The two key slots of each easement (17_confidential_operation_keys R493, R506 to R510). -/
  keys     : Tbl KeySlots
  /-- The fuse words burned since the model began; the others are the part (Config.fuse) (18_life_cycle_debug R516 to R519,
  Table 18-2). -/
  fuses    : Tbl Nat
  /-- The digest of the erase attestation that is current (18_life_cycle_debug R525, R526). -/
  attest   : Option Nat
  /-- The digest of the last signed SPDM response, which an ML-DSA-65 request may follow (17_confidential_operation_keys R490,
  R495). -/
  lastSig  : Option Nat
  /-- The GET_MEASUREMENTS that waits for the reports of sites: its index and nonce (17_confidential_operation_keys R497). -/
  spdm     : Option (Nat × Nat)
  /-- The stage of leaving confidential mode (17_confidential_operation_keys R503, R504). -/
  leave    : Nat
  /-- The two key sets of each IDE stream, which one is started, and its address association ranges (13_host_link_virtual_functions R393). -/
  ide      : Tbl IdeSt
  /-- The DOE mailbox of the PF (13_host_link_virtual_functions R392; 17_confidential_operation_keys R489). -/
  doe      : Doe
  /-- The address translation cache of the host link, 4,096 entries (13_host_link_virtual_functions R389). -/
  atc      : List AtcEntry
  /-- The read requests of threads on the host link that have not returned, by access (13_host_link_virtual_functions R371, R390). -/
  hostOut  : Tbl HostRd
  /-- What engines have to send on the host link and hold back until its translation has come, in order (13_host_link_virtual_functions
  R387, R389). -/
  hostWait : List HostPend
  /-- The Invalidation Requests that are not completed (13_host_link_virtual_functions R390). -/
  invals   : List AtsInval
  /-- The benchmark record in force (19_startup_training_yield R534 to R536). -/
  recNow   : BmRec
  /-- The first stored copy of the benchmark record (19_startup_training_yield R534 to R536). -/
  recA     : Option BmRec
  /-- The second stored copy of the benchmark record (19_startup_training_yield R534 to R536). -/
  recB     : Option BmRec
  /-- Whether a write of the record is due (19_startup_training_yield R535). -/
  recDue   : Bool
  /-- The bad units with which the map from logical to physical units was set at the last start-up (01_hub_and_module R23; 19 R539). -/
  units    : Units
  /-- The firmware images written since the model began, by slot and component, each an envelope's bytes; the others are the part's
  (22_telemetry_trace_debug R584, Table 22-5). -/
  flash    : Tbl (List Byte)
  /-- The measurement blocks 1 to 4, computed at step 2 of the start-up (17_confidential_operation_keys Table 17-3; 19 Table 19-1). -/
  meas     : List Nat
  /-- The certificate chain of SPDM slot 0: root, identity, alias (17_confidential_operation_keys R494). -/
  certs    : List Cert
  /-- Where a start-up stands (19_startup_training_yield Table 19-1, R529 to R533). -/
  boot     : Boot
  /-- Whether VIN48 is in range (23_module_electrical_mechanical R590). -/
  vin48    : Bool
  /-- Whether the next success on the PF function queue answers OK_DEGRADED (19_startup_training_yield R542). -/
  degraded : Bool
  /-- The power samples, comparisons over budget, throttle levels, frame count and POOL state (20_power_heat_traverse R547 to
  R559). -/
  power    : Power
  /-- The firmware update in progress (22_telemetry_trace_debug R584 to R586). -/
  fwu      : Fwu
  /-- The NO_ENTRY and TAG_DROP counts of the interfaces other than townships', by endpoint × 2 + kind; no register shows them
  (09_fabric_packets_routing R279). -/
  niDrops  : Tbl Nat
  /-- The host's accesses through BAR0 and BAR4 that wait for the end of a slice, in order of arrival (10_stacked_memory R305, R306). -/
  hostHeld : List Instr
  /-- Retraining: the channels that wait and the phase of each, temperatures and CE counts at the last training, requests kept at their source,
  the hold store's order and the write buffer (10_stacked_memory R300 to R303). -/
  retrain  : Retrain
  /-- Whether PERST# is asserted (13_host_link_virtual_functions R375; 23 R591). -/
  pcieHeld : Bool
  /-- What the hub has sent out, newest first: the model's own field (no rule; log entries 5 and 85). -/
  out      : List Out
  /-- The counter that free values are taken by: the model's own field (no rule; log entry 5). -/
  free     : Nat
  /-- The counter that orders events: the model's own field (no rule; log entry 5). -/
  tick     : Nat
  deriving DecidableEq, Repr

/-- The hub right after reset: every register reads the reset value of its table (`regReset`), memory and every table list
nothing, and the factory benchmark record stands (R534). What the spec gives no reset value for is named in the log.
(DESIGN CHOICE: log entries 7, 8, 9, 89.) -/
def State.reset : State :=
  { pending := [], regs := [], shadow := [], commits := [], mem := Memory.empty, spm := Memory.empty,
    threads := [], cores := [], launches := [], sections := [], ships := [], dir := [], waitq := [], slots := [], net := [], toks := [], routers := [],
    tables := false, engSleep := [], engHeld := [], code := [], stale := [],
    accs := [], queues := [], groups := [], ctxs := [], gens := [], objs := [], fences := [], seqs := [], cad := [], batches := [], orders := [], freeing := [], parcels := [], eases := [],
    fnEvents := [], fns := [], sites := [], siteCfgs := [], poison := [], badBursts := [], errlog := [], starts := 0, traceSeq := 0,
    keys := [], fuses := [], attest := none, lastSig := none, spdm := none, leave := 0, ide := [], doe := ⟨[], [], none, false⟩, atc := [], hostOut := [], hostWait := [], invals := [], recNow := BmRec.factory, recA := none, recB := none, recDue := false,
    units := ⟨[], [], []⟩, flash := [], meas := [], certs := [],
    boot := ⟨0, false, false, false, none, 0, []⟩, vin48 := true, degraded := false, power := ⟨[], 0, [], 0, false⟩, fwu := ⟨false, [], []⟩,
    niDrops := [], hostHeld := [], retrain := ⟨[], [], [], [], [], [], []⟩, pcieHeld := true,
    out := [], free := 0, tick := 0 }

end Sys2Proof.Machine
end

