-- ==== Sys2Proof/Machine/Ops.lean ====
section
/-! DEFINITION. The named operations over the state: free values, block registers and counters, townships, sections and
cores by number, and the coherent view of memory. -/

namespace Sys2Proof.Machine

/-! ### Free values and what leaves the block -/

/-- A free number and the state that has used it.
(DESIGN CHOICE: log entry 5.) -/
def State.freshNat (s : State) : Nat × State := (Config.freeNat s.free, { s with free := s.free + 1 })

/-- A free number below n (0 where n is 0).
(DESIGN CHOICE: log entry 5.) -/
def State.pick (s : State) (n : Nat) : Nat × State := (Config.freeNat s.free % n, { s with free := s.free + 1 })

/-- A free choice between two outcomes.
(DESIGN CHOICE: log entry 5.) -/
def State.flip (s : State) : Bool × State := (Config.freeNat s.free % 2 == 1, { s with free := s.free + 1 })

/-- A message out of the block, newest first.
(DESIGN CHOICE: log entries 5, 85.) -/
def State.emit (s : State) (o : Out) : State := { s with out := o :: s.out }

/-- The next number of the order in which things happen.
(DESIGN CHOICE: log entry 5.) -/
def State.stamp (s : State) : Nat × State := (s.tick, { s with tick := s.tick + 1 })

/-! ### Block registers -/

/-- The word of a register: what it holds, or its reset value. -/
def State.reg (s : State) (off : Nat) : W64 := s.regs.getD off (regReset off)

/-- A register word written. -/
def State.setReg (s : State) (off : Nat) (v : W64) : State := { s with regs := s.regs.set off v }

/-- Bits [hi:lo] of a register. -/
def State.fieldOf (s : State) (off hi lo : Nat) : Nat := fld (s.reg off).toNat hi lo

/-- Bits [hi:lo] of a register written. -/
def State.setField (s : State) (off hi lo x : Nat) : State :=
  s.setReg off (BitVec.ofNat 64 (putFld (s.reg off).toNat hi lo x))

/-- One bit of a register. -/
def State.bit (s : State) (off i : Nat) : Bool := (s.reg off).toNat.testBit i

/-- One bit of a register written. -/
def State.setBit (s : State) (off i : Nat) (b : Bool) : State := s.setField off i i (b2n b)

/-- A field advanced by n, saturating. -/
def State.addSat (s : State) (off hi lo n : Nat) : State :=
  s.setField off hi lo (satAdd (hi + 1 - lo) (s.fieldOf off hi lo) n)

/-- A field advanced by n, wrapping. -/
def State.addWrap (s : State) (off hi lo n : Nat) : State := s.setField off hi lo (s.fieldOf off hi lo + n)

/-- Whether confidential mode is on (SEC_STATUS).
(DEDUCED: log entry 68.) -/
def State.confidential (s : State) : Bool := s.bit Reg.secStatus 0

/-- A counter advanced by n, wrapping at 2^64. -/
def State.count (s : State) (off n : Nat) : State := s.addWrap off 63 0 n

/-- A transit counter advanced by n: it holds its value while confidential mode is on (R176, R233, R262). -/
def State.transit (s : State) (off n : Nat) : State := if s.confidential then s else s.count off n

/-! ### Staged tables reached through a SEL register: offsets above BAR0 -/

/-- The entry of a parcel's plat (R464). -/
def platKey (p g : Nat) : Nat := 0x100000000 + p * 0x40000 + g
/-- The entry of a parcel's expert route table (R146). -/
def erouteKey (p e : Nat) : Nat := 0x200000000 + p * 0x1000 + e
/-- The entry of an interface's bearing table (R275). -/
def bearKey (ni dest : Nat) : Nat := 0x300000000 + ni * 0x400 + dest
/-- A slot of the channel map (R290). -/
def cmapKey (slot : Nat) : Nat := 0x400000000 + slot

/-! ### Units by number -/

def State.ship (s : State) (t : Nat) : Township := s.ships.getD t Township.empty
def State.setShip (s : State) (t : Nat) (x : Township) : State := { s with ships := s.ships.set t x }
def State.modShip (s : State) (t : Nat) (f : Township → Township) : State := s.setShip t (f (s.ship t))

/-- Section state by the number township × 64 + section. -/
def State.sect (s : State) (k : Nat) : SectionSt := s.sections.getD k SectionSt.empty
def State.setSect (s : State) (k : Nat) (x : SectionSt) : State := { s with sections := s.sections.set k x }
def State.modSect (s : State) (k : Nat) (f : SectionSt → SectionSt) : State := s.setSect k (f (s.sect k))

/-- Core state by the number township × 4,096 + section × 64 + core. -/
def State.core (s : State) (k : Nat) : CoreSt := s.cores.getD k CoreSt.empty
def State.setCore (s : State) (k : Nat) (x : CoreSt) : State := { s with cores := s.cores.set k x }

/-- The parts of a global thread number (R22). -/
def shipOf (t : Nat) : Nat := t / 16384
def sectOf (t : Nat) : Nat := t / 256
def coreOf (t : Nat) : Nat := t / 4
def gtn (ship sec core th : Nat) : Nat := ship * 16384 + sec * 256 + core * 4 + th

def State.setThread (s : State) (t : Nat) (x : Thread) : State := { s with threads := s.threads.set t x }
def State.modThread (s : State) (t : Nat) (f : Thread → Thread) : State :=
  match s.threads.get? t with
  | some x => s.setThread t (f x)
  | none => s

def State.setLaunch (s : State) (l : Nat) (x : Launch) : State := { s with launches := s.launches.set l x }
def State.modLaunch (s : State) (l : Nat) (f : Launch → Launch) : State :=
  match s.launches.get? l with
  | some x => s.setLaunch l (f x)
  | none => s

def State.setQueue (s : State) (q : Nat) (x : Queue) : State := { s with queues := s.queues.set q x }
def State.modQueue (s : State) (q : Nat) (f : Queue → Queue) : State :=
  match s.queues.get? q with
  | some x => s.setQueue q (f x)
  | none => s

def State.setCtx (s : State) (c : Nat) (x : Context) : State := { s with ctxs := s.ctxs.set c x }
def State.modCtx (s : State) (c : Nat) (f : Context → Context) : State :=
  match s.ctxs.get? c with
  | some x => s.setCtx c (f x)
  | none => s

/-- The context a handle names: number in bits [11:0], generation in bits [15:12] (R418). -/
def State.ctxOf (s : State) (h : Nat) : Option Context :=
  match s.ctxs.get? (h % 4096) with
  | some c => if c.gen = h / 4096 then some c else none
  | none => none

/-- The handle of a context number. -/
def ctxHandle (n : Nat) (c : Context) : Nat := n + c.gen * 4096

/-- The parcel that holds a township, leaving ones included. -/
def State.parcelOfShip (s : State) (t : Nat) : Option Nat :=
  (s.parcels.find? (fun e => e.2.ships.contains t)).map Prod.fst

/-- Whether a township of a parcel stands under a debug halt, for whose resume other actions on the parcel wait (R583). -/
def State.parcelHalted (s : State) (p : Nat) : Bool :=
  match s.parcels.get? p with
  | some x => x.ships.any (fun t => (s.ship t).halted)
  | none => false

/-- The parcel that holds a site (R27). -/
def State.parcelOfSite (s : State) (n : Nat) : Option Nat :=
  (s.parcels.find? (fun e => e.2.sites.contains n)).map Prod.fst

/-! ### Bad units and the map from logical to physical units (R23, R537 to R539) -/

/-- A word of the fuse map: 0 the life-cycle word, 1 to 4 the identity, 5 the ENROLLED bits, 6 to 23 the three copies of OWNER, 24 the
security versions, 25 the stepping, 26 the Skasol signer, 1,000 + u whether unit u is bad.
(DESIGN CHOICE: log entry 11.) -/
def State.fuseW (s : State) (w : Nat) : Nat := s.fuses.getD w (Config.fuse w)

/-- Units by number: townships 0 to 259, then sections, then cores. -/
def unitT (t : Nat) : Nat := t
def unitS (k : Nat) : Nat := 260 + k
def unitC (k : Nat) : Nat := 260 + 17160 + k
def State.fuseBad (s : State) (u : Nat) : Bool := s.fuseW (1000 + u) != 0

/-- Bad cores of a physical section, bad sections of a physical township, and bad townships, bottom up (R538), for a learned map. -/
def State.badCores (s : State) (u : Units) (k : Nat) : Nat :=
  ((upTo 66).filter (fun c => s.fuseBad (unitC (66 * k + c)) || u.cores.contains (66 * k + c))).length
def State.badSection (s : State) (u : Units) (k : Nat) : Bool := s.fuseBad (unitS k) || u.sects.contains k || decide (2 < s.badCores u k)
def State.badSections (s : State) (u : Units) (t : Nat) : List Nat := (upTo 66).filter (fun i => s.badSection u (66 * t + i))
def State.badShip (s : State) (u : Units) (t : Nat) : Bool :=
  s.fuseBad (unitT t) || u.ships.contains t || decide (2 < (s.badSections u t).length)

/-- The bad units of the record's learned map. -/
def BmRec.units (r : BmRec) : Units := ⟨r.badT, r.badS, r.badC⟩

/-- The physical township of a logical one: 10 × X + Y (R552).
(DEDUCED: log entry 39.) -/
def State.physOf (s : State) (t : Nat) : Nat := 10 * s.fieldOf (Reg.nocCoord t) 4 0 + s.fieldOf (Reg.nocCoord t) 11 8

/-- The physical sections of a logical township, by logical number, and the physical cores of a physical section (R539): the good ones in
ascending order. -/
def State.physSects (s : State) (t : Nat) : List Nat :=
  ((upTo 66).filter (fun i => !s.badSection s.units (66 * s.physOf t + i))).take 64
def State.physCores (s : State) (k : Nat) : List Nat :=
  ((upTo 66).filter (fun c => !(s.fuseBad (unitC (66 * k + c)) || s.units.cores.contains (66 * k + c)))).take 64

/-- The logical section of a township that a physical one serves as, if it does. -/
def State.sectOfPhys? (s : State) (t i : Nat) : Option Nat :=
  (upTo (s.physSects t).length).find? (fun j => (s.physSects t).getD j 66 == i)

/-! ### HBM and the channel map (R288, R291) -/

/-- Healthy channels N. -/
def State.healthy (s : State) : Nat := s.fieldOf Reg.memCap 8 0
/-- HBM capacity in bytes (R45). -/
def State.hbmTop (s : State) : Nat := s.healthy * 2 * 2 ^ 30
/-- First byte of the reserved range (R291). -/
def State.rsvBase (s : State) : Nat := (2 * s.healthy - 8) * 2 ^ 30

/-- The slot and row of a DPA. -/
def State.slotOf (s : State) (dpa : Nat) : Nat := (dpa / 4096) % s.healthy
/-- The channel of a DPA: the channel map's entry of its slot (R288). -/
def State.channelOf (s : State) (dpa : Nat) : Nat :=
  fld (s.regs.getD (cmapKey (s.slotOf dpa)) (BitVec.ofNat 64 ((s.slotOf dpa) % 12 * 32 + (s.slotOf dpa) / 12))).toNat 8 0

/-- Bays of the weight pool (CMD_WPOOL_CFG). -/
def State.poolBays (s : State) : List Nat :=
  (upTo (s.fieldOf Reg.cmdWpoolCfg 25 16)).map (fun k => s.fieldOf Reg.cmdWpoolCfg 9 0 + k)

/-- The owner code of a granule (Table 16-1). -/
def State.granOwner (s : State) (g : Nat) : Nat :=
  if 2 * s.healthy ≤ g then 0x1F
  else if 2 * s.healthy - 8 ≤ g then 0x12
  else match s.parcels.find? (fun p => p.2.grans.contains g) with
    | some p => p.1
    | none => if s.poolBays.contains g then 0x11 else 0x10

/-- The site whose chiplet window holds a DPA (Table 02-4).
(DESIGN CHOICE: log entry 48.) -/
def windowSite? (dpa : Nat) : Option Nat :=
  let n := dpa / 2 ^ 40
  if 1 ≤ n ∧ n ≤ 8 then some (n - 1) else none

/-- Whether a DPA names nothing (R45, R46), or lies in the window of a chiplet that advertises WINDOW 0 (R355). -/
def State.dpaAbsent (s : State) (dpa : Nat) : Bool :=
  if dpa < 2 ^ 40 then decide (s.hbmTop ≤ dpa)
  else match windowSite? dpa with
    | some n => !(((s.sites.getD n SiteSt.empty).sb.getD 8 0).toNat.testBit 14)
    | none => true

/-! ### The error log (R574) -/

/-- One record of an error of Table 21-2; the log keeps the newest 512. A confidential hub hides the address.
(DEDUCED: log entry 81.) -/
def State.record (s : State) (cause cls parcel addr unit kind detail : Nat) : State :=
  let seq := s.fieldOf Reg.rasStatus 63 32
  let r : ErrRec := ⟨seq, cause, cls, parcel, if s.confidential then 0 else addr, unit, kind, detail, s.starts⟩
  ({ s with errlog := (r :: s.errlog).take 512 }).setField Reg.rasStatus 63 32 (seq + 1)

/-! ### Caches and the coherent view of a line -/

/-- The set of a township cache that a line belongs to (R220). -/
def cacheSetOf (line : Nat) : Nat := (fld (line * 128) 15 7) ^^^ (fld (line * 128) 24 16)

/-- The way of a township's cache that holds a line. -/
def Township.way? (x : Township) (line : Nat) : Option (Nat × Way) :=
  ((x.sets.getD (cacheSetOf line) CacheSet.empty).ways).find? (fun w => w.2.line == line && w.2.st != .I)

/-- Whether a channel is FAILED: its reads give zero data with POISON and its writes are discarded (R298).
(DEDUCED: log entry 39.) -/
def State.failedAt (s : State) (dpa : Nat) : Bool := s.fieldOf (Reg.memCh (s.channelOf dpa)) 2 0 == 3

/-- n bytes of memory at a DPA, as a number. -/
def State.memN (s : State) (dpa n : Nat) : Nat := if s.failedAt dpa then 0 else s.mem.readN dpa n

/-- A line's bytes in memory, as a number. -/
def State.memLine (s : State) (line : Nat) : Nat := s.memN (line * 128) 128

/-- Whether an eviction buffer of an agent holds the line's value still: its WB has not reached the home, or the home has sent it a forward or a
recall (R249). A copy that the home has settled is old. -/
def State.liveBuf (s : State) (a line : Nat) : Bool :=
  match s.dir.get? line with
  | some e =>
    (match e.st with
     | .X => e.vec.getLsbD a
     | .B => (match e.txn with | some x => x.fwdTo == some a || (x.evict && x.dataH && e.vec.getLsbD a) | none => false)
     | .S => false)
  | none => false

/-- A modified copy of a line in the cache or an eviction buffer of township t. -/
def State.dirty? (s : State) (t : Nat) (x : Township) (line : Nat) : Option (Nat × Bool) :=
  match x.way? line with
  | some (_, w) => if w.st = .M then some (w.data, w.poison) else none
  | none => if s.liveBuf t line then (x.evb.find? (fun b => b.line == line && b.st == .M)).map (fun b => (b.data, b.poison)) else none

/-- A copy of a line on its way to a requester that took it dirty, or on its way to its home. -/
def State.inFlight? (s : State) (line : Nat) : Option (Nat × Bool) :=
  (s.net.find? (fun m => m.dpa / 128 == line &&
    ((m.kind == .data && m.grant == .M) || m.kind == .dataH))).bind (fun m => m.pay.map (fun v => (v, m.poison)))

/-- A dirty grant that an agent has received and not yet used. -/
def Township.granted? (x : Township) (line : Nat) : Option (Nat × Bool) :=
  (x.misses.find? (fun e => e.2.line == line)).bind (fun e => e.2.got.bind (fun m => if m.grant = .M then m.pay.map (fun v => (v, m.poison)) else none))

/-- A modified copy of a line that the hub holds, with its poison mark. -/
def State.held? (s : State) (line : Nat) : Option (Nat × Bool) :=
  (s.ships.findSome? (fun e => (s.dirty? e.1 e.2 line).orElse (fun _ => e.2.granted? line))).orElse (fun _ => s.inFlight? line)

/-- Whether a chiplet's agent has still to send a line it is asked for: the forward or recall is on its way to it, or its answer is owed. -/
def State.chipletOwes (s : State) (line : Nat) : Bool :=
  s.net.any (fun m => m.dpa / 128 == line && (m.kind == .fwdS || m.kind == .fwdX || m.kind == .rcl) &&
    (match m.dst with | .agent a => decide (256 ≤ a) | _ => false)) ||
  s.sites.any (fun x => x.2.owed.any (fun o => (o.1 == 0x10 || o.1 == 0x11) && decide (256 ≤ o.2.1) && decide (o.2.1 < 288) && o.2.2.2 == line))

/-- The writes of the hub's own engines that wait at the home of a line, the oldest first.
(DESIGN CHOICE: log entry 26.) -/
def State.hubWrites (s : State) (line : Nat) : List Msg :=
  ((match (s.dir.get? line).bind (fun e => e.txn) with | some x => if x.free && !x.evict then [x.req] else [] | none => []) ++ s.waitq.getD line []).filter
    (fun m => (m.kind == .wrU || m.kind == .atN) && (match m.src with | .hub n => decide (8 ≤ n) | _ => false))

/-- A line as a waiting write of an engine leaves it: the bytes written, or the word raised. -/
def hubApply (d : Nat) (m : Msg) : Nat :=
  if m.size = 0 then d
  else
    let hi := 8 * (m.dpa % 128 + m.size) - 1
    let lo := 8 * (m.dpa % 128)
    putFld d hi lo (if m.kind = .atN then max (fld d hi lo) (m.pay.getD 0) else m.pay.getD 0)

/-- The latest value of a line (R57): a modified copy where the hub holds one, else memory's, with the writes of engines that wait at the home
over it. Where a chiplet agent owns the line, or has still to send it, the value is the chiplet's and is free.
(DESIGN CHOICE: log entry 26.) -/
def State.latest (s : State) (line : Nat) : Nat :=
  let base := match s.held? line with
    | some d => d.1
    | none =>
      match s.dir.get? line with
      | some e => if (e.st = .X && (e.vec.toNat >>> 256) ≠ 0) || s.chipletOwes line then Config.freeNat (s.free + line) % 2 ^ 1024 else s.memLine line
      | none => s.memLine line
  (s.hubWrites line).foldl hubApply base

/-- n bytes of the coherent view from a DPA, as a number.
(DESIGN CHOICE: log entry 26.) -/
def State.cohRead (s : State) (dpa : Nat) : Nat → Nat
  | 0 => 0
  | n + 1 => fld (s.latest (dpa / 128)) (dpa % 128 * 8 + 7) (dpa % 128 * 8) + 256 * State.cohRead s (dpa + 1) n

/-- Whether a read of memory at a DPA carries POISON: its page is on the poison list (R566, R567; pages are 64 KiB), the stack reports
its burst (R299), or its channel is FAILED (R298).
(DEDUCED: log entry 43.) -/
def State.memPoisoned (s : State) (dpa : Nat) : Bool := s.poison.has (dpa / 65536) || s.badBursts.contains (dpa / 64) || s.failedAt dpa

/-- Whether the coherent view at a DPA carries POISON: by the mark of a modified copy, or by memory's (R567).
(DEDUCED: log entry 43.) -/
def State.poisoned (s : State) (dpa : Nat) : Bool :=
  match s.held? (dpa / 128) with
  | some d => d.2
  | none => s.memPoisoned dpa

/-- Whether any burst of a run of bytes carries POISON (R299). -/
def State.spanPoisoned (s : State) (dpa n : Nat) : Bool :=
  (upTo ((dpa + n + 63) / 64 - dpa / 64)).any (fun i => s.poisoned (dpa / 64 * 64 + 64 * i))

/-- The old value of a line that is about to be written, kept while launches run: they may still fetch the words as they were (R41).
(DEDUCED: log entry 21.) -/
def State.note (s : State) (line : Nat) : State :=
  if s.launches.isEmpty then s else { s with code := (line, s.latest line) :: s.code }

/-- Whether a channel is in a retraining slice, so that its requests are held (R302).
(DEDUCED: log entry 39.) -/
def State.channelHeld (s : State) (c : Nat) : Bool := s.fieldOf (Reg.memCh c) 2 0 == 2

/-- Whether a run of bytes touches a channel that is in a slice: an engine's read of it waits (R302). -/
def State.spanHeld (s : State) (dpa n : Nat) : Bool :=
  decide (dpa < 2 ^ 40) && (upTo ((dpa + n - 1) / 4096 + 1 - dpa / 4096)).any (fun i => s.channelHeld (s.channelOf (dpa / 4096 * 4096 + 4096 * i)))

/-- Bytes written in memory at a DPA: discarded and counted on a FAILED channel (R298); a burst that is written whole replaces a bad codeword
(R299). -/
def State.memWrite (s : State) (dpa n v : Nat) : State :=
  if s.failedAt dpa then s.transit (Reg.memCnt (s.channelOf dpa) 5) 1
  else { s with
    mem := s.mem.writeN dpa n v
    badBursts := s.badBursts.filter (fun b => !(decide (dpa ≤ 64 * b) && decide (64 * b + 64 ≤ dpa + n))) }

/-- Whether the unit behaves as SCRAPPED. -/
def State.scrapped (s : State) : Bool := s.fieldOf Reg.lcsStatus 2 0 == 4

/-- Whether BAR0 serves an offset now: before READY only the GLB block (and the LCS block where the start-up failed, R529), and in SCRAPPED only GLB_ID, GLB_STATUS and the LCS
block. The hub's own parties are not held back. -/
def State.served (s : State) (p : Party) (off : Nat) : Bool :=
  match p with
  | .fn _ =>
    if s.scrapped then off / 8 == 0 || off / 8 == 2 || off / 0x100000 == 0xB
    else s.bit Reg.glbStatus 0 || decide (off < 0x100000) || (s.fieldOf Reg.glbBootStat 7 4 != 0 && off / 0x100000 == 0xB)
  | _ => true

/-- Whether a write of the driver to a register outside the GLB block takes effect: READY is 1 (R377), and the part is not scrapped (R517). -/
def State.driverRow (s : State) : Bool := s.bit Reg.glbStatus 0 && !s.scrapped

/-- The address of a place in the reserved range (Table 10-8). -/
def State.rsv (s : State) (off : Nat) : Nat := s.rsvBase + off
def cadOff (e : Nat) : Nat := 0x100000000 + 16 * e
def seqOff (n : Nat) : Nat := 0x104000000 + 64 * n
def platOff (p g : Nat) : Nat := 0x106000000 + p * 0x200000 + 8 * g
def objOff (n : Nat) : Nat := 0x108000000 + 32 * n
def fenceOff (n : Nat) : Nat := 0x10A000000 + 16 * n
def saveOff (t : Nat) : Nat := t * 0x1000000

/-- The records of context n and of queue n, in a region of 16 MiB that the hub lays out for itself.
(DESIGN CHOICE: log entry 101.) -/
def ctxOff (n : Nat) : Nat := 0x10B000000 + 64 * (Config.recordPlace n % 2 ^ 18)
def queueOff (n : Nat) : Nat := ctxOff (4096 + n)

/-- Whether a read of the reserved range meets a FAILED channel: an uncorrectable control error of the owning parcel (R298). -/
def State.rsvLost (s : State) (off : Nat) : Bool := s.failedAt (s.rsv off)

/-- Whether the record at a place that the hub chose is lost: there is a FAILED channel, and it lies on one. -/
def State.recordLost (s : State) (off : Nat) : Bool :=
  (upTo 384).any (fun c => s.fieldOf (Reg.memCh c) 2 0 == 3) && s.rsvLost off

end Sys2Proof.Machine
end

