-- ==== Sys2Proof/Machine/Link.lean ====
section
/-! DEFINITION. What the hub sends on the PCIe host link: writes with dirty logging (R395, R396), MSI-X messages (R384,
R386, R387), and the conditions of a host-window access (R384, R389). -/

namespace Sys2Proof.Machine

/-- No access: what a request names that serves no access of a thread, or one that is gone. -/
def noAcc : Nat := 2 ^ 64

def State.fn (s : State) (n : Nat) : FnSt := s.fns.getD n FnSt.empty
def State.modFn (s : State) (n : Nat) (f : FnSt → FnSt) : State := { s with fns := s.fns.set n (f (s.fn n)) }
def State.site (s : State) (n : Nat) : SiteSt := s.sites.getD n SiteSt.empty
def State.modSite (s : State) (n : Nat) (f : SiteSt → SiteSt) : State := { s with sites := s.sites.set n (f (s.site n)) }

/-! ### Links of the sites (R309 to R313) -/

/-- The configuration of a site that the last start-up took; a commit since does not change it (R317). -/
def State.siteConf (s : State) (n : Nat) : Nat := s.siteCfgs.getD n 0
def State.borrowN (s : State) (n : Nat) : Bool := (s.siteConf n).testBit 4
def State.borrowS (s : State) (n : Nat) : Bool := (s.siteConf n).testBit 5

/-- The home block of a site: its own modules that it does not lend (R312). -/
def State.homeBlock (s : State) (n : Nat) : List Nat :=
  let lo := if n % 4 ≠ 0 ∧ s.borrowS (n - 1) then 2 else 0
  let hi := if n % 4 ≠ 3 ∧ s.borrowN (n + 1) then 6 else 8
  (upTo (hi - lo)).map (fun i => 8 * n + lo + i)

/-- The modules of a link of width w, north to south (Table 11-1): number i of the link is the i-th. -/
def State.linkModules (s : State) (n w : Nat) : List Nat :=
  if w ≤ 4 then (s.homeBlock n).take w
  else if w = 8 then s.homeBlock n
  else (if s.borrowN n then [8 * n - 2, 8 * n - 1] else []) ++ s.homeBlock n ++ (if s.borrowS n then [8 * n + 8, 8 * n + 9] else [])

/-! ### Flits to a chiplet (R313, R341 to R346) -/

/-- The slots of a packet by kind and contents: its header, then two halves of each data unit, the low one first (R342). -/
def packetSlots (head : Nat) (data : List Nat) : List (Nat × Nat) :=
  (1, head) :: (data.map (fun u => [(2, u % 2 ^ 128), (2, u / 2 ^ 128)])).flatten

/-- SLOT_CTRL of some slots (Table 12-1): their kinds, and CONT where the first slot of a packet goes on with an earlier one. -/
def slotCtrl (l : List (Nat × Nat)) : Nat :=
  (l.zipIdx.map (fun e => e.1.1 * 4 ^ e.2)).sum + b2n ((l.find? (fun e => e.1 == 1 || e.1 == 2)).any (fun e => e.1 == 2)) * 2 ^ 30

/-- The link module that carries the next flit: in round-robin order, skipping those that are not active (R313). -/
def SiteSt.nextModule (x : SiteSt) : Nat := (((upTo 12).map (fun i => (x.txMod + i) % 12)).find? x.active.testBit).getD 0

/-- One flit sent to a chiplet: up to fifteen of the slots that wait, and empty ones after them (R341, R345). -/
def State.sendFlit (s : State) (n : Nat) : State :=
  let x := s.site n
  let now := x.txSlots.take 15
  let k := x.nextModule
  ((s.modSite n (fun y => { y with txSlots := y.txSlots.drop 15, txSeq := y.txSeq + 1, txMod := k + 1 })).transit (Reg.siteCnt n 0) 1).emit
    (.flit n ((s.linkModules n x.width).getD k 0) x.txSeq (slotCtrl now) (now.map Prod.snd ++ List.replicate (15 - now.length) 0))

/-- The full flits that the waiting slots of a site make sent, and the rest, where there is any, at once or with what follows, which is free. The
first number bounds the flits.
(DEDUCED: log entry 45.) -/
def State.sendFlits (s : State) (n : Nat) : Nat → State
  | 0 => s
  | k + 1 =>
    if (s.site n).txSlots.isEmpty then s
    else if 15 ≤ (s.site n).txSlots.length then (s.sendFlit n).sendFlits n k
    else
      let (waits, s1) := s.flip
      if waits then s1 else s1.sendFlit n

/-- Slots for a chiplet: those of a packet, or a control slot. -/
def State.toSite (s : State) (n : Nat) (slots : List (Nat × Nat)) : State :=
  (s.modSite n (fun x => { x with txSlots := x.txSlots ++ slots })).sendFlits n (slots.length + 2)

/-- Whether a site has credit for a packet of a class with a number of data units. -/
def SiteSt.credit (x : SiteSt) (cls units : Nat) : Bool := decide (1 ≤ x.credH.getD cls 0) && decide (units ≤ x.credD.getD cls 0)

/-- A list with the entry at a place changed. -/
def modAt (l : List Nat) (i : Nat) (f : Nat → Nat) : List Nat := l.mapIdx (fun j x => if j = i then f x else x)

/-- Credit used for a packet. -/
def SiteSt.spend (x : SiteSt) (cls units : Nat) : SiteSt :=
  { x with credH := modAt x.credH cls (fun v => v - 1), credD := modAt x.credD cls (fun v => v - units) }

/-- The TAG of what the adapter of a site sends: its parcel. -/
def State.parcelTag (s : State) (n : Nat) : Nat := (s.parcelOfSite n).getD 16

/-- A packet put in line for a chiplet. -/
def State.txPush (s : State) (n : Nat) (m : TxMsg) : State := s.modSite n (fun x => { x with tx := x.tx ++ [m] })

/-- The first waiting packet of a code sent, where there is credit for it. -/
def State.txGo (s : State) (n code : Nat) : State :=
  let x := s.site n
  match x.tx.find? (fun m => m.code == code) with
  | none => s
  | some m =>
    if x.credit m.cls m.data.length then
      (s.modSite n (fun y => { (y.spend m.cls m.data.length) with tx := y.tx.erase m })).toSite n (packetSlots m.head m.data)
    else s

/-- Every waiting TCOPY packet that has credit sent, in order. -/
def State.txCopies (s : State) (n : Nat) : Nat → State
  | 0 => s
  | k + 1 => (s.txGo n 0x20).txCopies n k

/-! ### Dirty-page logging -/

/-- The map that VF n logs into (ACTIVE in GLB_DIRTY_CTRL_n). -/
def State.activeMap (s : State) (n : Nat) : Nat :=
  if s.bit (Reg.glbDirtyCtrl n) 2 then (s.reg (Reg.glbDirtyMapB n)).toNat else (s.reg (Reg.glbDirtyMapA n)).toNat

/-- A word of the dirty cache written back to the active map, without PASID. -/
def State.dirtyFlush1 (s : State) (n w : Nat) : State :=
  match (s.fn n).dirty.get? w with
  | some v => (s.modFn n (fun f => { f with dirty := f.dirty.erase w })).emit
      (.hostWrite n none (s.activeMap n + 8 * w) (bytesOf 8 v))
  | none => s

/-- Every cached word written back (R397). -/
def State.dirtyFlush (s : State) (n : Nat) : State := (s.fn n).dirty.foldl (fun s e => s.dirtyFlush1 n e.1) s

/-- Bit i of the active map set: the whole word is read over the link, combined and held in the cache of 256 words (R396). What the host
holds in the word is free, and so is the word that makes room.
(DESIGN CHOICE: log entry 91.) -/
def State.dirtyMark (s : State) (n i : Nat) : State :=
  let w := i / 64
  let s1 := if (s.fn n).dirty.has w then s
    else
      let s0 := if (s.fn n).dirty.length < 256 then s
        else
          let (k, s') := s.pick (s.fn n).dirty.length
          s'.dirtyFlush1 n (((s'.fn n).dirty.keys).getD k 0)
      let (v, s2) := s0.freshNat
      (s2.emit (.hostRead n none (s2.activeMap n + 8 * w) 8 noAcc)).modFn n (fun f => { f with dirty := f.dirty.set w (v % 2 ^ 64) })
  s1.modFn n (fun f => { f with dirty := f.dirty.modify w (fun v => v ||| 2 ^ (i % 64)) })

/-- The 4 KiB pages of the logged range that a write touches (R395). -/
def State.dirtyLog (s : State) (n addr len : Nat) : State :=
  if 1 ≤ n ∧ s.bit (Reg.glbDirtyCtrl n) 0 ∧ 0 < len then
    let base := (s.reg (Reg.glbDirtyBase n)).toNat
    let pages := s.fieldOf (Reg.glbDirtyCtrl n) 63 32
    ((upTo ((addr + len - 1) / 4096 + 1 - addr / 4096)).map (fun k => addr / 4096 + k)).foldl (fun s p =>
      if base / 4096 ≤ p ∧ p < base / 4096 + pages then s.dirtyMark n (p - base / 4096) else s) s
  else s

/-- The largest payload and the largest read request of the link: those of the PF, between 128 bytes and the limits of Table 13-1 (R371). -/
def State.maxPayload (s : State) : Nat := max 128 (min 512 (s.fn 0).mps)
def State.maxRead (s : State) : Nat := max 128 (min 4096 (s.fn 0).mrrs)

/-- The write requests for a run of bytes: none longer than the largest payload, nor across a 4 KiB page (Table 13-1, R371); the first number bounds
them. -/
def State.writeTlps (s : State) (n : Nat) (pasid : Option Pasid) (xlat : Bool) : Nat → Nat → List Byte → State
  | 0, _, _ => s
  | k + 1, addr, bs =>
    let m := min s.maxPayload (4096 - addr % 4096)
    if bs.length ≤ m then s.emit (.hostWrite n pasid addr bs xlat)
    else State.writeTlps (s.emit (.hostWrite n pasid addr (bs.take m) xlat)) n pasid xlat k (addr + m) (bs.drop m)

/-- A memory write that the hub sends for a function (R388, R395) at an address, which `at_` replaces where it is translated (R389). -/
def State.hostWrite (s : State) (n : Nat) (pasid : Option Pasid) (addr : Nat) (bs : List Byte) (at_ : Option Nat := none) : State :=
  (s.writeTlps n pasid at_.isSome (bs.length / 128 + 3) (at_.getD addr) bs).dirtyLog n addr bs.length

/-- The PASID prefix of a context's requests (R388). -/
def pasidOf (p : Nat) : Option Pasid := some { num := p }

/-! ### MSI-X -/

/-- The key of a vector's table entry word: the PF's table lies in BAR0, a VF's in its own BAR0. -/
def msixKey (n v w : Nat) : Nat := if n = 0 then 0x3000000 + v * 16 + 8 * w else 0x500000000 + n * 0x10000 + 0x8000 + v * 16 + 8 * w
/-- The key of a pending-bit word. -/
def pbaKey (n v : Nat) : Nat := if n = 0 then 0x3008000 + v / 64 * 8 else 0x500000000 + n * 0x10000 + 0x8400

/-- An MSI-X vector sent when the function's MSI-X is enabled and Bus Master Enable is 1; a masked one sets its pending bit, as the standard
states (R384, R386). -/
def State.signalNow (s : State) (n v : Nat) : State :=
  if (s.fn n).msix then
    if (s.fn n).msixMask || ((s.regs.getD (msixKey n v 1) (BitVec.ofNat 64 (2 ^ 32))).toNat.testBit 32) then
      s.setReg (pbaKey n v) (s.regs.getD (pbaKey n v) 0 ||| BitVec.ofNat 64 (2 ^ (v % 64)))
    else if (s.fn n).bme then s.emit (.msix n v) else s
  else s

/-- A pending vector sent once it is not masked (R386: as the standard states).
(PRESUMED: log entry 49.) -/
def State.unmask (s : State) (n v : Nat) : State :=
  let p := s.regs.getD (pbaKey n v) 0
  if p.toNat.testBit (v % 64) && !((s.regs.getD (msixKey n v 1) (BitVec.ofNat 64 (2 ^ 32))).toNat.testBit 32) && (s.fn n).msix && !(s.fn n).msixMask && (s.fn n).bme then
    (s.setReg (pbaKey n v) (p &&& BitVec.ofNat 64 (2 ^ 64 - 1 - 2 ^ (v % 64)))).emit (.msix n v)
  else s

/-- The pending vectors of a function sent as far as nothing masks them. -/
def State.unmaskAll (s : State) (n : Nat) : State := (upTo (if n = 0 then 2048 else 64)).foldl (fun s v => s.unmask n v) s

/-- The function of what waits for a translation. -/
def HostPend.fnOf : HostPend → Nat
  | .write n _ _ _ _ => n
  | .msix n _ => n
  | .read n _ _ _ => n

/-- Whether what waits keeps its place among the writes of its function: reads do not. -/
def HostPend.posted : HostPend → Bool
  | .read _ _ _ _ => false
  | _ => true

/-- Whether writes of a function wait for a translation, so that what it sends after them waits behind them (R387). -/
def State.hostBusy (s : State) (n : Nat) : Bool := s.hostWait.any (fun p => p.posted && p.fnOf == n)

/-- An MSI-X vector signalled after every write that the message announces has been sent (R387). -/
def State.interrupt (s : State) (n v : Nat) : State :=
  if s.hostBusy n then { s with hostWait := s.hostWait ++ [.msix n v] } else s.signalNow n v

/-! ### Host-window accesses -/

/-- Whether a host-window access of a function may go out: Bus Master Enable is 1 (R384). -/
def State.hostOpen (s : State) (n : Nat) : Bool := (s.fn n).bme

/-- The page of an address for a function, in its Smallest Translation Units (R389). -/
def FnSt.pageOf (f : FnSt) (addr : Nat) : Nat := addr / 2 ^ (12 + f.stu)

/-- The cached translation of a host address (R389). -/
def State.atcOf (s : State) (n pasid addr : Nat) : Option AtcEntry :=
  s.atc.find? (fun e => e.fn == n && e.pasid == pasid && e.page == (s.fn n).pageOf addr)

/-- How an access to the host window goes out (R389): at an address, as a translated request or not; after a Translation Request; or not at all. -/
inductive HostWay where
  | go (addr : Option Nat)
  | ask
  | deny
  deriving DecidableEq, Repr

/-- How an access of a function at a host address goes out: untranslated while ATS is off; else by the cached translation, if it permits the access. -/
def State.hostWay (s : State) (n pasid addr : Nat) (write : Bool) : HostWay :=
  if !(s.fn n).ats then .go none
  else match s.atcOf n pasid addr with
    | none => .ask
    | some e => if (if write then e.write else e.read) then .go (some (e.hostPage * 2 ^ (12 + (s.fn n).stu) + addr % 2 ^ (12 + (s.fn n).stu))) else .deny

/-- How many non-posted requests of the hub are outstanding on the link, of which Table 13-1 permits 2,048 (R371). -/
def State.hostOpenReads (s : State) : Nat := s.hostOut.length + (s.fns.map (fun f => f.2.atsReq.length)).sum
def State.hostRoom (s : State) : Bool := decide (s.hostOpenReads < 2048)

/-- A Translation Request sent for the page of an address, unless one is outstanding.
(DEDUCED: log entry 53.) -/
def State.atsAsk (s : State) (n pasid addr : Nat) : State :=
  let f := s.fn n
  let page := f.pageOf addr
  if f.atsReq.any (fun e => e.2.pasid == pasid && e.2.page == page) || !s.hostRoom then s
  else
    let tag := f.atsReq.freeKey 16384
    (s.modFn n (fun f => { f with atsReq := f.atsReq.set tag ⟨pasid, page⟩ })).emit (.atsRequest n (pasidOf pasid) (page * 2 ^ (12 + f.stu)))

/-- A write of an engine to the host window that crosses no 4 KiB page: sent, or held until its translation has come, in the order of its
function (R387, R389). `acc` is the access type of the fault that its failure brings, none for an event record. -/
def State.hostPut (s : State) (n pasid addr : Nat) (bs : List Byte) (acc : Option Nat) : State :=
  let wait (s : State) : State := { s with hostWait := s.hostWait ++ [.write n (pasidOf pasid) addr bs acc] }
  match s.hostWay n pasid addr true with
  | .go at_ => if s.hostBusy n then wait s else s.hostWrite n (pasidOf pasid) addr bs at_
  | _ => wait (s.atsAsk n pasid addr)

/-- A write of the hub to untranslated host memory, in the order of its function (R387). -/
def State.hostPutRaw (s : State) (n addr : Nat) (bs : List Byte) : State :=
  if s.hostBusy n then { s with hostWait := s.hostWait ++ [.write n none addr bs none] } else s.hostWrite n none addr bs

end Sys2Proof.Machine
end

