-- ==== Sys2Proof/Machine/Fabric.lean ====
section
/-! DEFINITION. The fabric of chapter 09: endpoints, bearing tables, routes and header times, the counters of the routers a
packet passes, and the sending and arrival of packets. -/

namespace Sys2Proof

/-- The endpoint of an end (Table 09-2). -/
def Node.ep : Node → Nat
  | .agent a => a
  | .home c => 288 + c
  | .hub n => 672 + n

/-- The class of a message (Table 08-3): 0 request, 1 forward, 2 data, 3 response. -/
def MsgKind.cls : MsgKind → Nat
  | .rdS => 0 | .rdX => 0 | .upg => 0 | .rdU => 0 | .wrU => 0 | .atN => 0
  | .fwdS => 1 | .fwdX => 1 | .inv => 1 | .rcl => 1
  | .data => 2 | .dataH => 2 | .wb => 2 | .atR => 2
  | .invAck => 3 | .cmpAck => 3 | .wbAck => 3 | .uAck => 3 | .specWait => 3

/-- The site that an end beyond an adapter lies at. -/
def Node.site? : Node → Option Nat
  | .agent a => if 256 ≤ a ∧ a < 288 then some ((a - 256) / 4) else none
  | .hub n => if n < 8 then some n else none
  | .home _ => none

/-- The answers that a message makes its chiplet owe: the code of each (Table 09-4). -/
def MsgKind.owes : MsgKind → List Nat
  | .fwdS => [0x10, 0x11] | .fwdX => [0x10] | .inv => [0x18] | .rcl => [0x11]
  | .rdU => [0x10] | .wrU => [0x1B] | .atN => [0x13]
  | _ => []

/-- Data units of a coherence message (R269): a line is four units; the first unit of WrU holds byte enables. -/
def Msg.units (m : Msg) : Nat :=
  match m.kind with
  | .wrU => 1 + ceilDiv (m.dpa % 32 + m.size) 32
  | .atN => 1
  | .atR => 1
  | .data => if m.pay.isNone then 0 else if m.size = 0 then 4 else ceilDiv (m.dpa % 32 + m.size) 32
  | .dataH => if m.pay.isSome then 4 else 0
  | .wb => if m.pay.isSome then 4 else 0
  | _ => 0

/-- The command code of a message (Table 09-4). -/
def MsgKind.code : MsgKind → Nat
  | .rdS => 0x01 | .rdX => 0x02 | .upg => 0x03 | .rdU => 0x04 | .wrU => 0x05 | .atN => 0x06
  | .fwdS => 0x08 | .fwdX => 0x09 | .inv => 0x0A | .rcl => 0x0B
  | .data => 0x10 | .dataH => 0x11 | .wb => 0x12 | .atR => 0x13
  | .invAck => 0x18 | .cmpAck => 0x19 | .wbAck => 0x1A | .uAck => 0x1B | .specWait => 0x1C
def TokKind.code : TokKind → Nat
  | .tcopy => 0x20 | .admitCopy => 0x21 | .refuse => 0x22 | .room => 0x23 | .confirm => 0x24 | .refute => 0x25 | .tret => 0x26

/-- The class of a command code (Table 09-4); none for a code that is never sent. -/
def codeClass (c : Nat) : Option Nat :=
  if 0x01 ≤ c ∧ c ≤ 0x06 ∨ c = 0x20 then some 0
  else if 0x08 ≤ c ∧ c ≤ 0x0B ∨ c = 0x24 ∨ c = 0x25 then some 1
  else if 0x10 ≤ c ∧ c ≤ 0x13 ∨ c = 0x26 then some 2
  else if 0x18 ≤ c ∧ c ≤ 0x1C ∨ 0x21 ≤ c ∧ c ≤ 0x23 then some 3
  else none

/-- SUB of a packet (Table 09-7): the unit within the endpoint, or `unit`, the section or engine of a TCOPY or of engine work. -/
def subOf (ep unit : Nat) : Nat :=
  if ep < 256 then unit
  else if ep < 288 then (ep - 256) % 4
  else if ep < 672 then (ep - 288) % 8
  else if ep < 680 then unit
  else ep - 680

/-- AUX and COUNT of a coherence message (Table 09-5). -/
def Msg.aux (m : Msg) : Nat :=
  match m.kind with
  | .rdS => m.hdr.slack | .rdX => m.hdr.slack | .upg => m.hdr.slack | .rdU => m.hdr.slack | .wrU => m.hdr.slack | .atN => m.hdr.slack
  | .fwdS => m.req.ep | .fwdX => m.req.ep | .inv => m.req.ep
  | .data => m.acks
  | _ => 0
def Msg.countField (m : Msg) : Nat :=
  match m.kind with
  | .rdU => ceilDiv (m.dpa % 16 + m.size) 16 - 1
  | .data => (match m.grant with | .E => 1 | .M => 2 | _ => 0)
  | .atR => if m.flag then 1 else 0
  | .wbAck => if m.flag then 1 else 0
  | _ => 0

/-- Even parity over TAG, and over bits [125:0] of a header other than TAG (Table 09-3). -/
def tagParity (h : Nat) : Bool := decide (countBelow 5 (fun i => h.testBit (25 + i)) % 2 = b2n (h.testBit 126))
def headerParity (h : Nat) : Bool := decide (countBelow 126 (fun i => h.testBit i && !(decide (25 ≤ i) && decide (i ≤ 29))) % 2 = b2n (h.testBit 127))

/-- A header with PT and PH added. -/
def withParity (h : Nat) : Nat :=
  h + countBelow 5 (fun i => h.testBit (25 + i)) % 2 * 2 ^ 126 +
    countBelow 126 (fun i => h.testBit i && !(decide (25 ≤ i) && decide (i ≤ 29))) % 2 * 2 ^ 127

/-- The header fields common to both views (Table 09-3). -/
def headerWord (h : Hdr) (code cls tag src sub len flags txid operand : Nat) : Nat :=
  withParity (h.route % 2 ^ 16 + code % 64 * 2 ^ 16 + cls % 8 * 2 ^ 22 + tag % 32 * 2 ^ 25 + src % 1024 * 2 ^ 30 + sub % 64 * 2 ^ 40 +
    len % 32 * 2 ^ 46 + flags % 64 * 2 ^ 51 + txid % 4096 * 2 ^ 57 + operand % 2 ^ 57 * 2 ^ 69)

/-- The class of a token message (Table 09-4) and its data units. -/
def Tok.cls (m : Tok) : Nat :=
  match m.kind with
  | .tcopy => 0
  | .confirm => 1
  | .refute => 1
  | .tret => 2
  | _ => 3
def Tok.units (m : Tok) : Nat := ceilDiv m.row.length 32
/-- Whether a token message carries a row. -/
def Tok.isRow (m : Tok) : Bool := m.kind == .tcopy || m.kind == .tret

/-- A packet of Table 12-5 or a TCOPY for a chiplet (R338, R356): ROUTE zero, SUB the engine where it names one, and the sender's endpoint. -/
def txPacket (code cls tag src sub txid flags operand : Nat) (data : List Nat) : Machine.TxMsg :=
  { code := code, txid := txid, cls := cls, who := src, head := headerWord Hdr.blank code cls tag src sub data.length flags txid operand, data := data }

/-- The header unit of a coherence message and of a token message (R268). -/
def Msg.header (m : Msg) : Nat :=
  headerWord m.hdr m.kind.code m.kind.cls m.tag m.src.ep (subOf m.dst.ep 0) m.units
    (b2n m.aged + b2n m.sonly * 2 + b2n m.poison * 4 + b2n m.hdr.tol * 8) m.txid
    (m.aux % 1024 + m.dpa / 16 % 2 ^ 44 * 2 ^ 10 + m.countField % 8 * 2 ^ 54)
def Tok.header (m : Tok) : Nat :=
  headerWord m.hdr m.kind.code m.cls m.tag m.src.ep (subOf m.dst.ep (if m.kind = .tcopy then m.sub else 0)) m.units
    (b2n m.hdr.tol * 8 + b2n (m.spec && m.kind == .tcopy) * 16 + b2n (m.last && m.isRow) * 32) m.entry
    (m.expert % 4096 + m.layer % 256 * 2 ^ 12 + m.fmt % 16 * 2 ^ 20 + m.weight.toNat * 2 ^ 24)

/-- The four quarters of a line, the requested one first and the others after it in ascending order modulo 4 (R269). -/
def lineUnits (dpa v : Nat) : List Nat := (upTo 4).map (fun j => fld v (256 * ((dpa % 128 / 32 + j) % 4) + 255) (256 * ((dpa % 128 / 32 + j) % 4)))

/-- The data units of a coherence message (R269): the quarters of a line, or of the bytes that an uncached access carries; byte enables first in
WrU; the fields of an atomic. -/
def Msg.dataUnits (m : Msg) : List Nat :=
  let v := m.pay.getD 0
  let from_ (n : Nat) : List Nat := (upTo n).map (fun j => fld (v * 2 ^ (8 * (m.dpa % 32))) (256 * j + 255) (256 * j))
  match m.kind with
  | .wrU => (if m.flag then m.cmp * 2 ^ (m.dpa % 128) else (2 ^ m.size - 1) * 2 ^ (m.dpa % 128)) :: from_ (m.units - 1)
  | .atN => [m.op % 16 + b2n (decide (m.size = 8)) * 16 + m.dpa % 16 * 2 ^ 8 + v % 2 ^ 64 * 2 ^ 64 + m.cmp % 2 ^ 64 * 2 ^ 128]
  | .atR => [v % 2 ^ 64]
  | .data => if m.pay.isNone then [] else if m.size = 0 then lineUnits m.dpa v else from_ m.units
  | .dataH => if m.pay.isNone then [] else lineUnits m.dpa v
  | .wb => if m.pay.isNone then [] else lineUnits m.dpa v
  | _ => []

/-- The zero map beside a data unit of 32 bytes in a format (R271): bit i is the zero flag of element i. -/
def zeroMap (fmt unit : Nat) : Nat :=
  match ElemFmt.ofCode? fmt with
  | some f => ((upTo (f.count / 2)).map (fun i => b2n (f.isZeroCode (elem f (BitVec.ofNat 512 unit) i)) * 2 ^ i)).sum
  | none => 0

/-- The zero maps of a token packet, a unit each: for TCOPY and TRET those of its row. -/
def Tok.zeroMaps (m : Tok) : List Nat :=
  (upTo m.units).map (fun k => if m.kind = .tcopy ∨ m.kind = .tret then zeroMap m.fmt (ofBytes ((m.row.drop (32 * k)).take 32)) else 0)
/-- The zero maps of every other packet are zero (R271). -/
def Msg.zeroMaps (m : Msg) : List Nat := List.replicate m.units 0

/-- The virtual channels of a class that a packet of a mode takes (R273): VC0 for XY and WEST_FIRST, VC1 for YX, VC2 before and VC3 after the
lane for EXPRESS. Each class has these four, with buffers of their own, on every link; where in its path a packet stands is not held.
(DESIGN CHOICE: log entry 95.) -/
def modeVcs (mode : Nat) : List Nat := match mode with | 1 => [1] | 2 => [2, 3] | _ => [0]

/-- The virtual channel by which a packet reaches its destination's interface.
(DESIGN CHOICE: log entry 95.) -/
def Hdr.lastVc (h : Hdr) : Nat := ((modeVcs (fld h.route 12 11)).getLast?).getD 0

/-- The interface by which an end sends and receives: that of its site adapter for a caching agent of a site (R278). -/
def niOf (ep : Nat) : Nat := if 256 ≤ ep ∧ ep < 288 then 672 + (ep - 256) / 4 else ep

/-- Whether packets of a header keep their order (R277): in the modes XY, YX and EXPRESS, and TCOPY and TRET in every mode. -/
def Hdr.inOrder (h : Hdr) : Bool := fld h.route 12 11 != 3

/-- A message with nothing but its kind, ends, address, tag and request identifier. -/
def Msg.blank (k : MsgKind) (src dst : Node) (dpa tag txid : Nat) : Msg :=
  { kind := k, src := src, dst := dst, dpa := dpa, tag := tag, txid := txid, req := src, grant := .I, acks := 0,
    pay := none, size := 0, op := 0, cmp := 0, sonly := false, aged := false, flag := false, poison := false, prio := 0 }

end Sys2Proof

namespace Sys2Proof.Machine

/-! ### Places (Table 09-2) -/

/-- The rows of the two spokes of a site. -/
def siteRows (n : Nat) : List Nat :=
  match n % 4 with
  | 0 => [0, 1]
  | 1 => [3, 4]
  | 2 => [5, 6]
  | _ => [8, 9]

/-- The routers at which an endpoint stands. -/
def State.places (s : State) (ep : Nat) : List (Nat × Nat) :=
  if ep < 256 then [(s.fieldOf (Reg.nocCoord ep) 4 0, s.fieldOf (Reg.nocCoord ep) 11 8)]
  else if ep < 288 then (siteRows ((ep - 256) / 4)).map (fun y => (if (ep - 256) / 4 < 4 then 0 else 25, y))
  else if ep < 672 then
    let c := ep - 288
    let t := c / 32
    [(4 * (t % 6) + (if t % 6 < 3 then 0 else 2) + c % 32 / 8, if t < 6 then 0 else 9)]
  else if ep < 680 then (siteRows (ep - 672)).map (fun y => (if ep - 672 < 4 then 0 else 25, y))
  else match ep with
    | 680 => [(12, 9)]
    | 681 => [(13, 0)]
    | 682 => [(12, 0)]
    | 683 => [(12, 0)]
    | 684 => [(12, 0)]
    | 685 => [(12, 0)]
    | 686 => [(13, 9)]
    | _ => []

/-- The port of an endpoint in ROUTE. -/
def portOf (ep : Nat) : Nat := if ep < 256 then 0 else if ep < 288 then 2 else if ep < 672 then 1 else if ep < 680 then 2 else 3

/-- Whether an endpoint is present: a township that is not absent, a site that is not ABSENT, a channel in the map. -/
def State.present (s : State) (ep : Nat) : Bool :=
  if ep < 256 then !s.bit (Reg.nocCoord ep) 12
  else if ep < 288 then s.fieldOf (Reg.siteStat ((ep - 256) / 4)) 2 0 != 0
  else if ep < 672 then !(s.bit (Reg.memCh (ep - 288)) 2)
  else if ep < 680 then s.fieldOf (Reg.siteStat (ep - 672)) 2 0 != 0
  else decide (ep < 687)

/-! ### Routes (Table 09-6, R272, R280) -/

/-- The row of an express lane (R265). -/
def laneRow (l : Nat) : Nat := [0, 1, 3, 4, 5, 6, 8, 9].getD l 0

def dist (a b : Nat) : Nat := (a - b) + (b - a)

/-- The header time of a route from a router to another: routers passed and wire steps. -/
def routeTime (mode lane : Nat) (src dst : Nat × Nat) : Nat :=
  if mode = 2 then dist src.2 (laneRow lane) + dist dst.2 (laneRow lane) + 2 +
    (if decide (src.1 < 13) == decide (dst.1 < 13) then 1 else 2)
  else dist src.1 dst.1 + dist src.2 dst.2 + 1

/-- ROUTE as a number. -/
def routeWord (dst : Nat × Nat) (port mode lane : Nat) : Nat := dst.1 + dst.2 * 32 + port * 512 + mode * 2048 + lane * 8192

/-- The modes and lanes a route may use between two routers. -/
def routeChoices (src dst : Nat × Nat) (express : Bool) : List (Nat × Nat) :=
  (0, 0) :: (1, 0) :: (if express && src.1 != dst.1 then (upTo 8).map (fun l => (2, l)) else [])

/-- The choices from a router to the routers of a destination. -/
def routesTo (src : Nat × Nat) (dsts : List (Nat × Nat)) (express : Bool) : List ((Nat × Nat) × Nat × Nat) :=
  dsts.flatMap (fun d => (routeChoices src d express).map (fun c => (d, c)))

/-- The first route of least header time: its end, mode and lane. -/
def bestRoute (src : Nat × Nat) (dsts : List (Nat × Nat)) (express : Bool) : (Nat × Nat) × Nat × Nat :=
  let time (c : (Nat × Nat) × Nat × Nat) : Nat := routeTime c.2.1 c.2.2 src c.1
  match routesTo src dsts express with
  | [] => ((0, 0), 0, 0)
  | c :: r => r.foldl (fun b x => if time x < time b then x else b) c

/-- The entry that the tables of the field cores hold for a destination (R276): a route of least header time to one of its routers, and
the best mesh route for bulk. -/
def State.bearDefault (s : State) (ni dest : Nat) : Nat :=
  match (s.places ni).head? with
  | some a =>
    if s.present dest then
      let r := bestRoute a (s.places dest) true
      let q := bestRoute a (s.places dest) false
      routeWord r.1 (portOf dest) r.2.1 r.2.2 + routeWord q.1 (portOf dest) q.2.1 q.2.2 * 2 ^ 16 + 2 ^ 32 +
        routeTime r.2.1 r.2.2 a r.1 * 2 ^ 34 + routeTime q.2.1 q.2.2 a q.1 * 2 ^ 40
    else 0
  | none => 0

/-- A bearing entry (Table 09-8): what was committed, or what the field cores built at start-up. -/
def State.bearing (s : State) (ni dest : Nat) : Nat :=
  match s.regs.get? (bearKey ni dest) with
  | some v => v.toNat
  | none => if s.tables then s.bearDefault ni dest else 0

/-! ### Paths -/

def walkX (y x dx : Nat) : List (Nat × Nat) :=
  if x ≤ dx then (upTo (dx - x)).map (fun i => (x + 1 + i, y)) else (upTo (x - dx)).map (fun i => (x - 1 - i, y))
def walkY (x y dy : Nat) : List (Nat × Nat) :=
  if y ≤ dy then (upTo (dy - y)).map (fun i => (x, y + 1 + i)) else (upTo (y - dy)).map (fun i => (x, y - 1 - i))

/-- The routers of a WEST_FIRST route, and those at which the north–south hop was chosen (R272): westward hops first; at an
adaptive point the choice follows buffer space, which is free here; `fixed` is for TCOPY and TRET, which take the eastward hop.
(DESIGN CHOICE: log entry 38.) -/
def westFirst (fixed : Bool) (dst : Nat × Nat) : Nat → Nat → Nat × Nat → List (Nat × Nat) × List (Nat × Nat)
  | 0, _, _ => ([], [])
  | n + 1, k, p =>
    let go (q : Nat × Nat) (ns : Bool) : List (Nat × Nat) × List (Nat × Nat) :=
      let r := westFirst fixed dst n (k + 1) q
      (q :: r.1, if ns then p :: r.2 else r.2)
    let v : Nat × Nat := (p.1, if p.2 < dst.2 then p.2 + 1 else p.2 - 1)
    if dst.1 < p.1 then go (p.1 - 1, p.2) false
    else if p.1 = dst.1 then (if p.2 = dst.2 then ([], []) else go v false)
    else if p.2 = dst.2 || fixed || p.1 = 12 || p.1 = 13 then go (p.1 + 1, p.2) false
    else if Config.freeNat k % 2 = 0 then go (p.1 + 1, p.2) false else go v true

/-- The routers a packet passes, the router of the lane's tap where it rides one, and its adaptive choices. -/
def pathOf (route k : Nat) (fixed : Bool) (src : Nat × Nat) : List (Nat × Nat) × Option (Nat × Nat) × List (Nat × Nat) :=
  let dst : Nat × Nat := (fld route 4 0, fld route 8 5)
  match fld route 12 11 with
  | 0 => (src :: (walkX src.2 src.1 dst.1 ++ walkY dst.1 src.2 dst.2), none, [])
  | 1 => (src :: (walkY src.1 src.2 dst.2 ++ walkX dst.2 src.1 dst.1), none, [])
  | 2 =>
    let y := laneRow (fld route 15 13)
    (src :: (walkY src.1 src.2 y ++ (dst.1, y) :: walkY dst.1 y dst.2), some (src.1, y), [])
  | _ =>
    let r := westFirst fixed dst 40 k src
    (src :: r.1, none, r.2)

/-! ### Counters of the routers (Table 09-13) -/

/-- The key of a router's counter n: 0 units, 1 express, 2 adaptive choices. -/
def routerKey (p : Nat × Nat) (n : Nat) : Nat := (p.1 * 16 + p.2) * 8 + n

def State.routerCount (s : State) (p : Nat × Nat) (n k : Nat) : State :=
  { s with routers := s.routers.set (routerKey p n) ((s.routers.getD (routerKey p n) 0 + k) % 2 ^ 64) }

/-- The route that an interface uses for a packet: BULK or ROUTE of its bearing entry, none with V 0 (R276, R278, R279). -/
def State.routeFor (s : State) (src dst : Nat) (bulk : Bool) : Option Nat :=
  let e := s.bearing (niOf src) dst
  if e.testBit 32 then some (if bulk then fld e 31 16 else fld e 15 0) else none

/-- The counters of the routers that a packet of `units` data units passes on a route. They are transit counters (R285).
(DESIGN CHOICE: log entry 38.) -/
def State.countRoute (s : State) (src route units : Nat) (fixed : Bool) : State :=
  if s.confidential then s
  else match (s.places src).head? with
    | none => s
    | some p =>
      let (path, tap, ad) := pathOf route s.free fixed p
      let s0 := { s with free := s.free + path.length }
      let s1 := path.foldl (fun s q => s.routerCount q 0 (units + 1)) s0
      let s2 := (match tap with | some q => s1.routerCount q 1 1 | none => s1)
      ad.foldl (fun s q => s.routerCount q 2 1) s2

/-- A packet carried from an endpoint to another: its route, and the state that has counted it; none where the packet is dropped.
(DESIGN CHOICE: log entry 38.) -/
def State.carry (s : State) (src dst units : Nat) (bulk fixed : Bool) : Option (Nat × State) :=
  (s.routeFor src dst bulk).map (fun r => (r, s.countRoute src r units fixed))

/-- A drop counted at an interface without counter registers: kind 0 NO_ENTRY, 1 TAG_DROP. -/
def State.niDrop (s : State) (ep kind : Nat) : State :=
  if s.confidential then s else { s with niDrops := s.niDrops.set (2 * ep + kind) ((s.niDrops.getD (2 * ep + kind) 0 + 1) % 2 ^ 64) }

/-- A packet dropped at its sender's interface for an entry with V 0, and one dropped for its TAG at the interface of a township or at a
site adapter (R279). -/
def State.noEntry (s : State) (src : Nat) : State := if src < 256 then s.transit (Reg.nocCnt src 5) 1 else s.niDrop (niOf src) 0
def State.tagDrop (s : State) (ep : Nat) : State := if ep < 256 then s.transit (Reg.nocCnt ep 4) 1 else s.niDrop (niOf ep) 1

/-- A packet that an engine of the hub sends to an end, counted on its route (R285).
(DESIGN CHOICE: log entry 38.) -/
def State.countPacket (s : State) (src dst units : Nat) : State :=
  match s.carry src dst units (decide (5 ≤ units)) false with | some x => x.2 | none => s.noEntry src

/-- The request and the answer of an access that an engine of the hub makes at an end, counted on their routes (R285). -/
def State.countEngine (s : State) (ep dst out_ back : Nat) : State := (s.countPacket ep dst out_).countPacket dst ep back

/-- A packet of Table 12-5 sent from an end to a site's adapter, which has it for the chiplet. -/
def State.txSend (s : State) (src n : Nat) (m : TxMsg) : State := (s.countPacket src (672 + n) m.data.length).txPush n m

/-- A coherence message injected into the fabric (R276, R279): the interface copies the chosen route into its header. -/
def State.inject (s : State) (m : Msg) : State :=
  match s.carry m.src.ep m.dst.ep m.units (decide (5 ≤ m.units)) false with
  | none => s.noEntry m.src.ep
  | some (r, s1) => { s1 with net := s1.net ++ [{ m with hdr := { m.hdr with route := r, seq := s1.tick } }], tick := s1.tick + 1 }

/-- A coherence message sent: while its home is in a slice, a request stays at its source, in order (R302).
(DESIGN CHOICE: log entry 40.) -/
def State.send (s : State) (m : Msg) : State :=
  match m.dst with
  | .home c => if m.kind.cls = 0 && s.channelHeld c then { s with retrain := { s.retrain with source := s.retrain.source ++ [m] } } else s.inject m
  | _ => s.inject m

/-- A token message sent: TCOPY and TRET always travel on BULK, with the zero maps of their units (R271). -/
def State.sendTok (s : State) (m : Tok) : State :=
  let rows := m.isRow
  match s.carry m.src.ep m.dst.ep m.units (rows || decide (5 ≤ m.units)) rows with
  | none => s.noEntry m.src.ep
  | some (r, s1) => { s1 with toks := s1.toks ++ [{ m with maps := m.zeroMaps, hdr := { m.hdr with route := r, seq := s1.tick } }], tick := s1.tick + 1 }

/-! ### Arrival -/

/-- Whether a packet sent earlier between the same ends, in the same class and with the same route field, is still on the fabric
(R277). -/
def State.overtakes (s : State) (src dst : Node) (cls : Nat) (h : Hdr) (rows : Bool) : Bool :=
  (h.inOrder && s.net.any (fun x => x.src == src && x.dst == dst && x.kind.cls == cls && x.hdr.route == h.route && decide (x.hdr.seq < h.seq))) ||
  s.toks.any (fun x => x.src == src && x.dst == dst && x.cls == cls && x.hdr.route == h.route && decide (x.hdr.seq < h.seq) &&
    (h.inOrder || (rows && (x.kind == .tcopy || x.kind == .tret))))

/-- The packets that the interface of an end holds (R282): a township's, or the spoke's of a memory controller, in arrival order. -/
def State.heldFor (s : State) : Node → List HeldPkt
  | .agent t => (s.ship t).held
  | .home c => s.engHeld.getD (c / 2) []
  | .hub _ => []

/-- Whether a packet waits in a wake buffer behind one that arrived before it (R282): the buffer of its class and virtual channel delivers in
arrival order.
(DEDUCED: log entry 37.) -/
def State.behindHeld (s : State) (dst : Node) (cls : Nat) (h : Hdr) : Bool :=
  match ((s.heldFor dst).filter (fun p => p.cls == cls && p.vc == h.lastVc)).head? with
  | some p => p.seq != h.seq
  | none => false

/-- Whether a coherence message can arrive: it is on the fabric with none sent before it on the same ordered route, and is not held at
the spoke of a sleeping engine or behind another in a wake buffer (R282).
(DESIGN CHOICE: log entry 2.) -/
def State.deliverable (s : State) (m : Msg) : Bool :=
  !(match m.dst with | .home c => s.engSleep.has (c / 2) | _ => false) && s.net.contains m &&
  !s.overtakes m.src m.dst m.kind.cls m.hdr false && !s.behindHeld m.dst m.kind.cls m.hdr

/-- Whether a token message can arrive. -/
def State.tokDeliverable (s : State) (m : Tok) : Bool :=
  s.toks.contains m && !s.overtakes m.src m.dst m.cls m.hdr m.isRow && !s.behindHeld m.dst m.cls m.hdr

/-- A packet that leaves the wake buffer it was held in. -/
def State.unhold (s : State) (dst : Node) (seq : Nat) : State :=
  if (s.heldFor dst).isEmpty then s
  else
    let rest := (s.heldFor dst).filter (fun p => p.seq != seq)
    match dst with
    | .agent t => s.modShip t (fun x => { x with held := rest })
    | .home c => { s with engHeld := if rest.isEmpty then s.engHeld.erase (c / 2) else s.engHeld.set (c / 2) rest }
    | .hub _ => s

/-- A message taken off the fabric: the first equal one. -/
def State.take (s : State) (m : Msg) : State := ({ s with net := s.net.erase m }).unhold m.dst m.hdr.seq
def State.takeTok (s : State) (m : Tok) : State := ({ s with toks := s.toks.erase m }).unhold m.dst m.hdr.seq

/-- A message at a site's adapter (R279, R346): it crosses to the chiplet once there is credit, with ROUTE zero (R338); a tag that is not the parcel's
is dropped and counted, and so is a message for a site that is not UP or in no parcel (R327). -/
def State.toChiplet (s : State) (n : Nat) (m : Msg) : State :=
  let x := s.site n
  if s.fieldOf (Reg.siteStat n) 2 0 ≠ 4 ∨ (s.parcelOfSite n).isNone then s.take m
  else if !(m.tag == 16 || s.parcelOfSite n == some m.tag) then (s.take m).tagDrop (672 + n)
  else if !x.credit m.kind.cls m.units then s
  else
    let who := (match m.dst with | .agent a => a | _ => m.src.ep)
    let line := (match m.dst with | .agent _ => m.dpa / 128 | _ => 0)
    let s1 := (s.take m).modSite n (fun y => { (y.spend m.kind.cls m.units) with
      owed := y.owed ++ m.kind.owes.map (fun c => (c, who, m.txid, line)) })
    s1.toSite n (packetSlots ({ m with hdr := { m.hdr with route := 0 } }).header m.dataUnits)

/-- Whether a township's interface passes packets on: it is not asleep (R282). -/
def State.shipOpen (s : State) (t : Nat) : Bool := !(s.ship t).asleep

/-- The data block and the tag block that hold a set of a township cache (R220, Table 07-4): a data block holds two sets of one data bank, a tag
block 32 sets.
(DESIGN CHOICE: log entry 98.) -/
def dataBlockOf (set : Nat) : Nat := set % 8 * 32 + set / 16
/-- DESIGN CHOICE: log entry 98. -/
def tagBlockOf (set : Nat) : Nat := 256 + set / 32

/-- Whether a request for a line finds its blocks free: neither is under test (R231). -/
def State.lineFree (s : State) (t line : Nat) : Bool :=
  match (s.ship t).test with
  | some y => y.cache = 0 || (y.cache - 1 != dataBlockOf (cacheSetOf line) && y.cache - 1 != tagBlockOf (cacheSetOf line))
  | none => true

/-- Whether a township's interface accepts a TAG (R279). -/
def State.tagOk (s : State) (t tag : Nat) : Bool := tag == 16 || s.parcelOfShip t == some tag

/-- The home of a line. -/
def State.homeOf (s : State) (dpa : Nat) : Node := .home (s.channelOf dpa)

end Sys2Proof.Machine
end

