-- ==== Sys2Proof/Machine/Home.lean ====
section
/-! DEFINITION. The home slices of chapter 08: the directory and its transactions, the memory accesses of a slice with its atomic unit, and
the requests by which the hub's own engines write (R236). -/

namespace Sys2Proof

/-- The caching agent an end is. -/
def Node.agent? : Node → Option Nat | .agent a => some a | _ => none

/-- Whether a message is from an engine of the hub itself. -/
def Msg.fromEngine (m : Msg) : Bool := match m.src with | .hub n => decide (8 ≤ n) | _ => false

/-- The master of a request (chapter 16): none for one of the hub's own, which is unregulated.
(DESIGN CHOICE: log entry 73.) -/
def Msg.master? (m : Msg) : Option Nat := if m.tag < 16 then some (4 * m.tag + m.prio % 4) else none

end Sys2Proof

namespace Sys2Proof.Machine

/-- The result of an atomic (R87): op by number of Table 03-7 on words of n bytes. -/
def atomResult (op n old b c : Nat) : Nat :=
  let m := 2 ^ (8 * n)
  let sx (v : Nat) : Int := sextNat (8 * n) v
  match op with
  | 0 => (old + b) % m
  | 1 => if sx b < sx old then b else old
  | 2 => if sx old < sx b then b else old
  | 3 => min old b
  | 4 => max old b
  | 5 => old &&& b
  | 6 => old ||| b
  | 7 => old ^^^ b
  | 8 => b
  | 9 => if old = c then b else old
  | _ => (f32Add (BitVec.ofNat 32 old) (BitVec.ofNat 32 b)).toNat

def vecBit (v : BitVec 288) (a : Nat) : Bool := v.getLsbD a
def vecSet (v : BitVec 288) (a : Nat) : BitVec 288 := v ||| BitVec.ofNat 288 (2 ^ a)
def vecOnly (a : Nat) : BitVec 288 := BitVec.ofNat 288 (2 ^ a)
def vecList (v : BitVec 288) : List Nat := (upTo 288).filter (fun a => v.getLsbD a)
/-- Whether a line lies in a weight pool bay, so that its entry carries EASE. -/
def State.easeLine (s : State) (dpa : Nat) : Bool := s.granOwner (dpa / 2 ^ 30) == 0x11

/-- The set of a slice that a line belongs to (R238). -/
def dirSetOf (line : Nat) : Nat := (fld (line * 128) 16 7) ^^^ (fld (line * 128) 26 17)

/-- The entries of the set and slice of a line.
(DESIGN CHOICE: log entry 35.) -/
def State.dirSet (s : State) (line : Nat) : List (Nat × DirEntry) :=
  s.dir.filter (fun e => dirSetOf e.1 == dirSetOf line && s.channelOf (e.1 * 128) == s.channelOf (line * 128))

/-- A message of the home of a line. -/
def homeMsg (s : State) (k : MsgKind) (m : Msg) (dst : Node) : Msg :=
  { Msg.blank k (s.homeOf m.dpa) dst m.dpa m.tag m.txid with req := m.src }

/-- The 64-byte bursts of a memory access counted (Table 10-7); turnarounds and activations depend on the controller and are free. A
read of a FAILED channel is recorded (R298), and one that the write buffer serves during a slice reads no burst (R302).
(DESIGN CHOICE: log entry 40.) -/
def State.burst (s : State) (dpa n : Nat) (write : Bool) : State :=
  let c := s.channelOf dpa
  let k := (dpa + n - 1) / 64 + 1 - dpa / 64
  let (a, s1) := s.pick 2
  let (b, s2) := s1.pick (k + 1)
  let s3 := ((s2.transit (Reg.memCnt c 2) a).transit (Reg.memCnt c 3) b)
  if s.failedAt dpa then
    (if write then s3
     else s3.record 0x02 1 ((s.parcels.find? (fun p => p.2.grans.contains (dpa / 2 ^ 30))).elim 16 Prod.fst) dpa c 1 0)
  else if !write && s.channelHeld c then s
  else s3.transit (Reg.memCnt c (b2n write)) k

/-- Whether a read of a line's memory carries POISON. -/
def State.linePoisoned (s : State) (line : Nat) : Bool := s.memPoisoned (line * 128) || s.memPoisoned (line * 128 + 64)

/-- A slot of a channel granted to a request (R475): it counts in the channel's window.
(DESIGN CHOICE: log entry 73.) -/
def State.granted (s : State) (m : Msg) : State :=
  let c := s.channelOf m.dpa
  let up (t : Tbl Nat) (k : Nat) : Tbl Nat := t.set k (t.getD k 0 + 1)
  { s with slots := up (match m.master? with | some k => up s.slots (64 * c + k) | none => s.slots) (24576 + c) }

/-- A grant of a line from memory. -/
def State.grantMem (s0 : State) (m : Msg) (g : LineState) (acks : Nat) (units : Bool) : State :=
  let s := if units then (s0.granted m).burst (m.dpa / 128 * 128) 128 false else s0
  s.send { homeMsg s .data m m.src with
    grant := g, acks := acks, pay := if units then some (s.memLine (m.dpa / 128)) else none, poison := units && s.linePoisoned (m.dpa / 128) }

/-- The answer of a home to a master; an engine of the hub has its answer at once. -/
def State.answerMaster (s : State) (m : Msg) : State :=
  match m.dst with
  | .hub n => if 8 ≤ n then s else s.send m
  | _ => s.send m

/-- The enabled bytes of a run merged into memory: where every byte is enabled, as a whole write. -/
def State.memMerge (s : State) (dpa n v be : Nat) : State :=
  let bits := (upTo n).filter be.testBit
  if bits.length = n || s.failedAt dpa then s.memWrite dpa n v
  else { s with mem := bits.foldl (fun m i => m.writeN (dpa + i) 1 (v >>> (8 * i))) s.mem }

/-- The memory access of an uncached request, and its answer (R252, R253, R299 for writes): RdU reads, WrU writes with
UAck (`flag` says that `cmp` holds byte enables), AtN performs the operation and returns the old value with the CONTENDED bit, which
`flag` of the request holds where the line had another holder (R254). What an engine writes was noted when it was asked for. -/
def State.memAccess (s00 : State) (m : Msg) (others : Bool) : State :=
  let s0 := s00.granted m
  let s1 := if m.kind = .wrU then s0 else s0.burst m.dpa m.size false
  let old := s1.memN m.dpa m.size
  let po := s1.memPoisoned m.dpa || s1.memPoisoned (m.dpa + m.size - 1)
  let s2 := if m.kind = .rdU || (m.kind = .atN && po) then s1 else s1.burst m.dpa m.size true
  let s := if m.kind = .rdU || m.fromEngine then s2 else s2.note (m.dpa / 128)
  match m.kind with
  | .rdU => s.answerMaster { homeMsg s .data m m.src with pay := some old, size := m.size, poison := po }
  | .wrU =>
    let s2 := if m.flag then s.memMerge m.dpa m.size (m.pay.getD 0) m.cmp else s.memWrite m.dpa m.size (m.pay.getD 0)
    s2.answerMaster (homeMsg s .uAck m m.src)
  | .atN =>
    if po then s.answerMaster { homeMsg s .atR m m.src with pay := some 0, size := m.size, flag := m.flag || others, poison := true }
    else
    let new := if m.op = 16 then max old (m.pay.getD 0) else atomResult m.op m.size old (m.pay.getD 0) m.cmp
    (s.memWrite m.dpa m.size new).answerMaster
      { homeMsg s .atR m m.src with pay := some old, size := m.size, flag := m.flag || others }
  | _ => s

/-- Invalidations to holders, with acknowledgements to a node. A line of an easement carries TAG 16 and names the home
(R258). -/
def State.invAll (s : State) (m : Msg) (holders : List Nat) (ackTo : Node) (ease : Bool) : State :=
  holders.foldl (fun s a => s.send { homeMsg s .inv m (.agent a) with
    tag := (if ease then 16 else m.tag), req := (if ease then s.homeOf m.dpa else ackTo) }) s

/-- An entry made busy with a transaction. -/
def State.busy (s : State) (line : Nat) (e : DirEntry) (x : Txn) : State :=
  { s with dir := s.dir.set line { e with st := .B, txn := some x } }

/-- An entry that is not busy given up: every holder invalidated, or the owner recalled, with acknowledgements to the home. -/
def State.evictLine (s : State) (l : Nat) (e : DirEntry) : State :=
  let m := Msg.blank .rcl (s.homeOf (l * 128)) (s.homeOf (l * 128)) (l * 128) e.parcel 0
  let hs := vecList e.vec
  let x : Txn := ⟨m, false, e.st == .X, if e.st = .S then hs.length else 0, .S, 0, true, none, true⟩
  if e.st = .S then (if hs.isEmpty then { s with dir := s.dir.erase l } else (s.busy l e x).invAll m hs (s.homeOf (l * 128)) e.ease)
  else hs.foldl (fun s a => s.send { homeMsg s .rcl m (.agent a) with tag := e.parcel }) (s.busy l e x)

/-- Every entry of some lines that is not busy given up (R258: a weight-set load or reload writes them); the lines have no holder once no
entry is left. -/
def State.evictLines (s : State) (p : Nat → Bool) : State :=
  (s.dir.filter (fun e => p e.1 && e.2.st != .B)).foldl (fun s e => s.evictLine e.1 e.2) s
def State.linesHeld (s : State) (p : Nat → Bool) : Bool := s.dir.any (fun e => p e.1)

/-- An eviction of the least recently used entry of a full set that is not busy (R238). -/
def State.evictEntry (s : State) (line : Nat) : State :=
  let cands := (s.dirSet line).filter (fun e => e.2.st != .B)
  match cands.foldl (fun (b : Option (Nat × DirEntry)) e => match b with
      | none => some e
      | some x => if e.2.use < x.2.use then some e else some x) none with
  | none => s
  | some (l, e) => (s.addWrap (Reg.cohSliceStat (s.channelOf (l * 128))) 63 32 1).evictLine l e

/-- Put at the end of a line's waiting requests, in arrival order (R240). -/
def State.enqueue (s : State) (m : Msg) : State :=
  { s with waitq := s.waitq.set (m.dpa / 128) (s.waitq.getD (m.dpa / 128) [] ++ [m]) }

/-- A request put into the hold store of its channel (R302). -/
def State.holdIn (s : State) (m : Msg) : State :=
  let s1 := (s.transit (Reg.memCnt (s.channelOf m.dpa) 4) 1).enqueue m
  { s1 with retrain := { s1.retrain with hold := s1.retrain.hold ++ [m.dpa / 128] } }

/-- Whether the memory access of a request waits for the end of a slice: its channel is in one, and it is no read that hits a line in the
channel's write buffer (R302). -/
def State.held (s : State) (m : Msg) : Bool :=
  s.channelHeld (s.channelOf m.dpa) &&
  !((m.kind == .rdS || m.kind == .rdX || m.kind == .upg || m.kind == .rdU) && s.retrain.wbuf.contains (m.dpa / 128))

/-- Requests that a slice is serving, and requests in its buffer (R239). -/
def State.sliceBusy (s : State) (c : Nat) : Nat := (s.dir.filter (fun e => e.2.st == .B && s.channelOf (e.1 * 128) == c)).length
def State.sliceWaiting (s : State) (c : Nat) : Nat := ((s.waitq.filter (fun q => s.channelOf (q.1 * 128) == c)).map (fun q => q.2.length)).sum

/-- A near atomic marked with whether its line has a holder other than its master (R254). -/
def markHeld (m : Msg) (vec : BitVec 288) : Msg :=
  if m.kind = .atN then { m with flag := (vecList vec).any (fun a => m.src != .agent a) } else m

/-- An unfinished request that asks for an entry in a full set waits; others are served as Table 08-4 states. `others`
says that another request for the line was waiting.
(DEDUCED: log entry 24.) -/
def State.serveHome (s : State) (m0 : Msg) (others : Bool) : State :=
  let m := match s.dir.get? (m0.dpa / 128) with | some e => markHeld m0 e.vec | none => m0
  let line := m.dpa / 128
  let src := m.src.agent?.getD 0
  let needsEntry := m.kind == .rdS || m.kind == .rdX || m.kind == .upg
  let x0 : Txn := ⟨m, true, false, 0, .X, vecOnly src, false, none, false⟩
  match s.dir.get? line with
  | none =>
    if !needsEntry then s.memAccess m others
    else if (s.dirSet line).length ≥ 8 then (s.enqueue m).evictEntry line
    else
      let e : DirEntry := ⟨0, .B, m.tag, s.easeLine m.dpa, s.tick, none⟩
      let s := { s with tick := s.tick + 1 }
      if m.kind = .rdS ∧ (m.sonly ∨ e.ease) then (s.busy line e { x0 with next := .S }).grantMem m .S 0 true
      else (s.busy line e x0).grantMem m .E 0 true
  | some e0 =>
    let e := { e0 with use := s.tick }
    let s := { s with tick := s.tick + 1 }
    let hs := (vecList e.vec).filter (fun a => a != src)
    match e.st with
    | .B => s.enqueue m
    | .S =>
      match m.kind with
      | .rdS => (s.busy line e { x0 with next := .S, nextVec := vecSet e.vec src }).grantMem m .S 0 true
      | .rdX => ((s.busy line e x0).invAll m hs m.src e.ease).grantMem m .E hs.length true
      | .upg => ((s.busy line e x0).invAll m hs m.src e.ease).grantMem m .E hs.length (!vecBit e.vec src)
      | .rdU => s.memAccess m others
      | _ =>
        let all := vecList e.vec
        if all.isEmpty then ({ s with dir := s.dir.erase line }).memAccess m others
        else (s.busy line e ⟨m, false, false, all.length, .S, 0, true, none, false⟩).invAll m all (s.homeOf m.dpa) e.ease
    | .X =>
      let owner := (vecList e.vec).headD 0
      match m.kind with
      | .rdS =>
        if m.sonly then s.send (homeMsg s .specWait m m.src)
        else (s.busy line e { x0 with dataH := true, next := .S, nextVec := vecSet e.vec src, fwdTo := some owner }).send
          (homeMsg s .fwdS m (.agent owner))
      | .rdU =>
        if m.sonly then s.send (homeMsg s .specWait m m.src)
        else (s.busy line e ⟨m, false, true, 0, .S, 0, true, some owner, false⟩).send (homeMsg s .rcl m (.agent owner))
      | .rdX => (s.busy line e { x0 with fwdTo := some owner }).send (homeMsg s .fwdX m (.agent owner))
      | .upg => (s.busy line e { x0 with fwdTo := some owner }).send (homeMsg s .fwdX m (.agent owner))
      | _ => (s.busy line e ⟨m, false, true, 0, .S, 0, true, some owner, false⟩).send (homeMsg s .rcl m (.agent owner))

/-- The slack that a request carries after a wait at an arbiter, which deducts the time it waited (R477): that time is free. A request whose slack
reaches 0 while it waits is SLACK_EXPIRED's.
(DESIGN CHOICE: log entry 12.) -/
def State.waited (s : State) (m : Msg) : Msg × State :=
  if m.hdr.slack = 0x3FF then (m, s)
  else
    let (k, s1) := s.freshNat
    ({ m with hdr := { m.hdr with slack := m.hdr.slack - min (m.hdr.slack - 1) k } }, s1)

/-- The oldest waiting request of a line served, unless the entry is busy (R240), and whether it was; one that needs an entry in a full set has an
eviction begun for it (R238). -/
def State.serveNext (s : State) (line : Nat) : Bool × State :=
  match s.waitq.getD line [] with
  | [] => (false, { s with waitq := s.waitq.erase line })
  | m :: r =>
    let busy := (match s.dir.get? line with | some e => e.st == .B | none => false) || s.held m || decide (128 ≤ s.sliceBusy (s.channelOf m.dpa))
    let full := (s.dir.get? line).isNone && decide (8 ≤ (s.dirSet line).length) &&
      (m.kind == .rdS || m.kind == .rdX || m.kind == .upg)
    if busy then (false, s)
    else if full then
      (false, if (s.dirSet line).any (fun e => match e.2.txn with | some x => x.evict | none => false) then s else s.evictEntry line)
    else
      let (m1, s1) := s.waited m
      (true, ({ s1 with waitq := s1.waitq.set line r }).serveHome m1 (!r.isEmpty))

/-- The place of a waiting request in the order of R476, by what its channel has granted in the window: aged; of an owed master; within budget or
unregulated, with slack and without; over budget, with slack and without.
(DESIGN CHOICE: log entry 73.) -/
def State.rankOf (s : State) (m : Msg) : Nat :=
  if m.aged then 0
  else
    let loose := b2n (m.hdr.slack == 0x3FF)
    match m.master? with
    | none => 2 + loose
    | some k =>
      let got := s.slots.getD (64 * s.channelOf m.dpa + k) 0
      if got < s.fieldOf (Reg.shrMApplied k) 8 0 then 1 else if got ≤ s.fieldOf (Reg.shrMCfg k) 8 0 then 2 + loose else 4 + loose

/-- Whether a waiting request goes ahead of another: by rank, then by slack where both state one, then in order of arrival; one grant in every 16 goes
to the oldest over-budget request (R476).
(DESIGN CHOICE: log entry 73.) -/
def State.goesAhead (s : State) (a b : Msg) : Bool :=
  let turn := s.slots.getD (24576 + s.channelOf a.dpa) 0 % 16 == 15
  let late (m : Msg) : Bool := turn && decide (4 ≤ s.rankOf m)
  let older := decide (a.hdr.seq < b.hdr.seq)
  if late a || late b then late a && (!late b || older)
  else
    let (i, j) := (s.rankOf a, s.rankOf b)
    decide (i < j) || (i == j && (if (i == 2 || i == 4) && a.hdr.slack != b.hdr.slack then decide (a.hdr.slack < b.hdr.slack) else older))

/-- The line of a list whose oldest waiting request goes ahead of those of the others. -/
def State.bestLine (s : State) (ls : List Nat) : Option (Nat × Msg) :=
  ls.foldl (fun (b : Option (Nat × Msg)) l => match s.waitq.getD l [], b with
    | [], _ => b
    | m :: _, none => some (l, m)
    | m :: _, some x => if s.goesAhead m x.2 then some (l, m) else b) none

/-- The waiting requests of some lines served in the order of R476, each line's in its own order (R240), until none can go on; the number bounds
the requests.
(DESIGN CHOICE: log entry 73.) -/
def State.serveLines (s : State) : Nat → List Nat → State
  | 0, _ => s
  | n + 1, ls => match s.bestLine ls with
    | none => s
    | some (l, _) => match s.serveNext l with
      | (true, s1) => s1.serveLines n ls
      | (false, s1) => s1.serveLines n (ls.erase l)

/-- The same for the lines that a test names. -/
def State.serveWhere (s : State) (p : Nat → Bool) : State :=
  let ls := (s.waitq.map Prod.fst).filter p
  s.serveLines (ls.length + (s.waitq.map (fun q => q.2.length)).sum) ls

/-- The waiting requests of a line, and those of the lines of its set and slice, which an entry that goes free may let go on. -/
def State.serveSet (s : State) (line : Nat) : State :=
  s.serveWhere (fun l => l == line || (dirSetOf l == dirSetOf line && s.channelOf (l * 128) == s.channelOf (line * 128)))

/-- A transaction that has received every message it waits for ends: an uncached request's memory access is made, the
entry takes its next state, and waiting requests of the line, of its set and, where the transaction table was full, of the slice go on. -/
def State.endTxn (s : State) (line : Nat) : State :=
  match s.dir.get? line with
  | none => s
  | some e =>
    match e.txn with
    | none => s
    | some x =>
      if x.cmpAck || x.dataH || decide (0 < x.invAcks) then s
      else
        let c := s.channelOf (line * 128)
        let s1 := if x.free then { s with dir := s.dir.erase line }
          else { s with dir := s.dir.set line { e with st := x.next, vec := x.nextVec, txn := none } }
        let s2 := if x.free && !x.evict then
            (if s1.held x.req then { s1 with waitq := s1.waitq.set line (x.req :: s1.waitq.getD line []), retrain := { s1.retrain with hold := line :: s1.retrain.hold } }
             else s1.memAccess x.req (!(s1.waitq.getD line []).isEmpty))
          else s1
        let s3 := s2.serveSet line
        if 128 ≤ s.sliceBusy c then
          s3.serveWhere (fun l => s3.channelOf (l * 128) == c)
        else s3

/-- The entry's transaction changed, then ended if nothing is left to wait for. -/
def State.txnStep (s : State) (line : Nat) (f : Txn → Txn) : State :=
  match s.dir.get? line with
  | some e => ({ s with dir := s.dir.set line { e with txn := e.txn.map f } }).endTxn line
  | none => s

/-- Memory written with a line's data that an owner sent home (R245, R261), during a slice by way of the channel's write buffer (R302); a poisoned
line keeps its page listed (R567). -/
def State.writeHome (s : State) (m : Msg) : State :=
  match m.pay with
  | some d =>
    let s1 := ((s.note (m.dpa / 128)).memWrite (m.dpa / 128 * 128) 128 d).burst (m.dpa / 128 * 128) 128 true
    if s1.channelHeld (s1.channelOf m.dpa) then { s1 with retrain := { s1.retrain with wbuf := m.dpa / 128 :: s1.retrain.wbuf } } else s1
  | none => s


/-! ### Writes of the hub's own engines (R236) -/

/-- The checks of a slice before it serves a request: during a retraining slice of its channel it is held (R302), behind an earlier one to its line,
or where the transaction table is full, it waits in order (R239, R240). -/
def State.admitHome (s : State) (m : Msg) : State :=
  if s.held m then s.holdIn m
  else if !(s.waitq.getD (m.dpa / 128) []).isEmpty || decide (128 ≤ s.sliceBusy (s.channelOf m.dpa)) then s.enqueue m
  else s.serveHome m false

/-- A request of an engine with its parcel and priority, whose master's slack it carries (R477); one of no master is the hub's own and unregulated.
(DEDUCED: log entry 123.) -/
def State.fromMaster (s : State) (mst : Nat × Nat) (m : Msg) : Msg :=
  { m with tag := mst.1, prio := mst.2,
           hdr := { m.hdr with seq := s.tick, slack := if mst.1 < 16 then s.fieldOf (Reg.shrMSlack (4 * mst.1 + mst.2)) 9 0 else 0x3FF } }

/-- Bytes of one line written by an engine of the hub, as a request to the home that leaves no cached copy (R236): holders are invalidated or
recalled first, and until the write is made the hub's own reads see it over the line (State.latest).
(DESIGN CHOICE: log entry 26.) -/
def State.lineWrite (s : State) (dpa n v : Nat) (mst : Nat × Nat := (16, 0)) : State :=
  (s.note (dpa / 128)).admitHome (s.fromMaster mst { Msg.blank .wrU (.hub 8) (s.homeOf dpa) dpa 16 0 with size := n, pay := some (v % 2 ^ (8 * n)) })

/-- Bytes written in the coherent view from a DPA upward, line by line; the first argument bounds the lines. -/
def State.cohWriteN (s : State) (mst : Nat × Nat) : Nat → Nat → List Byte → State
  | 0, _, _ => s
  | k + 1, dpa, bs =>
    if bs.isEmpty then s
    else
      let n := 128 - dpa % 128
      State.cohWriteN (s.lineWrite dpa (bs.take n).length (ofBytes (bs.take n)) mst) mst k (dpa + n) (bs.drop n)

/-- Bytes written in the coherent view.
(DESIGN CHOICE: log entry 26.) -/
def State.cohWrite (s : State) (dpa : Nat) (bs : List Byte) (mst : Nat × Nat := (16, 0)) : State := s.cohWriteN mst (bs.length / 128 + 2) dpa bs

/-- The word raised to at least a value (R69, R70), by a near maximum at its home.
(DESIGN CHOICE: log entry 26.) -/
def State.raiseWord (s : State) (dpa v : Nat) : State :=
  (s.note (dpa / 128)).admitHome (s.fromMaster (16, 0) { Msg.blank .atN (.hub 8) (s.homeOf dpa) dpa 16 0 with size := 8, op := 16, pay := some (v % 2 ^ 64) })

/-- Whether a write of the hub's own engines still waits at a home: what such a write completes waits for it. -/
def State.hubOpen (s : State) : Bool :=
  s.waitq.any (fun q => q.2.any Msg.fromEngine) || s.dir.any (fun e => match e.2.txn with | some x => x.free && !x.evict && x.req.fromEngine | none => false)

end Sys2Proof.Machine
end

