-- ==== Sys2Proof/Machine/Translate.lean ====
section
/-! DEFINITION. Address translation (chapter 02, R462), the accesses of the hub's own engines, event rings (R429), and
the loss of a context (R52 to R54). -/

namespace Sys2Proof.Machine

/-- Where an address leads once translated. -/
structure Xlat where
  dpa    : Nat
  ppa    : Nat
  stream : Bool
  uncached : Bool
  window : Option Nat
  ease   : Bool
  deriving DecidableEq, Repr

/-- A failed translation: the code of Table 02-7 and the PPA where the walk reached one. -/
structure Xfault where
  code : Nat
  ppa  : Nat
  deriving DecidableEq, Repr

/-- Whether a PVA lies in the host window (Table 02-3). -/
def inHost (pva : Nat) : Bool := decide (0xC000000000000 ≤ pva)

/-- The host address of a PVA of the host window (R42). -/
def hostAddr (c : Context) (pva : Nat) : Nat := (c.host + (pva - 0xC000000000000)) % 2 ^ 64

/-- A plat entry of a parcel (Table 16-2); a township may still hold the entry that a change in progress replaces
(R464), and which of the two an access uses is free.
(DEDUCED: log entry 90.) -/
def State.platEntry (s : State) (p g : Nat) (ship : Option Nat) : Nat :=
  let now := if g < 2 ^ 18 then (s.regs.getD (platKey p g) 0).toNat else 0
  match ship.bind (fun t => (s.ship t).plat.get? g) with
  | some old => if Config.freeNat (s.free + g) % 2 = 1 then old else now
  | none => now

/-- A PPA resolved through the plat of a parcel (R462, R45, R46). The plat lies in the reserved range (Table 10-8): an entry on a FAILED
channel is an uncorrectable control error of the parcel (R298, R463), here code 0x0C. -/
def State.platResolve (s : State) (p : Nat) (ship : Option Nat) (ppa : Nat) (write : Bool) : Except Xfault Xlat :=
  let e := s.platEntry p (ppa / 2 ^ 30) ship
  let off := ppa % 2 ^ 30
  let fin (dpa : Nat) (ease : Bool) : Except Xfault Xlat :=
    if s.dpaAbsent dpa then .error ⟨0x07, ppa⟩ else .ok ⟨dpa, ppa, false, false, windowSite? dpa, ease⟩
  if s.rsvLost (platOff p (ppa / 2 ^ 30)) then .error ⟨0x0C, ppa⟩
  else if !e.testBit 0 then .error ⟨0x05, ppa⟩
  else if fld e 2 1 = 1 then
    if write then .error ⟨0x06, ppa⟩
    else match (s.eases.get? (fld e 35 28)).bind (fun x => x.map.get? (fld e 45 36)) with
      | some bay => fin (bay * 2 ^ 30 + off) true
      | none => .error ⟨0x0D, ppa⟩
  else fin (fld e 20 3 * 2 ^ 30 + off) false

/-- Whether a valid page-table entry breaks R48 at a level (3 root, 2, 1, 0). -/
def badEntry (lvl e : Nat) : Bool :=
  let leaf := e.testBit 1
  fld e 7 6 != 0 || fld e 55 48 != 0 || (lvl == 3 && leaf) || (lvl == 0 && !leaf) ||
  (leaf && fld e 5 4 == 3) || (!leaf && fld e 5 2 != 0) ||
  (if leaf then (fld e 47 8 * 256) % (if lvl = 2 then 2 ^ 30 else if lvl = 1 then 2 ^ 21 else 2 ^ 16) != 0
   else (fld e 47 8 * 256) % (if lvl = 1 then 256 else 4096) != 0)

/-- The bytes one entry of a level covers: the page size of its leaf. -/
def levelShift (lvl : Nat) : Nat := if lvl = 3 then 39 else if lvl = 2 then 30 else if lvl = 1 then 21 else 16

/-- The walk from a level down: the leaf entry and the shift of its page (R47 to R50).
(DESIGN CHOICE: log entry 117.) -/
def State.walk (s : State) (p : Nat) (ship : Option Nat) (pva : Nat) : Nat → Nat → Except Xfault (Nat × Nat)
  | lvl, table =>
    let idx := if lvl = 3 then fld pva 51 39 else if lvl = 2 then fld pva 38 30 else if lvl = 1 then fld pva 29 21 else fld pva 20 16
    match s.platResolve p ship (table + idx * 8) false with
    | .error f => .error f
    | .ok x =>
      if s.poisoned x.dpa then .error ⟨0x0B, x.ppa⟩
      else
        let e := if x.window.isSome then Config.freeNat (s.free + x.dpa) else s.cohRead x.dpa 8
        if !e.testBit 0 then .error ⟨0x01, 0⟩
        else if badEntry lvl e then .error ⟨0x04, 0⟩
        else if e.testBit 1 then .ok (e, levelShift lvl)
        else match lvl with
          | 0 => .error ⟨0x04, 0⟩
          | l + 1 => State.walk s p ship pva l (fld e 47 8 * 256)

/-- The addresses of the entries that a walk reads, the root's first (R50). -/
def State.walkReads (s : State) (p : Nat) (ship : Option Nat) (pva : Nat) : Nat → Nat → List Nat
  | lvl, table =>
    let idx := if lvl = 3 then fld pva 51 39 else if lvl = 2 then fld pva 38 30 else if lvl = 1 then fld pva 29 21 else fld pva 20 16
    match s.platResolve p ship (table + idx * 8) false with
    | .error _ => []
    | .ok x =>
      let e := s.cohRead x.dpa 8
      if x.window.isSome || s.poisoned x.dpa || !e.testBit 0 || badEntry lvl e || e.testBit 1 then [x.dpa]
      else match lvl with
        | 0 => [x.dpa]
        | l + 1 => x.dpa :: State.walkReads s p ship pva l (fld e 47 8 * 256)

/-- An engine's read of a run of bytes inside one line of HBM, counted on its routes and as bursts of its channel (R285, R308).
(DESIGN CHOICE: log entry 38.) -/
def State.countRead (s : State) (ep dpa n : Nat) : State :=
  if 2 ^ 40 ≤ dpa then s else (s.countEngine ep (s.homeOf dpa).ep 0 (ceilDiv (dpa % 32 + n) 32)).burst dpa n false

/-- The reads of a walk counted at the interface that makes them. -/
def State.countWalk (s : State) (ep : Nat) (c : Context) (ship : Option Nat) (pva : Nat) : State :=
  (s.walkReads c.parcel ship pva 3 c.root).foldl (fun s a => s.countRead ep a 8) s

/-- What a leaf and a PVA give: the PPA, then the plat; `acc` is 0 load, 1 store, 2 atomic, 3 fetch, 4 fence signal,
5 fence wait (R49, R462). -/
def State.leafResolve (s : State) (p : Nat) (ship : Option Nat) (pva acc : Nat) (leaf shift : Nat) : Except Xfault Xlat :=
  let ppa := fld leaf 47 8 * 256 + pva % 2 ^ shift
  if (acc = 1 || acc = 2 || acc = 4) && !leaf.testBit 2 then .error ⟨0x02, ppa⟩
  else if acc = 3 && !leaf.testBit 3 then .error ⟨0x03, ppa⟩
  else match s.platResolve p ship ppa (acc = 1 || acc = 2 || acc = 4) with
    | .error f => .error f
    | .ok x => .ok { x with uncached := fld leaf 5 4 == 1, stream := fld leaf 5 4 == 2 }

/-- A fresh translation of a PVA of the translated region in a context, with the leaf it used. -/
def State.translateFresh (s : State) (c : Context) (ship : Option Nat) (pva acc : Nat) : Except Xfault (Xlat × Nat × Nat) :=
  match s.walk c.parcel ship pva 3 c.root with
  | .error f => .error f
  | .ok (leaf, shift) =>
    match s.leafResolve c.parcel ship pva acc leaf shift with
    | .error f => .error f
    | .ok x => .ok (x, leaf, shift)

/-- The PPA that an engine's access reached (R53). -/
def State.ppaAt (s : State) (c : Context) (pva : Nat) : Nat :=
  match s.translateFresh c none pva 0 with
  | .ok (x, _, _) => x.ppa
  | .error f => f.ppa

/-- A translation put into a cache of a number of entries: it takes the place of the one it renews, else a free place, else that of an
entry which the hardware chooses.
(DEDUCED: log entry 90.) -/
def cacheIn (l : List Tlb) (cap k : Nat) (e : Tlb) : List Tlb :=
  let r := l.filter (fun x => !(x.ctx == e.ctx && x.size == e.size && x.pva == e.pva))
  e :: (if r.length < cap then r else r.eraseIdx (Config.freeNat k % r.length))

/-- A translation held in the township's cache of 4,096 entries and the section's micro cache of 32 (R50).
(DEDUCED: log entry 90.) -/
def State.keepTlb (s : State) (t : Nat) (e : Tlb) : State :=
  { (s.modShip (shipOf t) (fun h =>
      { h with tlb := cacheIn h.tlb 4096 s.free e,
               micro := h.micro.set (sectOf t % 64) (cacheIn (h.micro.getD (sectOf t % 64) []) 32 (s.free + 1) e) })) with
    free := s.free + 2 }

/-- Whether a thread is speculative. -/
def State.specThread (s : State) (t : Nat) : Bool := match s.threads.get? t with | some th => th.spec.isSome | none => false

/-- Whether an access of a thread to a run of bytes waits for a slice (R302): no cache holds the translation of one of its ends, and the walk reads a
channel that is in one. -/
def State.walkHeld (s : State) (cn : Nat) (c : Context) (t pva len : Nat) : Bool :=
  let x := s.ship (shipOf t)
  [pva, pva + len - 1].any (fun a => !inHost a &&
    !(x.micro.getD (sectOf t % 64) [] ++ x.tlb).any (fun e => e.ctx == cn && e.pva == a / 2 ^ e.size) &&
    (s.walkReads c.parcel (some (shipOf t)) a 3 c.root).any (fun d => s.channelHeld (s.channelOf d)))

/-- A translation for a thread: one that its section or its township holds, or a fresh walk, as the hardware chooses (R50, R51); a fresh
one is held from then on, but not that of a speculative thread, which would leave a trace (R165). The walk's reads are counted.
(DEDUCED: log entry 90.) -/
def State.translate (s : State) (cn : Nat) (c : Context) (t pva acc : Nat) : Except Xfault Xlat × State :=
  let x := s.ship (shipOf t)
  let cached := (x.micro.getD (sectOf t % 64) [] ++ x.tlb).find? (fun e => e.ctx == cn && e.pva == pva / 2 ^ e.size)
  let (useOld, s1) := s.flip
  match (if useOld then cached else none) with
  | some e => (s1.leafResolve c.parcel (some (shipOf t)) pva acc e.entry e.size, s1)
  | none =>
    let s2 := s1.countWalk (shipOf t) c (some (shipOf t)) pva
    match s1.translateFresh c (some (shipOf t)) pva acc with
    | .error f => (.error f, s2)
    | .ok (x, leaf, shift) => (.ok x, if s.specThread t then s2 else s2.keepTlb t ⟨cn, pva / 2 ^ shift, shift, leaf⟩)

/-! ### Accesses under way -/

/-- Whether an access stands translated and unanswered: it reaches HBM or a chiplet window where its translation led when it was made. -/
def accOpen (a : Acc) : Bool :=
  (match a.st with | .line => true | .room => true | .uncached => true | .closure => true | _ => false) && a.parts.any (fun p => p.got.isNone && p.via != .host && p.via != .pad)

/-- The translated accesses of a kind, by number. -/
def State.openIds (s : State) (f : Acc → Bool) : List Nat := (s.accs.filter (fun e => f e.2 && accOpen e.2)).map Prod.fst

/-- Those of a list of accesses that are still under way. -/
def State.stillOpen (s : State) (l : List Nat) : List Nat := l.filter (fun k => s.accs.has k)

/-! ### Accesses of the queue engine, copy engines and other engines of the hub -/

/-- An engine's read of a run of bytes that crosses no 4 KiB page. A translation that permits no read is a HOST_ERROR (R389). -/
def State.readPage (s : State) (c : Context) (pva n : Nat) : Except Xfault (Nat × Bool) :=
  if inHost pva then
    (if s.hostWay c.fn c.pasid (hostAddr c pva) false = .deny then .error ⟨0x09, 0⟩ else .ok (Config.freeNat (s.free + pva) % 2 ^ (8 * n), false))
  else match s.translateFresh c none pva 0 with
    | .error f => .error f
    | .ok (x, _, _) =>
      if x.window.isSome then .ok (Config.freeNat (s.free + x.dpa) % 2 ^ (8 * n), false)
      else .ok (s.cohRead x.dpa n, s.spanPoisoned x.dpa n)

/-- Page by page; the first argument bounds the pages. -/
def State.readPages (s : State) (c : Context) : Nat → Nat → Nat → Except Xfault (Nat × Bool)
  | 0, _, _ => .ok (0, false)
  | k + 1, pva, n =>
    if n = 0 then .ok (0, false)
    else
      let m := min n (4096 - pva % 4096)
      match s.readPage c pva m, State.readPages s c k (pva + m) (n - m) with
      | .ok (v, a), .ok (w, b) => .ok (v % 2 ^ (8 * m) + 2 ^ (8 * m) * w, a || b)
      | .error f, _ => .error f
      | _, .error f => .error f

/-- An engine's read of n bytes at a PVA of a context, each page translated. Host-window bytes are what the host returns and are free here;
bytes behind a chiplet window are the chiplet's and are free. Poison is reported by the flag.
(DESIGN CHOICE: log entry 91.) -/
def State.engineRead (s : State) (c : Context) (pva n : Nat) : Except Xfault (Nat × Bool) := s.readPages c (n / 4096 + 2) pva n

/-- The requests of an engine's access to a chiplet window, line by line (R269, R354): RdU for n bytes, or WrU of bytes. They go by the site's
adapter, which spends credit on each and holds its answer owed. The first number bounds the lines.
(DESIGN CHOICE: log entry 91.) -/
def State.windowSpan (s : State) (tag k : Nat) (data : Option (List Byte)) : Nat → Nat → Nat → State
  | 0, _, _ => s
  | j + 1, dpa, n =>
    if n = 0 then s
    else
      let m := min n (128 - dpa % 128)
      let kind : MsgKind := if data.isSome then .wrU else .rdU
      State.windowSpan (s.send { Msg.blank kind (.hub 8) (.hub k) dpa tag (s.tick % 4096) with
        size := m, pay := data.map (fun bs => ofBytes (bs.take m)) }) tag k (data.map (fun bs => bs.drop m)) j (dpa + m) (n - m)

/-- The read requests that the hub sends on the host link for a run of bytes: none longer than the largest read request, nor across a 4 KiB page
(Table 13-1, R371). -/
def State.hostAskN (s : State) (fn : Nat) (pasid : Option Pasid) (xlat : Bool) : Nat → Nat → Nat → Nat → State
  | 0, _, _, _ => s
  | k + 1, addr, n, id =>
    if n = 0 then s
    else
      let m := min (min n s.maxRead) (4096 - addr % 4096)
      State.hostAskN (s.emit (.hostRead fn pasid addr m id xlat)) fn pasid xlat k (addr + m) (n - m) id
def State.hostAsk (s : State) (fn : Nat) (pasid : Option Pasid) (addr n id : Nat) (at_ : Option Nat := none) : State :=
  s.hostAskN fn pasid at_.isSome (n / 128 + 3) (at_.getD addr) n id

/-- The requests that an engine's read sends, page by page: on the host link where it reads the host window (R42), translated while ATS is on
(R389), to the chiplet of a window, or to HBM, where they are counted with the walk that leads there; the first number bounds the pages. -/
def State.engineAskN (s : State) (c : Context) : Nat → Nat → Nat → State
  | 0, _, _ => s
  | k + 1, pva, n =>
    if n = 0 then s
    else
      let m := min n (4096 - pva % 4096)
      let s1 := if inHost pva then
          (match s.hostWay c.fn c.pasid (hostAddr c pva) false with
           | .go at_ => s.hostAsk c.fn (pasidOf c.pasid) (hostAddr c pva) m noAcc at_
           | _ => s.atsAsk c.fn c.pasid (hostAddr c pva))
        else
          let s0 := s.countWalk 680 c none pva
          match s.translateFresh c none pva 0 with
          | .ok (x, _, _) => (match x.window with
            | some w => s0.windowSpan c.parcel w none 33 x.dpa m
            | none => (upTo ((x.dpa + m + 127) / 128 - x.dpa / 128)).foldl (fun s i =>
                let lo := max x.dpa (x.dpa / 128 * 128 + 128 * i)
                s.countRead 680 lo (min (x.dpa + m) (x.dpa / 128 * 128 + 128 * i + 128) - lo)) s0)
          | .error _ => s0
      State.engineAskN s1 c k (pva + m) (n - m)
def State.engineAsk (s : State) (c : Context) (pva n : Nat) : State := s.engineAskN c (n / 4096 + 2) pva n

/-- Whether an engine's read of a run of bytes waits: a page of it lies on a channel that is in a slice (R302), or in the host window while Bus Master
Enable of the function is 0 (R384), or without a translation in the cache (R389). -/
def State.engineHeldN (s : State) (c : Context) : Nat → Nat → Nat → Bool
  | 0, _, _ => false
  | k + 1, pva, n =>
    if n = 0 then false
    else
      let m := min n (4096 - pva % 4096)
      (if inHost pva then !s.hostOpen c.fn || s.hostWay c.fn c.pasid (hostAddr c pva) false == .ask
       else (match s.translateFresh c none pva 0 with | .ok (x, _, _) => s.spanHeld x.dpa m | .error _ => false)) ||
        State.engineHeldN s c k (pva + m) (n - m)
def State.engineHeld (s : State) (c : Context) (pva n : Nat) : Bool := s.engineHeldN c (n / 4096 + 2) pva n

/-- The Translation Requests for the pages of a run in the host window that have no translation in the cache (R389). -/
def State.engineWantN (s : State) (c : Context) : Nat → Nat → Nat → State
  | 0, _, _ => s
  | k + 1, pva, n =>
    if n = 0 then s
    else
      let m := min n (4096 - pva % 4096)
      State.engineWantN (if inHost pva && s.hostOpen c.fn && s.hostWay c.fn c.pasid (hostAddr c pva) false == .ask then s.atsAsk c.fn c.pasid (hostAddr c pva) else s)
        c k (pva + m) (n - m)

/-- An engine's reads of some runs, and what follows them: where one waits, only the Translation Requests that it needs are sent, and the event
has not happened yet. -/
def State.whenOpen (s : State) (c : Context) (runs : List (Nat × Nat)) (k : State) : State :=
  if runs.any (fun r => s.engineHeld c r.1 r.2) then runs.foldl (fun s r => s.engineWantN c (r.2 / 4096 + 2) r.1 r.2) s else k

/-- An engine's write of bytes that cross no 4 KiB page: on the host link, in the coherent view of HBM, or to a chiplet. -/
def State.writePageAt (s : State) (c : Context) (pva : Nat) (bs : List Byte) (acc : Option Nat) (mst : Nat × Nat) : Except Xfault State :=
  if inHost pva then
    (if s.hostWay c.fn c.pasid (hostAddr c pva) true = .deny then .error ⟨0x09, 0⟩ else .ok (s.hostPut c.fn c.pasid (hostAddr c pva) bs acc))
  else match s.translateFresh c none pva 1 with
    | .error f => .error f
    | .ok (x, _, _) =>
      match x.window with
      | some n => .ok (s.windowSpan c.parcel n (some bs) 33 x.dpa bs.length)
      | none => .ok (s.cohWrite x.dpa bs mst)

/-- An engine's write of bytes at a PVA of a context, each page translated; where a page faults, nothing is written. `acc` is the access type of the
fault of a host write whose translation fails, none for an event record; `mst` the parcel and the priority of the engine's master.
(DESIGN CHOICE: log entry 91.) -/
def State.writePages (s : State) (c : Context) (acc : Option Nat) (mst : Nat × Nat) : Nat → Nat → List Byte → Except Xfault State
  | 0, _, _ => .ok s
  | k + 1, pva, bs =>
    if bs.isEmpty then .ok s
    else
      let m := 4096 - pva % 4096
      match s.writePageAt c pva (bs.take m) acc mst with
      | .ok s1 => State.writePages s1 c acc mst k (pva + m) (bs.drop m)
      | .error f => .error f
def State.engineWrite (s : State) (c : Context) (pva : Nat) (bs : List Byte) (acc : Option Nat := none) (mst : Nat × Nat := (16, 0)) : Except Xfault State :=
  s.writePages c acc mst (bs.length / 4096 + 2) pva bs

/-- The packets of an engine's access to a run of bytes, line by line, counted on their routes (R269, R285): a read asks and is answered with the
quarters that hold the bytes, a write carries byte enables and its quarters, and the bursts that it reads are counted (R308). A window's packets
are messages of their own (`windowSpan`). The first number bounds the lines.
(DESIGN CHOICE: log entry 38.) -/
def State.countSpan (s : State) (ep : Nat) (window : Option Nat) (write : Bool) : Nat → Nat → Nat → State
  | 0, _, _ => s
  | k + 1, dpa, n =>
    if n = 0 || window.isSome then s
    else
      let m := min n (128 - dpa % 128)
      let s1 := if write then s.countEngine ep (s.homeOf dpa).ep (1 + ceilDiv (dpa % 32 + m) 32) 0 else s.countRead ep dpa m
      State.countSpan s1 ep window write k (dpa + m) (n - m)

/-- The same for a run of bytes at a PVA, page by page: what the copy engine of a township moves outside the host window. -/
def State.countRuns (s : State) (c : Context) (ep : Nat) (write : Bool) : Nat → Nat → Nat → State
  | 0, _, _ => s
  | k + 1, pva, n =>
    if n = 0 || inHost pva then s
    else
      let m := min n (4096 - pva % 4096)
      let s1 := match s.translateFresh c none pva 0 with
        | .ok (x, _, _) => s.countSpan ep x.window write 33 x.dpa m
        | .error _ => s
      State.countRuns s1 c ep write k (pva + m) (n - m)

/-- Whether a write that an engine made for a function is not yet visible everywhere: it waits at a home, for a translation, or for the answer of a
chiplet. What such a write completes waits for it (R415). -/
def State.writesOpen (s : State) (fn : Nat) : Bool :=
  s.hubOpen || s.hostBusy fn || s.net.any (fun m => m.kind == .wrU && m.src == .hub 8) ||
  s.sites.any (fun x => x.2.owed.any (fun o => o.1 == 0x1B && o.2.1 == 680))

/-! ### Event rings (R429) -/

/-- The 16 bytes of an event record. -/
def eventBytes (count code thread detail : Nat) : List Byte :=
  bytesOf 4 count ++ bytesOf 2 code ++ bytesOf 2 0 ++ bytesOf 4 thread ++ bytesOf 4 detail

/-- An event written to a context's ring; a write that faults loses the record without a fault. -/
def State.ctxEvent (s : State) (cn code thread detail : Nat) : State :=
  match s.ctxs.get? cn with
  | none => s
  | some c =>
    match c.event with
    | none => s
    | some r =>
      let n := (r.count + 1) % 2 ^ 32
      let s1 := s.setCtx cn { c with event := some { r with count := n } }
      match s1.engineWrite c (r.addr + (r.count % 2 ^ r.log2) * 16) (eventBytes n code thread detail) with
      | .ok s2 => s2
      | .error _ => s1

/-- An event written to a function's ring of untranslated host addresses. -/
def State.fnEvent (s : State) (fn code detail : Nat) : State :=
  match s.fnEvents.get? fn with
  | none => s
  | some r =>
    let n := (r.count + 1) % 2 ^ 32
    ({ s with fnEvents := s.fnEvents.set fn { r with count := n } }).hostPutRaw
      fn (r.addr + (r.count % 2 ^ r.log2) * 16) (eventBytes n code 0xFFFFFFFF detail)

/-! ### Loss of a context -/

/-- The memory requests of accesses that end before they are performed, dropped (R54, R606): a write or an atomic that is on the fabric or
waits at its home is taken back; one whose line is being recalled ends with the recall alone; line requests and
answers still arrive, and serve no access.
(DEDUCED: log entry 22.) -/
def State.dropRequests (s : State) (ids : List Nat) : State :=
  let mine (m : Msg) : Bool := (m.kind == .wrU || m.kind == .atN) &&
    (match m.src with
     | .agent t => (match (s.ship t).misses.get? m.txid with | some x => x.kind == m.kind && ids.contains x.acc | none => false)
     | _ => false)
  let gone := s.net.filter mine ++ s.retrain.source.filter mine ++ (s.waitq.map (fun q => q.2.filter mine)).flatten ++
    (s.dir.filterMap (fun e => match e.2.txn with | some x => if x.free && !x.evict && mine x.req then some x.req else none | none => none))
  let left (l : List HeldPkt) : List HeldPkt := l.filter (fun p => !gone.any (fun m => m.hdr.seq == p.seq))
  { s with
    net := s.net.filter (fun m => !mine m)
    engHeld := (s.engHeld.mapV (fun _ l => left l)).filter (fun e => !e.2.isEmpty)
    retrain := { s.retrain with source := s.retrain.source.filter (fun m => !mine m) }
    waitq := s.waitq.mapV (fun _ q => q.filter (fun m => !mine m))
    dir := s.dir.mapV (fun _ e => { e with txn := e.txn.map (fun x => if x.free && !x.evict && mine x.req then { x with evict := true } else x) })
    ships := s.ships.mapV (fun t h => { h with
      misses := (h.misses.keep (fun k _ => !gone.any (fun m => m.src == .agent t && m.txid == k))).mapV
        (fun _ x => if ids.contains x.acc then { x with acc := noAcc } else x) }) }

/-- Everything the threads of a launch hold, dropped: threads, outstanding accesses and their requests, scratchpad requests, dispatch packets on
their way and copies in the ledger, records and speculations (R54, R174), and what was saved of them: its gather streams have ended (R197). -/
def State.dropLaunch (s0 : State) (l : Nat) : State :=
  let s := s0.dropRequests ((s0.accs.filter (fun e => e.2.launch == l)).map Prod.fst)
  let ours (t : Nat) : Bool := match s.threads.get? t with | some th => th.launch == l | none => false
  { s with
    threads := s.threads.keep (fun _ t => t.launch != l)
    accs := s.accs.keep (fun _ a => a.launch != l)
    toks := s.toks.filter (fun m => m.launch != l)
    sections := s.sections.mapV (fun _ x =>
      { x with
        records := x.records.filter (fun r => r.launch != l)
        slots := x.slots.map (fun o => match o with
          | some t => if ours t then none else some t
          | none => none)
        reqs := x.reqs.filter (fun r => r.launch != l)
        refused := x.refused.filter (fun r => r.2.2.2 != l) })
    ships := s.ships.mapV (fun _ x =>
      { x with held := x.held.filter (fun p => !s.toks.any (fun m => m.launch == l && m.hdr.seq == p.seq)),
               ledger := x.ledger.keep (fun _ c => c.launch != l), streams := x.streams.keep (fun _ g => g.launch != l),
               image := x.image.bind (fun im => if im.launch = l then none else some im),
               asm := x.asm.keep (fun _ a => a.1 != l),
               hints := x.hints.filter (fun h => !ours h.1), sentTok := x.sentTok.filter (fun h => !ours h.1) })
    cores := s.cores.mapV (fun _ x => match x.mac with
      | some (t, _) => if ours t then { x with mac := none } else x
      | none => x) }

/-- A command answered before its queue writes the reply. -/
def State.answer (s : State) (q i : Nat) (a : Answer) : State :=
  s.modQueue q (fun x => { x with cmds := x.cmds.modify i (fun c => match c.st with
    | .done _ => c
    | .replied => c
    | _ => { c with st := .done a }) })

/-- A launch ended with an answer; its townships are free again (R430). -/
def State.endLaunch (s : State) (l : Nat) (a : Answer) : State :=
  match s.launches.get? l with
  | none => s
  | some x => ({ (s.dropLaunch l) with launches := s.launches.erase l }).answer x.queue x.idx a

/-- Whether a command of a queue has begun and not ended. -/
def Cmd.inProgress (c : Cmd) : Bool :=
  match c.st with
  | .started => true
  | .serving _ => true
  | _ => false

/-- Whether a command is a WORK that has been sent to its engine (R433).
(DEDUCED: log entry 47.) -/
def Cmd.workSent (c : Cmd) : Bool :=
  c.pkt % 4096 == 0x043 && (match c.st with | .serving d => d.getD 2 0 == 1 | _ => false)

/-- The commands in progress of a context's queues end with an answer, but for a WORK at its engine, whose DONE still arrives; those of a stopped
queue are told that their context is lost once the queue is resumed (R445).
(DEDUCED: log entry 47.) -/
def State.endCommands (s : State) (h : Nat) (a : Answer) : State :=
  { s with queues := s.queues.mapV (fun _ q =>
      if q.ctx = h then
        { q with cmds := q.cmds.mapV (fun _ c =>
          if c.inProgress && !c.workSent then { c with st := if q.st = .stopped then .fetched else .done a } else c) }
      else q) }

/-- Every launch of a context ended; a saved one goes with its image, and its command waits for the resume (R445). -/
def State.endLaunches (s : State) (h : Nat) (a : Answer) : State :=
  (s.launches.filter (fun e => e.2.ctx == h)).foldl (fun s e =>
    if e.2.st = .saved then { (s.dropLaunch e.1) with launches := s.launches.erase e.1 } else s.endLaunch e.1 a) s

/-- A context marked lost with a fault: the first fault is recorded and later ones are counted (R52, R53); its threads
stop, its commands in progress end with CONTEXT_LOST, and event 0x8001 is reported (R419). -/
def State.loseCtx (s : State) (cn : Nat) (f : FaultRec) : State :=
  match s.ctxs.get? cn with
  | none => s
  | some c =>
    if c.st = .live then
      let a : Answer := ⟨0x40, f.code, 0⟩
      let h := ctxHandle cn c
      let s1 := s.setCtx cn { c with st := .lost, fault := some f }
      let s2 := (s1.endLaunches h a).endCommands h a
      let s3 := s2.ctxEvent cn 0x8001 0xFFFFFFFF f.code
      (s3.fnEvent c.fn 0x8001 f.code).interrupt c.fn 0
    else s.setCtx cn { c with later := satAdd 32 c.later 1, fault := c.fault.orElse (fun _ => some f) }

/-- A fault of a thread's access or encoding: a speculative thread holds it and waits for its closure (R55); any other
loses the context. -/
def State.threadFault (s : State) (t : Nat) (code access pva ppa : Nat) : State :=
  match s.threads.get? t with
  | none => s
  | some th =>
    match th.spec with
    | some sp => s.setThread t { th with spec := some { sp with fault := sp.fault.orElse (fun _ => some (code, access, pva, ppa)) }, wait := .closure }
    | none => s.loseCtx (th.ctx % 4096) ⟨code, access, pva, ppa, t⟩

end Sys2Proof.Machine
end

