-- ==== Sys2Proof/Machine/Contain.lean ====
section
/-! DEFINITION. Errors and their containment (chapter 21, R259, R260): the trace, the error log, the poison list, device-class
errors, the loss of a parcel's coherent domain, and a site going down. -/

namespace Sys2Proof.Machine

/-! ### Trace (R580, R581) -/

/-- A trace record: sent, or dropped and counted where transit's queue is full, which depends on the link and is free. A township, given by
its logical number (domain 0), stands in it by its physical one (R23).
(DESIGN CHOICE: log entries 83, 91.) -/
def State.trace (s : State) (kind domain unit : Nat) (payload : List Byte) : State :=
  let log2 := s.fieldOf Reg.trnCtrl 12 8
  if s.bit Reg.trnCtrl 0 && s.bit Reg.trnFilter kind && decide (8 ≤ log2) && decide (log2 ≤ 24) then
    let (full, s1) := s.flip
    if full then s1.addSat Reg.trnStat 31 16 1
    else
      let (clock, s2) := s1.freshNat
      let local_ := if domain = 0 then (s2.core (unit * 4096)).steps else clock
      let rec_ := bytesOf 4 s2.traceSeq ++ bytesOf 1 kind ++ bytesOf 1 domain ++ bytesOf 2 (if domain = 0 then s2.physOf unit else unit) ++ bytesOf 8 local_ ++
        (payload ++ List.replicate 16 0).take 16
      ({ s2 with traceSeq := (s2.traceSeq + 1) % 2 ^ 32 }).hostPutRaw 0
        ((s2.reg Reg.trnBufBase).toNat + s2.traceSeq % 2 ^ log2 * 32) rec_
  else s

/-- Trace stopped (R581): ENABLE cleared. -/
def State.traceStop (s : State) : State := s.setBit Reg.trnCtrl 0 false

/-! ### Device-class errors (R563) -/

/-- Every live context of the hub or of one parcel lost with a fault code. -/
def State.loseAll (s : State) (parcel : Option Nat) (code : Nat) : State :=
  s.ctxs.foldl (fun s e => if parcel.isNone || parcel == some e.2.parcel then
    s.loseCtx e.1 ⟨code, 0, 0, 0, 0⟩ else s) s

/-- The commands of the function queues that have not completed, but for CTX_RETIRE and MEM_QUERY, ended with an answer. -/
def State.endFnCommands (s : State) (a : Answer) : State :=
  { s with queues := s.queues.mapV (fun _ q =>
    if q.ctx = 0 then { q with cmds := q.cmds.mapV (fun _ c =>
      if c.pkt % 4096 = 0x021 ∨ c.pkt % 4096 = 0x033 then c
      else match c.st with
        | .done _ => c
        | .replied => c
        | _ => { c with st := .done a }) }
    else q) }

/-- A device-class error (R563): every context lost with DEVICE_ERROR, FATAL set, the record, and vector 0 of the PF; the commands of
function queues end with INTERNAL and the cause. AER carries the report to the host.
(DEDUCED: log entry 82.) -/
def State.deviceError (s : State) (cause addr unit kind : Nat) : State :=
  let s1 := s.loseAll none 0x0E
  let s2 := if s1.bit Reg.rasStatus 0 then s1 else (s1.setBit Reg.rasStatus 0 true).setField Reg.rasStatus 15 8 cause
  (((s2.endFnCommands ⟨0xF0, s2.fieldOf Reg.rasStatus 15 8, 0⟩).record cause 3 17 addr unit kind 0).interrupt 0 0).emit (.mgmt 0x21 [cause])

/-! ### The poison list (R566, R573) -/

/-- A VF's binding (GLB_VF_CFG_n): whether it is bound, and its parcel. -/
def State.vfBound (s : State) (n : Nat) : Bool := s.bit (Reg.glbVfCfg n) 4
def State.vfParcel (s : State) (n : Nat) : Nat := s.fieldOf (Reg.glbVfCfg n) 3 0

/-- The functions of a parcel (R386): those that have contexts in it, and the VFs bound to it. -/
def State.parcelFns (s : State) (p : Nat) : List Nat :=
  ((s.ctxs.filter (fun e => e.2.parcel == p)).map (fun e => e.2.fn) ++
    (upTo 64).filter (fun n => decide (1 ≤ n) && s.vfBound n && s.vfParcel n == p)).eraseDups

/-- The parcels that map an easement. -/
def State.easeParcels (s : State) (e : Nat) : List Nat :=
  (s.parcels.filter (fun p => p.2.eases.any (fun x => x.2 == e))).map Prod.fst

/-- The easement and the offset in pages of a DPA of a weight pool bay. -/
def State.bayOf (s : State) (dpa : Nat) : Option (Nat × Nat) :=
  s.eases.findSome? (fun e => (e.2.map.find? (fun m => m.2 == dpa / 2 ^ 30)).map (fun m => (e.1, m.1 * 16384 + dpa % 2 ^ 30 / 65536)))

/-- Event 0x8003 for a listed page (R570, R573), and vector 0 of each function it concerns. -/
def State.poisonEvent (s : State) (page : Nat) : State :=
  match s.bayOf (page * 65536) with
  | some (e, off) =>
    let ps := s.easeParcels e
    let d := e * 2 ^ 24 + off
    let s1 := (s.ctxs.filter (fun c => ps.contains c.2.parcel)).foldl (fun s c => s.ctxEvent c.1 0x8003 0xFFFFFFFF d) s
    ((ps.map s.parcelFns).flatten.eraseDups).foldl (fun s f => (s.fnEvent f 0x8003 d).interrupt f 0) s1
  | none =>
    match s.parcels.find? (fun p => p.2.grans.contains (page / 16384)) with
    | some p => (s.parcelFns p.1).foldl (fun s f => (s.fnEvent f 0x8003 (if s.confidential && f == 0 then 0 else page)).interrupt f 0) s
    | none => s

/-- A page added to the list after an uncorrectable report; a full list counts it (R566). -/
def State.poisonAdd (s : State) (dpa : Nat) : State :=
  let page := dpa / 65536
  if s.poison.has page then
    { s with poison := s.poison.modify page (fun v => if v = 1 then 2 else v) }
  else if s.poison.length < 1024 then ({ s with poison := s.poison.set page 0 }).poisonEvent page
  else s.addSat Reg.rasPoisonStat 31 16 1

/-- A page removed (R569). -/
def State.poisonDrop (s : State) (page : Nat) : State := { s with poison := s.poison.erase page }

/-- Every page of a 1 GiB granule removed. -/
def State.poisonDropGranule (s : State) (g : Nat) : State := { s with poison := s.poison.keep (fun p _ => p / 16384 != g) }

/-! ### Sites and coherent domains -/

/-- The module whose sideband serves a site: link module 0, which before the link has a width is the first of its home block (R313). -/
def State.sbModule (s : State) (n : Nat) : Nat := (s.linkModules n (s.site n).width ++ s.homeBlock n).headD 0

/-- A sideband write to a chiplet's register. -/
def State.sbWrite (s : State) (n off v : Nat) : State :=
  (s.modSite n (fun x => { x with sb := x.sb.set off (BitVec.ofNat 64 v) })).emit (.sideband n (s.sbModule n) off (BitVec.ofNat 64 v))
def State.sbRead (s : State) (n off : Nat) : Nat := ((s.site n).sb.getD off 0).toNat

/-- A bit of BLK_CTRL written (0 FLUSH, 1 DROP, 2 MEAS). -/
def State.blkCtrl (s : State) (n b : Nat) (v : Bool) : State := s.sbWrite n 0x30 (putFld (s.sbRead n 0x30) b b (b2n v))

/-- FLUSH set or cleared at a site. -/
def State.setFlush (s : State) (n : Nat) (v : Bool) : State := (s.blkCtrl n 0 v).modSite n (fun x => { x with flush := v })
def State.setDrop (s : State) (n : Nat) (v : Bool) : State := (s.blkCtrl n 1 v).modSite n (fun x => { x with drop := v })

/-- Cache and tag blocks of a township (R230). -/
def cacheBlocks : Nat := 272

/-- A township put under test: cause 1 start-up, 2 command, 3 recovery; its save buffer and shadow areas are marched first (R229). -/
def State.beginTest (s : State) (t cause : Nat) : State :=
  let s1 := s.modShip t (fun x => { x with test := some ⟨cause, cacheBlocks, 0, []⟩ })
  (((s1.setBit (Reg.rasArrStat t) 0 true).setField (Reg.rasArrStat t) 3 2 cause)).setField (Reg.rasArrStat t) 24 16 cacheBlocks

/-- A site's STATE changed, with its trace record. -/
def State.siteState (s : State) (n st : Nat) : State :=
  let s1 := s.setField (Reg.siteStat n) 2 0 st
  s1.trace 5 2 n (bytesOf 1 n ++ bytesOf 1 st ++ bytesOf 1 (s1.fieldOf (Reg.siteStat n) 11 8))

/-- The fence object that a handle names, of any parcel. -/
def State.fenceOf (s : State) (h : Nat) : Option (Nat × FenceObj) :=
  match s.fences.get? (h % 2 ^ 20) with
  | some o => if o.gen = h / 2 ^ 20 ∧ h ≠ 0 then some (h % 2 ^ 20, o) else none
  | none => none

/-- A signal on a fence object's word: nothing on a poisoned word (R610). -/
def State.signalWord (s : State) (dpa v : Nat) : State := if s.poisoned dpa then s else s.raiseWord dpa v

/-- A memory object released once both counts are zero (R424); the bays of a weight set become free and its easement is unbound
(R450). -/
def State.releaseIfFree (s : State) (n : Nat) : State :=
  match s.objs.get? n with
  | some o =>
    if o.host = 0 ∧ o.dev = 0 then
      let s0 := match o.wset with
        | some w => { s with eases := s.eases.modify w.ease (fun e => { e with map := [], wset := 0 }) }
        | none => s
      let s1 := { s0 with objs := s0.objs.erase n }
      match s1.fenceOf o.fence with
      | some (_, f) => s1.signalWord f.word o.value
      | none => s1
    else s
  | none => s

def State.devRef (s : State) (n : Nat) : State := { s with objs := s.objs.modify n (fun o => { o with dev := o.dev + 1 }) }
def State.devDrop (s : State) (n : Nat) : State :=
  ({ s with objs := s.objs.modify n (fun o => { o with dev := o.dev - 1 }) }).releaseIfFree n

/-- The WORK outstanding at a site ended as its site or domain goes down (R416): the commands answered CONTEXT_LOST, and the references
of WORK without a command dropped. DETAIL is the first fault code of a context that is lost already. -/
def State.endWorks (s : State) (n : Nat) : State :=
  let code (q : Nat) : Nat := ((((s.queues.get? q).bind (fun x => s.ctxOf x.ctx)).bind (fun c => c.fault)).map (fun f => f.code)).getD 0x0C
  ((s.site n).works.foldl (fun s w => (w.2.refs.foldl State.devDrop s).answer w.2.queue w.2.idx ⟨0x40, code w.2.queue, 0⟩) s).modSite n (fun x => { x with works := [] })

/-- A site goes down (R333): flits stop, its reset is asserted, DOWN_CAUSE takes the cause, and SITE_DOWN is reported to the
functions of its parcel, or to the PF where it is in none. What was outstanding at the site is gone.
(DEDUCED: log entry 47.) -/
def State.siteDown (s : State) (n cause : Nat) : State :=
  let s0 := s.endWorks n
  let s1 := ((s0.setField (Reg.siteStat n) 11 8 cause).siteState n 5).emit (.pin (0x100 + n) false)
  let gone := (s1.site n).xinv
  let s1 := { s1 with ctxs := s1.ctxs.mapV (fun k c => { c with xinv := c.xinv - gone.getD k 0 }) }
  let s2 := s1.modSite n (fun x => { SiteSt.empty with sb := x.sb, active := x.active, half := x.half, width := x.width, rail := if cause = 4 then 0 else x.rail })
  match s.parcelOfSite n with
  | some p =>
    let s3 := (s2.ctxs.filter (fun c => c.2.parcel == p)).foldl (fun s c => s.ctxEvent c.1 0x8002 0xFFFFFFFF n) s2
    (s3.parcelFns p).foldl (fun s f => (s.fnEvent f 0x8002 n).interrupt f 0) s3
  | none => (s2.fnEvent 0 0x8002 n).interrupt 0 0

/-- The caching agents of a parcel: its townships and the four numbers of each of its sites, which the site uses as far as it advertises
agents. -/
def Parcel.agents (p : Parcel) : List Nat := p.ships ++ (p.sites.map (fun n => (upTo 4).map (fun k => 256 + 4 * n + k))).flatten

/-- The caching agents that a chiplet advertises (AGENTS of BLK_CAPS, R235). -/
def State.siteAgents (s : State) (n : Nat) : Nat := fld (s.sbRead n 8) 2 0

/-- The InvAcks of a line that a home no longer gets from the agents of a parcel whose messages are swept away: those on the fabric, those
whose Inv has not arrived, and those that its chiplets owe. -/
def State.lostAcks (s : State) (p : Nat) (x : Parcel) (line : Nat) : Nat :=
  (s.net.filter (fun m => m.dpa / 128 == line && (match m.kind with
    | .invAck => m.tag == p && (match m.dst with | .home _ => true | _ => false)
    | .inv => (match m.dst, m.req with | .agent a, .home _ => x.agents.contains a | _, _ => false)
    | _ => false))).length +
  (x.sites.map (fun n => ((s.site n).owed.filter (fun o => o.1 == 0x18 && o.2.2.2 == line)).length)).sum

/-- An easement entry after a parcel's agents are gone (R260, steps 2 and 3): the parcel's own transaction is abandoned, an eviction waits for
the other agents only, and an entry with nothing left to wait for goes on. -/
def State.sweepEntry (s : State) (p : Nat) (x : Parcel) (mask : Nat) (line : Nat) (e : DirEntry) : Option DirEntry :=
  let strip (v : BitVec 288) : BitVec 288 := BitVec.ofNat 288 (v.toNat - (v.toNat &&& mask))
  let e1 := { e with vec := strip e.vec }
  match e.txn with
  | none => if e1.vec = 0 then none else some e1
  | some y =>
    let y1 := { y with invAcks := y.invAcks - s.lostAcks p x line, nextVec := strip y.nextVec,
                       cmpAck := y.cmpAck && y.req.tag != p, dataH := y.dataH && y.req.tag != p }
    if y1.cmpAck || y1.dataH || decide (0 < y1.invAcks) then some { e1 with txn := some y1 }
    else if y1.free || y1.nextVec = 0 then none
    else some { e1 with st := y1.next, vec := y1.nextVec, txn := none }

/-- Steps 1 to 3 of R260: contexts lost, transactions and messages abandoned, lines swept without writeback, directory entries
freed, the save frames emptied (R445), confidential mode begun to be left (R503), and the work in flight at the parcel's sites ended
(R416). Other parcels' requests that waited for a line, an entry or a transaction that is free now are served. -/
def State.sweepLines (s : State) (p : Nat) (x : Parcel) : State :=
  let s0 := s.loseAll (some p) 0x0C
  let s1 := x.sites.foldl State.endWorks s0
  let mask := x.agents.foldl (fun m a => m ||| 2 ^ a) 0
  let swept := s1.dir.filterMap (fun e => if e.2.parcel != p || e.2.ease then (s1.sweepEntry p x mask e.1 e.2).map (fun y => (e.1, y)) else none)
  let wait := (s1.waitq.mapV (fun _ q => q.filter (fun m => m.tag != p))).filter (fun q => !q.2.isEmpty)
  let goes (m : Msg) : Bool := m.tag == p || (m.kind == .inv && (match m.dst with | .agent a => x.agents.contains a | _ => false))
  let gone (seq : Nat) : Bool := s1.net.any (fun m => goes m && m.hdr.seq == seq) || s1.toks.any (fun m => m.tag == p && m.hdr.seq == seq)
  let s2 := { s1 with
    net := s1.net.filter (fun m => !goes m)
    toks := s1.toks.filter (fun m => m.tag != p)
    engHeld := (s1.engHeld.mapV (fun _ l => l.filter (fun h => !gone h.seq))).filter (fun e => !e.2.isEmpty)
    retrain := { s1.retrain with source := s1.retrain.source.filter (fun m => m.tag != p) }
    waitq := wait
    dir := swept
    ships := x.ships.foldl (fun t n => t.modify n (fun h =>
      { h with sets := [], evb := [], misses := [], returns := [], image := none, held := [], asm := [], hints := [],
               sentTok := [], tlb := [], micro := [], plat := [], ledger := [], streams := [], halted := false })) s1.ships
    parcels := s1.parcels.set p { x with down := true }
    leave := if s1.confidential then max 1 s1.leave else s1.leave }
  s2.serveWhere (fun _ => true)

/-- R260 up to step 5: the sweep, the site that caused the loss marked down with its cause, the adapters of the parcel's sites that are
still UP told to discard (R353), and the recovery test begun on its townships (R228). -/
def State.domainSweep (s : State) (p : Nat) (site : Option (Nat × Nat)) : State :=
  match s.parcels.get? p with
  | none => s
  | some x =>
    let s1 := s.sweepLines p x
    let s2 := match site with | some (n, cause) => s1.siteDown n cause | none => s1
    let s3 := x.sites.foldl (fun s n => if s.fieldOf (Reg.siteStat n) 2 0 = 4 then
      s.modSite n (fun y => { y with works := [], copies := [], refused := [], cancels := [], owed := [], rxq := [],
                                     tx := y.tx.filter (fun m => m.code == 0x2E), drop := true, ask := false }) else s) s2
    x.ships.foldl (fun s t => s.beginTest t 3) s3

/-- A restart that the driver asked for begins once its parcel's recovery has ended (R334): from the rail, or from reset where the rail is
on. -/
def State.beginRestart (s : State) (n : Nat) : State :=
  let down := (match s.parcelOfSite n with | some p => ((s.parcels.get? p).map (fun x => x.down)).getD false | none => false)
  if (s.site n).restart && !down && s.fieldOf (Reg.siteStat n) 2 0 == 5 then
    (s.modSite n (fun x => { x with restart := false, stage := 0, retried := false })).siteState n (if (s.site n).rail = 0 then 1 else 2)
  else s

/-- A parcel-class error (R562): the record, and the domain of the parcel down unless it is already in recovery; a site that caused
it goes down with its cause. -/
def State.parcelLoss (s : State) (cause p addr unit kind detail : Nat) (site : Option (Nat × Nat)) : State :=
  let s1 := s.record cause 2 p addr unit kind detail
  let down := match site with | some (n, c) => s1.siteDown n c | none => s1
  match s1.parcels.get? p with
  | some x => if x.down then down else s1.domainSweep p site
  | none => down
def State.parcelError (s : State) (cause p addr unit kind detail : Nat) : State := s.parcelLoss cause p addr unit kind detail none

/-- The loss that an engine's access which failed brings on its context (R52). One whose plat entry lies on a FAILED channel, code 0x0C here, is an
uncorrectable control error of the parcel (R298, R463). -/
def State.engineLoss (s : State) (cn : Nat) (f : FaultRec) : State :=
  if f.code = 0x0C then
    match s.ctxs.get? cn with
    | some c => s.parcelError 0x07 c.parcel 0 0 0 0
    | none => s
  else s.loseCtx cn f

/-- A site event at a site that is UP (cause 0x09): its parcel's domain goes down, and the site with its cause; an UP site without a
parcel, and one in bring-up, affects no domain (R333). -/
def State.siteEvent (s : State) (n cause : Nat) : State :=
  let up := s.fieldOf (Reg.siteStat n) 2 0 = 4
  match (if up then s.parcelOfSite n else none) with
  | some p => s.parcelLoss 0x09 p 0 n 4 cause (some (n, cause))
  | none =>
    let s1 := if up then s.record 0x09 2 16 0 n 4 cause else s
    s1.siteDown n cause

end Sys2Proof.Machine
end

