-- ==== Sys2Proof/Machine/Sparse.lean ====
section
/-! DEFINITION. Compressed sparse blocks (R133 to R144) and the packed FP6 and FP16 forms of vldx and vstx. -/

namespace Sys2Proof

/-- Length in bytes of a block with z present elements of w bits (R135). -/
def csbLen (w z : Nat) : Nat := 8 * ceilDiv (5 + ceilDiv (z * w) 8) 8

/-- The number of elements a MASK names. -/
def maskCount (mask : Nat) : Nat := countBelow 32 (fun i => mask.testBit i)

/-- Blocks of a CSB group: 2 for 64-element formats, 4 for 128. -/
def csbBlocks (f : ElemFmt) : Nat := f.count / 32

/-- The 32 elements of a block from its MASK and the payload stream as a number (R134, R138, R139). -/
def csbElems (w mask payload : Nat) : List Nat :=
  ((upTo 32).foldl (fun (acc : List Nat × Nat) i =>
    if mask.testBit i then (acc.1 ++ [(payload >>> (w * acc.2)) % 2 ^ w], acc.2 + 1) else (acc.1 ++ [0], acc.2))
    ([], 0)).1

/-- A group expanded: the elements, each block's SCALE, and the bytes the group occupies. `rd off n` gives n bytes
at an offset as a number; no byte past the last block is read (R137). -/
def csbExpand (f : ElemFmt) (rd : Nat → Nat → Nat) : Nat → Nat → List Nat × List Nat × Nat
  | 0, off => ([], [], off)
  | k + 1, off =>
    let mask := rd off 4
    let scale := rd (off + 4) 1
    let len := csbLen f.width (maskCount mask)
    let es := csbElems f.width mask (rd (off + 5) (len - 5))
    let (es', sc', fin) := csbExpand f rd k (off + len)
    (es ++ es', scale :: sc', fin)

/-- The bytes of a group, block after block, once its masks are known: how many bytes vldx conv 10 reads. -/
def csbGroupLen (f : ElemFmt) (rd : Nat → Nat → Nat) (off : Nat) : Nat :=
  (csbExpand f rd (csbBlocks f) off).2.2 - off

/-- Elements packed into a register. -/
def packElems (f : ElemFmt) (es : List Nat) : VData :=
  (es.zipIdx).foldl (fun d (e : Nat × Nat) => putElem f d e.2 e.1) 0

/-- One block compressed (R142): MASK, SCALE, present elements and zero padding, as bytes. -/
def csbBlockBytes (f : ElemFmt) (scale : Nat) (es : List (Nat × Bool)) : List Byte :=
  let present := (es.filter (fun e => !e.2)).map Prod.fst
  let mask := (es.zipIdx).foldl (fun m (e : (Nat × Bool) × Nat) => if e.1.2 then m else m + 2 ^ e.2) 0
  let payload := (present.zipIdx).foldl (fun p (e : Nat × Nat) => p + e.1 <<< (f.width * e.2)) 0
  let len := csbLen f.width present.length
  bytesOf 4 mask ++ bytesOf 1 scale ++ bytesOf (len - 5) payload

/-- A register compressed: all blocks of its group, with byte n of the scale register as SCALE of block n. -/
def csbCompress (f : ElemFmt) (v : VReg) (scale : W32) : List Byte :=
  let zf := v.flagsIn f
  ((upTo (csbBlocks f)).map (fun b =>
    csbBlockBytes f (fld scale.toNat (8 * b + 7) (8 * b))
      ((upTo 32).map (fun i => (elem f v.data (32 * b + i), zf.getLsbD (32 * b + i)))))).flatten

/-- 48 bytes of packed FP6 unpacked to 64 elements, in the order of R134. -/
def fp6Unpack (f : ElemFmt) (x : Nat) : VData := packElems f ((upTo 64).map (fun j => (x >>> (6 * j)) % 64))

/-- 64 FP6 elements packed into 48 bytes. -/
def fp6Pack (f : ElemFmt) (d : VData) : Nat :=
  (upTo 64).foldl (fun acc j => acc + (elem f d j) <<< (6 * j)) 0

/-- 32 bytes of FP16 as 16 FP32 elements. -/
def fp16Unpack (x : Nat) : VData := vdataOfWords (fun i => f16ToF32 ((x >>> (16 * i)) % 2 ^ 16))

/-- 16 FP32 elements as 32 bytes of FP16. -/
def fp16Pack (d : VData) : Nat := (upTo 16).foldl (fun acc i => acc + (f32ToF16 (vword d i)) <<< (16 * i)) 0

/-! ### MAC instructions (Tables 03-8 to 03-10) -/

/-- Permitted format pairs and whether scaled is permitted for them (Table 03-10). -/
def macPairOk (fa fb : ElemFmt) (scaled : Bool) : Bool :=
  if fa.isFp86 && fb.isFp86 then true
  else if fa = .e2m1 && fb = .e2m1 then true
  else if fa = .bf16 && fb = .bf16 then !scaled
  else if fa.isInt && fa = fb then !scaled
  else false

/-- The pairs (A index, B index, accumulator) of a form with m = E ÷ 16 (Table 03-9). -/
def macPairs (form q m : Nat) : List (Nat × Nat × Nat) :=
  (upTo 16).flatMap (fun j => (upTo m).map (fun i =>
    if form = 0 then (16 * i + j, 16 * i + j, j)
    else if form = 1 then (4 * m * q + 4 * i + j / 4, 4 * m * q + 4 * i + j % 4, j)
    else (16 * i + j, m * q + i, j)))

/-- An E8M0 scale applied to a value: NaN for 0xFF, else a power of two (R110, R111). -/
def applyScale (e : Nat) (v : FVal) : FVal :=
  if e = 0xFF then .nan
  else match v with
    | .fin n m x => .fin n m (x + e - 127)
    | w => w

/-- Dense occupancy D and pairs per step P of a format (R97). -/
def macDense (f : ElemFmt) : Nat := if f = .bf16 then 8 else 4
def macRate (f : ElemFmt) : Nat := if f = .bf16 then 4 else if f.slot = 4 then 32 else 16

/-- Steps for which the MAC vector is occupied by n pairs whose elements are both non-zero (R97). -/
def macOccupation (f : ElemFmt) (n : Nat) : Nat := max (macDense f / 4) (ceilDiv n (macRate f))

/-! ### Gate lists (Table 03-12) -/

/-- One gate list entry. -/
structure GateEntry where
  expert : Nat
  valid  : Bool
  score  : W32
  deriving DecidableEq, Repr

/-- The eight entries of a register. -/
def gateList (d : VData) : List GateEntry :=
  (upTo 8).map (fun e =>
    let w := fld d.toNat (64 * e + 63) (64 * e)
    ⟨w % 2 ^ 16, w.testBit 31, BitVec.ofNat 32 (w >>> 32)⟩)

/-- A register holding up to eight entries; an invalid entry is written as zero except its VALID bit's absence. -/
def gateData (es : List GateEntry) : VData :=
  BitVec.ofNat 512 ((es.zipIdx).foldl (fun acc (x : GateEntry × Nat) =>
    acc + (x.1.expert % 2 ^ 16 + b2n x.1.valid * 2 ^ 31 + x.1.score.toNat * 2 ^ 32) <<< (64 * x.2)) 0)

/-- An entry not in use. -/
def GateEntry.empty : GateEntry := ⟨0, false, 0⟩

/-- Whether entry x stands before y: the higher score, and of equal scores the lower expert number. -/
def GateEntry.before (x y : GateEntry) : Bool :=
  f32Lt y.score x.score || (f32Eq x.score y.score && decide (x.expert < y.expert))

/-- An entry put at its place of a list in descending order. -/
def gateInsert (x : GateEntry) : List GateEntry → List GateEntry
  | [] => [x]
  | y :: r => if x.before y then x :: y :: r else y :: gateInsert x r

end Sys2Proof
end

