-- ==== Sys2Proof/Machine/Operands.lean ====
section
/-! DEFINITION. Operand forms of the thread instructions: register classes, pairs, effective addresses, the encoding
checks, speculative logging of first writes, and the issue of one instruction. -/

namespace Sys2Proof.Machine

/-! ### Reading registers -/

/-- A scalar register; s0 reads as zero (Table 03-1). -/
def Thread.sr (th : Thread) (i : Nat) : W32 := if i = 0 then 0 else th.s.getD i 0

/-- A pair (R75): bits [31:0] from sp and [63:32] from s(p+1); pair 0 reads as zero. -/
def Thread.pr (th : Thread) (p : Nat) : Nat := (th.sr p).toNat + (if p = 0 then 0 else (th.sr (p + 1)).toNat * 2 ^ 32)

/-- A vector register. -/
def Thread.vr (th : Thread) (i : Nat) : VReg := th.v.getD i VReg.zero

/-- A predicate. -/
def Thread.pred (th : Thread) (i : Nat) : Bool := th.p.getLsbD i

/-- An accumulator's bits. -/
def Thread.acc (th : Thread) (j : Nat) : W32 := th.a.getD j 0

/-! ### Register writes as data -/

/-- What an instruction writes in the thread's registers. -/
structure Eff where
  s  : List (Nat × W32)
  v  : List (Nat × VReg)
  a  : Option (List W32)
  p  : Option (BitVec 4)
  g  : Option W32
  pc : Option (BitVec 52)
  deriving DecidableEq, Repr

def Eff.none : Eff := ⟨[], [], Option.none, Option.none, Option.none, Option.none⟩

/-- One scalar register written. -/
def Eff.sc (d : Nat) (x : W32) : Eff := { Eff.none with s := [(d, x)] }
/-- One vector register written. -/
def Eff.vec (d : Nat) (x : VReg) : Eff := { Eff.none with v := [(d, x)] }
/-- The accumulators written. -/
def Eff.accs (x : List W32) : Eff := { Eff.none with a := some x }
/-- A pair written; pair 0 discards (R75). -/
def Eff.pr (p : Nat) (x : Nat) : Eff :=
  if p = 0 then Eff.none else { Eff.none with s := [(p, BitVec.ofNat 32 x), (p + 1, BitVec.ofNat 32 (x / 2 ^ 32))] }
/-- One predicate written. -/
def Eff.pd (th : Thread) (d : Nat) (b : Bool) : Eff :=
  { Eff.none with p := some (BitVec.ofNat 4 (putFld th.p.toNat d d (b2n b))) }

/-- A list with one place written. -/
def setAt {α : Type} (l : List α) (i : Nat) (x : α) : List α := l.set i x

/-- The writes of an instruction made; writes to s0 are discarded.
(DEDUCED: log entry 15.) -/
def Thread.apply (th : Thread) (e : Eff) : Thread :=
  { th with
    s := e.s.foldl (fun l w => if w.1 = 0 then l else setAt l w.1 w.2) th.s
    v := e.v.foldl (fun l w => setAt l w.1 w.2) th.v
    a := e.a.getD th.a
    p := e.p.getD th.p
    gen := e.g.getD th.gen
    pc := e.pc.getD th.pc }

/-! ### Speculative logging (R164, R166, Table 05-7) -/

/-- Granules of a logged item; the predicates and the generator share one (Table 05-7). -/
def SpecItem.granules : SpecItem → Nat
  | .scalar .. => 1
  | .preds _ => 0
  | .gen _ => 0
  | .vector .. => 5
  | .acc _ => 4
  | .store _ _ len _ => if len ≤ 8 then 1 else 1 + ceilDiv len 16
  | .dret .. => 1

/-- Granules a slot's log holds. -/
def logCost (l : List SpecItem) : Nat :=
  (l.map SpecItem.granules).sum + b2n (l.any (fun i => match i with | .preds _ => true | .gen _ => true | _ => false))

def hasScalar (l : List SpecItem) (d : Nat) : Bool := l.any (fun i => match i with | .scalar e _ => e == d | _ => false)
def hasVector (l : List SpecItem) (d : Nat) : Bool := l.any (fun i => match i with | .vector e _ => e == d | _ => false)
def hasPreds (l : List SpecItem) : Bool := l.any (fun i => match i with | .preds _ => true | _ => false)
def hasGen (l : List SpecItem) : Bool := l.any (fun i => match i with | .gen _ => true | _ => false)
def hasAcc (l : List SpecItem) : Bool := l.any (fun i => match i with | .acc _ => true | _ => false)

/-- The log with the old values of what an instruction writes for the first time. -/
def Thread.logged (th : Thread) (log : List SpecItem) (e : Eff) : List SpecItem :=
  let l1 := e.s.foldl (fun l w => if w.1 = 0 || hasScalar l w.1 then l else .scalar w.1 (th.sr w.1) :: l) log
  let l2 := e.v.foldl (fun l w => if hasVector l w.1 then l else .vector w.1 (th.vr w.1) :: l) l1
  let l3 := if e.a.isSome && !hasAcc l2 then .acc th.a :: l2 else l2
  let l4 := if e.p.isSome && !hasPreds l3 then .preds th.p :: l3 else l3
  if e.g.isSome && !hasGen l4 then .gen th.gen :: l4 else l4

/-- Register writes of a thread under the visibility rule: a speculative thread logs first writes, and waits for its
closure where the slot is full (Table 05-5). -/
def State.writeRegs (s : State) (t : Nat) (e : Eff) : State :=
  match s.threads.get? t with
  | Option.none => s
  | some th =>
    match th.spec with
    | Option.none => s.setThread t (th.apply e)
    | some sp =>
      let log := th.logged sp.log e
      if logCost log ≤ 64 then s.setThread t { th.apply e with spec := some { sp with log := log } }
      else s.setThread t { th with wait := .closure }

/-! ### Encoding checks (R82, R83, R101, R102, Table 03-17) -/

/-- The lowest code whose condition holds; the list is in ascending order of code.
(DEDUCED: log entry 19.) -/
def firstCode (l : List (Bool × Nat)) : Option Nat := (l.find? (fun x => x.1)).map Prod.snd

/-- A vector or predicate field is outside its class (R82). -/
def badV (x : BitVec 4) : Bool := decide (4 ≤ x.toNat)
/-- A pair field is odd (R75). -/
def badP (x : BitVec 4) : Bool := x.toNat % 2 == 1
/-- A reserved field is not zero (R83). -/
def nz {n : Nat} (x : BitVec n) : Bool := x.toNat != 0

/-- Whether a thread can issue: resident, waiting for nothing, and its township running (R95, R96).
(DESIGN CHOICE: log entry 2.) -/
def State.canIssue (s : State) (t : Nat) : Bool :=
  match s.threads.get? t with
  | Option.none => false
  | some th =>
    (th.wait == .none) && th.replay.isEmpty && th.raise.isNone && (match s.launches.get? th.launch with | some l => l.st == .placed | Option.none => false) &&
    !(s.ship (shipOf t)).halted && !(s.ship (shipOf t)).asleep && (s.ship (shipOf t)).test.isNone

/-- Registers an instruction reads or writes. -/
abbrev Uses := List PendReg

def usesPair (p : Nat) : Uses := if p = 0 then [] else [.s p, .s (p + 1)]

/-- Whether every register of an instruction is free of pending writes (R96).
(DESIGN CHOICE: log entry 13.) -/
def Thread.free (th : Thread) (u : Uses) : Bool := u.all (fun r => !th.pend.contains r)

/-- An encoding fault of the instruction at an address (R101): fetch access, the PVA of the instruction's first word and
the PPA its fetch resolved to. -/
def State.encFaultAt (s : State) (t code pc : Nat) : State :=
  match s.threads.get? t with
  | Option.none => s
  | some th =>
    let fresh := match s.ctxs.get? (th.ctx % 4096) with
      | some c => (match s.translateFresh c (some (shipOf t)) pc 3 with | .ok (x, _, _) => x.ppa | .error f => f.ppa)
      | Option.none => 0
    let ppa := match th.fetched with | some (a, p) => if a = pc then p else fresh | Option.none => fresh
    s.threadFault t code 3 pc ppa

/-- An encoding fault of the thread's own instruction. -/
def State.encFault (s : State) (t code : Nat) : State :=
  match s.threads.get? t with
  | Option.none => s
  | some th => s.encFaultAt t code th.pc.toNat

/-- ALIGN on a scratchpad access: a local address has no PVA, so what the fault record shows there is open.
(DEDUCED: log entry 20.) -/
def State.alignLocal (s : State) (t acc : Nat) : State :=
  let (v, s1) := s.freshNat
  s1.threadFault t 0x08 acc (v % 2 ^ 52) 0

/-- The thread's program counter past an instruction of n bytes. -/
def State.advance (s : State) (t n : Nat) : State :=
  s.modThread t (fun th => { th with pc := th.pc + BitVec.ofNat 52 n })

/-- A scratchpad request of a thread in progress (R216). -/
def State.padBusy (s : State) (t : Nat) : Bool := (s.sect (sectOf t)).reqs.any (fun r => r.rank == 3 + t % 4 && r.thread == t)

/-- The issue of one instruction of `size` bytes: nothing where the thread cannot issue or a register is pending; the
encoding fault where a rule is broken; otherwise `run` on the thread. LOCAL_RANGE is a fault of the address, which stands once
the registers do and no scratchpad access of the thread is in progress (R85, R96, R216).
(DESIGN CHOICE: log entry 13.) -/
def issue (t : Nat) (code : Option Nat) (u : Uses) (run : Thread → State → State) (s : State) : State :=
  if s.canIssue t then
    match s.threads.get? t with
    | Option.none => s
    | some th =>
      match code with
      | some c => if c = 0x14 ∧ (!th.free u || s.padBusy t) = true then s else s.encFault t c
      | Option.none => if th.free u then run th s else s
  else s

/-- Whether a thread came to wait while an instruction ran, so that it runs again from its own address. -/
def State.waits (s : State) (t : Nat) : Bool :=
  match s.threads.get? t with
  | some th => th.wait != .none
  | Option.none => true

/-- An instruction that only writes registers: the writes and the program counter, or, where the slot of a speculative
thread is full, the wait. -/
def regInstr (t size : Nat) (code : Option Nat) (u : Uses) (f : Thread → Eff) (s : State) : State :=
  issue t code u (fun th s =>
    let s1 := s.writeRegs t (f th)
    if s1.waits t then s1 else if (f th).pc.isSome then s1 else s1.advance t size) s

/-! ### Pending products (R90, R98) -/

/-- One product added into the accumulators: an FP32 addition rounded to nearest even (R115), or an addition modulo
2^32 (R104). -/
def addProd (a : List W32) : Prod → List W32
  | .fp j v => setAt a j (f32Round ((f32 (a.getD j 0)).add v))
  | .int j v => setAt a j (BitVec.ofInt 32 ((a.getD j 0).toInt + v))

/-- The products of a thread enter its accumulators in a free order (R90, R118). -/
def drainProds : Nat → Nat → List Prod → List W32 → List W32
  | 0, _, _, a => a
  | n + 1, k, ps, a =>
    match ps[Config.freeNat k % ps.length]? with
    | some p => drainProds n (k + 1) (ps.eraseIdx (Config.freeNat k % ps.length)) (addProd a p)
    | Option.none => a

/-- A thread with every pending product added.
(DESIGN CHOICE: log entry 17.) -/
def State.drain (s : State) (t : Nat) : State :=
  match s.threads.get? t with
  | Option.none => s
  | some th =>
    if th.prods.isEmpty then s
    else { (s.setThread t { th with a := drainProds th.prods.length s.free th.prods th.a, prods := [] }) with
      free := s.free + th.prods.length }

/-- Whether a thread's MAC occupation is over (R98). -/
def State.macIdle (s : State) (t : Nat) : Bool :=
  match (s.core (coreOf t)).mac with
  | some (u, _) => u != t
  | Option.none => true

/-- The thread that a command names, for what depends on its registers. -/
def State.onThread {α : Type} (s : State) (t : Nat) (d : α) (f : Thread → α) : α :=
  match s.threads.get? t with
  | some th => f th
  | Option.none => d

/-- An instruction, other than a MAC instruction, that reads or writes a0: it issues once the thread's MAC occupations
have ended and every product has entered a0 (R98). -/
def accInstr (t size : Nat) (code : Option Nat) (u : Uses) (f : Thread → Eff) (s : State) : State :=
  if s.macIdle t && s.canIssue t && code.isNone && s.onThread t false (fun th => th.free u) then
    regInstr t size code u f (s.drain t)
  else if code.isSome then regInstr t size code u f s
  else s

end Sys2Proof.Machine
end

