-- ==== Sys2Proof/Machine/Coherence.lean ====
section
/-! DEFINITION. The directory protocol of chapter 08: township caches, line requests and accesses, the home slices, and
the commands that deliver each message of Table 08-3. -/

namespace Sys2Proof

/-- The part an access works on next. -/
def Acc.part? (a : Acc) : Option Part := a.parts.find? (fun p => p.got.isNone)

/-- A part answered with a value. -/
def fillPart : List Part → Nat → List Part
  | [], _ => []
  | p :: r, v => if p.got.isNone then { p with got := some v } :: r else p :: fillPart r v

/-- The open part cut at the next 8-byte boundary. -/
def cutPart : List Part → List Part
  | [] => []
  | p :: r =>
    if p.got.isSome then p :: cutPart r
    else
      let n := 8 - p.dpa % 8
      if n < p.len then { p with len := n } :: { p with dpa := p.dpa + n, ppa := p.ppa + n, len := p.len - n } :: r else p :: r

/-- The value an access has read so far, its parts in address order. -/
def partsValue : List Part → Nat
  | [] => 0
  | p :: r => p.got.getD 0 % 2 ^ (8 * p.len) + 2 ^ (8 * p.len) * partsValue r

def partsLen (l : List Part) : Nat := (l.map (fun p => p.len)).sum

/-- The offset of the open part within the access. -/
def partsDone (l : List Part) : Nat := partsLen (l.takeWhile (fun p => p.got.isSome))

/-- n bytes read at an address, with a thread's own logged stores over them (R164): each of (address, length, value), the oldest first,
replaces the bytes it names. -/
def seenOver (seen : List (Nat × Nat × Nat)) (base n v : Nat) : Nat :=
  seen.reverse.foldl (fun v w =>
    (upTo w.2.1).foldl (fun v i =>
      let at_ := w.1 + i
      if base ≤ at_ ∧ at_ < base + n then putFld v (8 * (at_ - base) + 7) (8 * (at_ - base)) (w.2.2 >>> (8 * i)) else v) v) v

/-- What an access has read. -/
def Acc.value (a : Acc) : Nat := seenOver a.seen a.base (partsLen a.parts) (partsValue a.parts)

end Sys2Proof

namespace Sys2Proof.Machine

/-! ### Pseudo-LRU replacement (R222, R481) -/

/-- The tree with every node on the path to a way pointing away from it (most recent) or to it (next victim). -/
def plruPath (bits : BitVec 15) (way : Nat) (toward : Bool) : BitVec 15 :=
  let n0 := 0
  let b0 := way / 8 % 2
  let n1 := 1 + b0
  let b1 := way / 4 % 2
  let n2 := 3 + way / 4
  let b2 := way / 2 % 2
  let n3 := 7 + way / 2
  let b3 := way % 2
  let put (v : Nat) (n b : Nat) : Nat := putFld v n n (if toward then b else 1 - b)
  BitVec.ofNat 15 (put (put (put (put bits.toNat n0 b0) n1 b1) n2 b2) n3 b3)

/-- The way the tree names among the allowed ones: node n covers `span` ways from `lo`. -/
def plruVictim (bits : BitVec 15) (ok : Nat → Bool) : Nat → Nat → Nat → Nat
  | 0, _, lo => lo
  | d + 1, n, lo =>
    let half := 2 ^ d
    let left := (upTo half).any (fun i => ok (lo + i))
    let right := (upTo half).any (fun i => ok (lo + half + i))
    let r := if !left then true else if !right then false else bits.toNat.testBit n
    plruVictim bits ok d (2 * n + 1 + b2n r) (if r then lo + half else lo)

/-- Reserved ways of a priority in a parcel's caches: the applied way guarantee × 15 ÷ 256 (R481, SHR_M_APPLIED_m). -/
def State.reservedWays (s : State) (p c : Nat) : Nat := s.fieldOf (Reg.shrMApplied (4 * p + c)) 19 16

/-- Whether a fill of priority c may take a way: its own reserved ways and the shared ones (R481). -/
def State.wayAllowed (s : State) (p c w : Nat) : Bool :=
  let lo := ((upTo c).map (s.reservedWays p)).sum
  let all := ((upTo 4).map (s.reservedWays p)).sum
  (decide (lo ≤ w) && decide (w < lo + s.reservedWays p c)) || decide (all ≤ w)

/-! ### Eviction and fill -/

/-- The lowest eviction buffer that is free; fills wait for one (R237), and the lines that a block's test takes together use numbers above them. -/
def Township.freeBuf (x : Township) : Nat := ((upTo (x.evb.length + 32)).find? (fun i => !x.evb.any (fun b => b.tx == i))).getD 0

/-- A valid way given up: an S line silently, an E or M line through an eviction buffer and WB (R237).
(DESIGN CHOICE: log entry 35.) -/
def State.evictWay (s : State) (t set way : Nat) : State :=
  let x := s.ship t
  match (x.sets.getD set CacheSet.empty).ways.get? way with
  | none => s
  | some w =>
    let s1 := s.modShip t (fun x => { x with sets := x.sets.modify set (fun c => { c with ways := c.ways.erase way }) })
    if w.st = .E ∨ w.st = .M then
      let s2 := s1.modShip t (fun x => { x with evb := x.evb ++ [⟨w.line, w.st, w.data, w.poison, false, false, x.freeBuf⟩] })
      s2.send { Msg.blank .wb (.agent t) (s.homeOf (w.line * 128)) (w.line * 128) ((s.parcelOfShip t).getD 16) x.freeBuf with
        pay := if w.st = .M then some w.data else none, poison := w.poison }
    else s1

/-- Whether a fill may take a way (R481): not one that holds a line whose Upg is outstanding, since its grant comes without data. -/
def State.wayFree (s : State) (t p c set w : Nat) : Bool :=
  s.wayAllowed p c w &&
  (match ((s.ship t).sets.getD set CacheSet.empty).ways.get? w with
   | some y => !(s.ship t).misses.any (fun e => e.2.line == y.line && e.2.kind == .upg)
   | none => true)

/-- The way a fill takes: the line's own, else the lowest invalid allowed way, else the tree's victim. -/
def State.fillWay (s : State) (t p c line : Nat) : Nat :=
  let x := s.ship t
  let set := x.sets.getD (cacheSetOf line) CacheSet.empty
  match x.way? line with
  | some (w, _) => w
  | none =>
    match (upTo 16).find? (fun w => !set.ways.has w && s.wayFree t p c (cacheSetOf line) w) with
    | some w => w
    | none => plruVictim set.plru (s.wayFree t p c (cacheSetOf line)) 4 0 0

/-- Whether a fill can go ahead: its way is free, or holds an S line, or an eviction buffer is free (R237). -/
def State.canFill (s : State) (t p c line : Nat) : Bool :=
  let x := s.ship t
  let set := x.sets.getD (cacheSetOf line) CacheSet.empty
  match set.ways.get? (s.fillWay t p c line) with
  | some w => w.line == line || (s.wayFree t p c (cacheSetOf line) (s.fillWay t p c line) && (w.st == .S || decide (x.evb.length < 32)))
  | none => true

/-- A line put into a township cache; a streaming fill, or one above the way share, takes the next-victim place. -/
def State.fill (s : State) (t p c line : Nat) (st : LineState) (data : Nat) (poison stream : Bool) : State :=
  let w := s.fillWay t p c line
  let k := cacheSetOf line
  let held := (((s.ship t).sets.getD k CacheSet.empty).ways.filter (fun e => e.2.prio == c)).length
  let low := stream || decide (ceilDiv (s.fieldOf (Reg.shrMCfg (4 * p + c)) 40 32 * 16) 256 < held)
  let s1 := match ((s.ship t).sets.getD k CacheSet.empty).ways.get? w with
    | some old => if old.line = line then s else s.evictWay t k w
    | none => s
  s1.modShip t (fun x =>
    let cs := x.sets.getD k CacheSet.empty
    { x with sets := x.sets.set k ⟨cs.ways.set w ⟨line, st, data, c, poison⟩, plruPath cs.plru w low⟩ })

/-- A way of a line changed in place, and made most recent where `touch`. -/
def State.setWay (s : State) (t line : Nat) (touch : Bool) (f : Way → Way) : State :=
  match (s.ship t).way? line with
  | none => s
  | some (w, _) =>
    s.modShip t (fun x => { x with sets := x.sets.modify (cacheSetOf line) (fun cs =>
      ⟨cs.ways.modify w f, if touch then plruPath cs.plru w false else cs.plru⟩) })

/-- A line invalidated in a township cache. -/
def State.dropWay (s : State) (t line : Nat) : State :=
  s.modShip t (fun x => { x with sets := x.sets.modify (cacheSetOf line) (fun cs =>
    { cs with ways := cs.ways.filter (fun e => e.2.line != line) }) })

/-! ### Requests of a township -/

/-- A request identifier that no outstanding or recorded request of the township holds (Table 09-3, R446). -/
def Township.freshTx (x : Township) : Nat :=
  ((upTo 4096).map (fun i => (x.nextTx + i) % 4096)).find? (fun i => !x.misses.has i && !x.returns.has i) |>.getD 0

/-- Whether a township holds space for the answers of one more request: some identifier is free (R243). -/
def Township.room (x : Township) : Bool := decide (x.misses.length + x.returns.length < 4096)

/-- A request of township t sent to the home of a DPA, or to the server of a chiplet window, with the slack of its master (R477) and the
tolerance of its access. -/
def State.request (s : State) (t : Nat) (k : MsgKind) (dpa acc prio : Nat) (sonly : Bool) (dst : Node) (f : Msg → Msg) : State :=
  let x := s.ship t
  let tx := x.freshTx
  let p := s.parcelOfShip t
  let tol := match s.accs.get? acc with | some a => a.tol | none => false
  let s1 := s.setShip t { x with
    misses := x.misses.set tx ⟨dpa / 128, k, sonly, acc, none, 0, dpa, false⟩, nextTx := (tx + 1) % 4096 }
  s1.send (f { Msg.blank k (.agent t) dst dpa (p.getD 16) tx with
    sonly := sonly, prio := prio, hdr := { Hdr.blank with slack := s.fieldOf (Reg.shrMSlack (4 * p.getD 0 + prio)) 9 0, tol := tol } })

/-- Whether a line request of the township is outstanding. -/
def Township.lineMiss? (x : Township) (line : Nat) : Option (Nat × Miss) :=
  x.misses.find? (fun e => e.2.line == line && (e.2.kind == .rdS || e.2.kind == .rdX || e.2.kind == .upg))

/-- The bytes of a line replaced at an offset. -/
def putLine (d off len v : Nat) : Nat := if len = 0 then d else putFld d (8 * (off + len) - 1) (8 * off) (v % 2 ^ (8 * len))
def getLine (d off len : Nat) : Nat := (d >>> (8 * off)) % 2 ^ (8 * len)

/-- The further bytes a CSB load needs, given what it has read: none once the group is whole (R137). -/
def csbMore (f : ElemFmt) (have_ v : Nat) : Nat :=
  let rd (o n : Nat) : Nat := if o + n ≤ have_ then (v >>> (8 * o)) % 2 ^ (8 * n) else 0
  let rec go : Nat → Nat → Nat
    | 0, off => off
    | k + 1, off => if have_ < off + 5 then off + 8 else go k (off + csbLen f.width (maskCount (rd off 4)))
  go (csbBlocks f) 0 - have_

/-- The saturating contention counter of a DPA (R252 to R254).
(DESIGN CHOICE: log entry 36.) -/
def contendIdx (dpa : Nat) : Nat := (fld dpa 12 7) ^^^ (fld dpa 18 13)
/-- A counter of a township's predictor moved; an atomic that the predictor does not cover has no counter.
(DESIGN CHOICE: log entry 36.) -/
def State.contendAdd (s : State) (t ctr : Nat) (up : Bool) : State :=
  if 64 ≤ ctr then s
  else s.modShip t (fun x => let v := x.contend.getD ctr 0
    { x with contend := x.contend.set ctr (if up then min 3 (v + 1) else v - 1) })

/-- The number under which the dispatch unit of a township makes the atomics of a ledger entry (R156): no thread has it. -/
def unitThread (e : Nat) : Nat := 2 ^ 22 + e

/-- A returned row's ledger entry settled once its last packet has come and each of its additions is performed (R158). -/
def State.settleCopy (s : State) (t e : Nat) : State :=
  if s.accs.any (fun x => x.2.ship == t && x.2.thread == unitThread e) then s
  else s.modShip t (fun x => { x with ledger := x.ledger.keep (fun k c => !(k == e && c.st == .settled)) })

/-- An access whose parts are all answered: a store or a signal is performed and gone, and so is an addition of the dispatch unit; a load or
an atomic of a thread waits for its data to return to the register. -/
def State.finishAcc (s : State) (id : Nat) : State :=
  match s.accs.get? id with
  | none => s
  | some a =>
    if a.parts.any (fun p => p.got.isNone) then s
    else match a.op with
      | .load _ => { s with accs := s.accs.set id { a with st := .done } }
      | .atomic _ _ _ _ .none => ({ s with accs := s.accs.erase id }).settleCopy a.ship (a.thread - unitThread 0)
      | .atomic .. => { s with accs := s.accs.set id { a with st := .done } }
      | _ => { s with accs := s.accs.erase id }

/-- One part of an access performed on a line the cache holds: the new line, the value read, and the new state; none
where the state does not permit it (Table 08-1). -/
def performOn (a : Acc) (p : Part) (w : Way) : Option (Way × Nat) :=
  let off := p.dpa % 128
  let old := getLine w.data off p.len
  match a.op with
  | .load _ => some (w, old)
  | .store v =>
    if w.st = .E ∨ w.st = .M then
      some ({ w with st := .M, data := putLine w.data off p.len (v >>> (8 * partsDone a.parts)) }, 0)
    else none
  | .atomic op n b c _ =>
    if (w.st = .E ∨ w.st = .M) ∧ w.poison then some (w, 0)
    else if w.st = .E ∨ w.st = .M then
      some ({ w with st := .M, data := putLine w.data off p.len (atomResult op n old b c) }, old)
    else none
  | .signal v => if (w.st = .E ∨ w.st = .M) ∧ w.poison then some (w, 0) else if w.st = .E ∨ w.st = .M then some ({ w with st := .M, data := putLine w.data off p.len (max old v) }, old) else none

/-- The request an access needs for a line it cannot use: ownership for a write, else a read. -/
def neededReq (a : Acc) (w : Option Way) : MsgKind :=
  match a.op with
  | .load _ => .rdS
  | _ => if (w.map (fun x => x.st)) = some .S then .upg else .rdX

/-- The accesses of a township that wait on a line, in order of issue. -/
def State.waitingOn (s : State) (t line : Nat) : List (Nat × Acc) :=
  s.accs.filter (fun e => e.2.ship == t && e.2.st == .line &&
    (match e.2.part? with | some p => p.dpa / 128 == line | none => false))

/-- The number of an access type in a fault record: 0 load, 1 store, 2 atomic, 4 fence. -/
def accType : AccOp → Nat
  | .load _ => 0
  | .store _ => 1
  | .atomic .. => 2
  | .signal _ => 4

/-- A fault of a thread that stands in a save image: a speculative one holds it there until its closure (R55), and any other has the outcome
given. -/
def State.savedFault (s : State) (a : Acc) (f : Nat × Nat × Nat × Nat) (lose : State) : State :=
  match (s.ship a.ship).image with
  | some i =>
    (match (if i.launch = a.launch then i.threads.get? a.thread else none) with
     | some th =>
       (match th.spec with
        | some sp =>
          let th1 := { th with spec := some { sp with fault := sp.fault.orElse (fun _ => some f) }, wait := .closure }
          s.modShip a.ship (fun x => { x with image := some { i with threads := i.threads.set a.thread th1 } })
        | none => lose)
     | none => lose)
  | none => lose

/-- An access that fails: dropped, with the fault of Table 02-7 taken by its thread.
(DEDUCED: log entry 81.) -/
def State.failAcc (s : State) (id : Nat) (code : Nat) (ppa : Nat) : State :=
  match s.accs.get? id with
  | none => s
  | some a =>
    let s1 := { s with accs := s.accs.erase id }
    let lose := s1.loseCtx (a.ctx % 4096) ⟨code, accType a.op, a.pva, ppa, if a.thread < 2 ^ 22 then a.thread else 0xFFFFFFFF⟩
    match s1.threads.get? a.thread with
    | some th => if th.launch = a.launch then s1.threadFault a.thread code (accType a.op) a.pva ppa else s1.savedFault a (code, accType a.op, a.pva, ppa) lose
    | none => s1.savedFault a (code, accType a.op, a.pva, ppa) lose

/-- A translation of a thread's access. A plat entry that lies on a FAILED channel takes the parcel's domain down (R298, R463). -/
def State.translateAcc (s : State) (cn : Nat) (c : Context) (t pva acc : Nat) : Except Xfault Xlat × State :=
  match s.translate cn c t pva acc with
  | (.error f, s1) => (.error f, if f.code = 0x0C then s1.parcelError 0x07 c.parcel 0 (s1.physOf (shipOf t)) 3 0 else s1)
  | (.ok x, s1) => (.ok x, s1)

/-- The parts of a run of bytes that thread t reaches: pieces that lie in one line each, translated one by one.
(DESIGN CHOICE: log entry 25.) -/
def State.placeBytes (s : State) (cn : Nat) (c : Context) (t acc : Nat) : Nat → Nat → Nat → Except Xfault (List Part) × State
  | 0, _, _ => (.ok [], s)
  | _, _, 0 => (.ok [], s)
  | k + 1, pva, len =>
    let n := min len (128 - pva % 128)
    if inHost pva then
      match s.placeBytes cn c t acc k (pva + n) (len - n) with
      | (.ok r, s1) => (.ok (⟨hostAddr c pva, 0, n, .host, none⟩ :: r), s1)
      | (.error f, s1) => (.error f, s1)
    else match s.translateAcc cn c t pva acc with
      | (.error f, s1) => (.error f, s1)
      | (.ok x, s1) =>
        let via : Via := if x.window.isSome then .window else if x.uncached then .uncached else if x.stream then .stream else .line
        if via == .window && (match x.window with | some w => !((s.site w).sb.getD 8 0).toNat.testBit 14 | none => false)
        then (.error ⟨0x07, x.ppa⟩, s1)
        else match s1.placeBytes cn c t acc k (pva + n) (len - n) with
          | (.ok r, s2) => (.ok (⟨x.dpa, x.ppa, n, via, none⟩ :: r), s2)
          | (.error f, s2) => (.error f, s2)

/-- The further bytes that a CSB load asks for, once what it has read shows that its group goes on (R137). -/
def State.extendAcc (s : State) (id : Nat) : State :=
  match s.accs.get? id with
  | none => s
  | some a =>
    match a.op with
    | .load (.convert _ 2 f _) =>
      if a.part?.isSome then s
      else
        let more := csbMore f (partsLen a.parts) a.value
        if more = 0 then s
        else
          let at_ := (a.base + partsLen a.parts) % 2 ^ 52
          match s.ctxs.get? (a.ctx % 4096) with
          | none => s
          | some c =>
            match s.placeBytes (a.ctx % 4096) c a.thread 0 1 at_ (min more (128 - at_ % 128)) with
            | (.ok ps, s1) => { s1 with accs := s1.accs.set id { a with parts := a.parts ++ ps } }
            | (.error x, s1) => s1.failAcc id x.code x.ppa
    | _ => s

/-- The open part of a load or store longer than 8 bytes, which may be performed in its aligned 8-byte parts (R58): whether it is cut is free.
(DESIGN CHOICE: log entry 96.) -/
def State.mayCut (s : State) (id : Nat) : Bool × State :=
  match s.accs.get? id with
  | none => (false, s)
  | some a =>
    if (match a.part? with | some p => decide (8 < p.len) | none => false) then
      let (cut, s1) := s.flip
      (cut, if cut then { s1 with accs := s1.accs.set id { a with parts := cutPart a.parts } } else s1)
    else (false, s)

/-- The request of an uncached, window or near-atomic access for its open part; it waits while the township has no room for the answer (R243). -/
def State.sendUncached (s0 : State) (id : Nat) : State :=
  let s := (s0.mayCut id).2
  match s.accs.get? id with
  | none => s
  | some a =>
    match a.part? with
    | none => s
    | some p =>
      if !(s.ship a.ship).room then { s with accs := s.accs.set id { a with st := .room } } else
      let dst := if p.via = .window then Node.hub ((windowSite? p.dpa).getD 0) else s.homeOf p.dpa
      let v := match a.op with
        | .store v => (v >>> (8 * partsDone a.parts)) % 2 ^ (8 * p.len)
        | .atomic _ _ b _ _ => b
        | .signal v => v
        | .load _ => 0
      let k : MsgKind := match a.op with | .load _ => .rdU | .store _ => .wrU | _ => .atN
      let s1 := s.request a.ship k p.dpa id a.prio a.spec dst (fun m => { m with
        size := p.len, pay := if k = .rdU then none else some v,
        op := (match a.op with | .atomic op .. => op | .signal _ => 16 | _ => 0),
        cmp := (match a.op with | .atomic _ _ _ c _ => c | _ => 0) })
      if k = .atN then s1.transit (Reg.cohCnt a.ship 0) 1 else s1

/-- The number of a new access: no access has it, and no read on the host link whose access is gone. -/
def State.newAcc (s : State) : Nat := max s.accs.nextKey s.hostOut.nextKey

/-- The open part of an access begun, by how it is reached: a cached line waits for the cache; an uncached or window access
sends its request; a host-window access waits for Bus Master Enable (R384), a translation (R389) or, where it reads, for room among the
outstanding requests (R371), and then goes out on the link, translated while ATS is on; a store is performed as it is sent.
(DESIGN CHOICE: log entry 25.) -/
def State.startPart (s : State) (id : Nat) : Nat → State
  | 0 => s
  | n + 1 =>
    match s.accs.get? id with
    | none => s
    | some a =>
      match a.part? with
      | none => s.finishAcc id
      | some p =>
        let put (st : AccState) : State := { s with accs := s.accs.set id { a with st := st } }
        match p.via with
        | .line => put .line
        | .stream => put .line
        | .uncached => (put .uncached).sendUncached id
        | .window => (put .uncached).sendUncached id
        | .pad => s
        | .host =>
          match s.ctxs.get? (a.ctx % 4096) with
          | none => s
          | some c =>
            if !s.hostOpen c.fn then put .held
            else match s.hostWay c.fn c.pasid p.dpa (match a.op with | .load _ => false | _ => true) with
              | .ask => (put .ats).atsAsk c.fn c.pasid p.dpa
              | .deny => s.failAcc id 0x09 0
              | .go at_ =>
                match a.op with
                | .store v =>
                  let s1 := s.hostWrite c.fn (pasidOf c.pasid) p.dpa (bytesOf p.len (v >>> (8 * partsDone a.parts))) at_
                  ({ s1 with accs := s1.accs.set id { a with parts := fillPart a.parts 0 } }).startPart id n
                | _ =>
                  if !s.hostRoom then put .room
                  else ({ put .host with hostOut := s.hostOut.set id ⟨c.fn, c.pasid, (s.fn c.fn).pageOf p.dpa, at_.isSome⟩ }).hostAsk
                    c.fn (pasidOf c.pasid) p.dpa p.len id at_

/-- A poisoned read that a command tolerates, counted (R568); one of a speculative thread counts once it is confirmed (R165). -/
def State.poisonRead (s : State) (spec : Bool) (t launch : Nat) : State :=
  if spec then s.modThread t (fun th => { th with spec := th.spec.map (fun sp => { sp with poison := sp.poison + 1 }) })
  else s.modLaunch launch (fun l => { l with poisoned := satAdd 32 l.poisoned 1 })

/-- The value that an access takes for its open part: the one that its location holds, or, for a load after an acquire of narrow scope that synchronised
with nothing, as a free choice one that the location held since (R61).
(DEDUCED: log entry 22.) -/
def State.oldValue (s : State) (a : Acc) (v : Nat) : Nat × State :=
  match a.old, a.part? with
  | some k, some p =>
    let vs := v :: ((s.code.take (s.code.length - k)).filter (fun e => e.1 == p.dpa / 128)).map (fun e => getLine e.2 (p.dpa % 128) p.len)
    let (i, s1) := s.pick vs.length
    (vs.getD i v, s1)
  | _, _ => (v, s)

/-- The open part of an access answered with a value: poison is taken or tolerated; a CSB load may go on; then the next
part begins, or the access ends. -/
def State.partDone (s0 : State) (id v0 : Nat) (poison : Bool) : State :=
  match s0.accs.get? id with
  | none => s0
  | some a =>
    let (v, s) := if poison then (v0, s0) else s0.oldValue a v0
    let s1 := { s with accs := s.accs.set id { a with parts := fillPart a.parts (if poison then 0 else v) } }
    if poison && !a.tol then s1.failAcc id 0x0B ((a.part?.map Part.ppa).getD 0)
    else
      let s2 := if poison then s1.poisonRead a.spec a.thread a.launch else s1
      (s2.extendAcc id).startPart id 8

/-- Whether a message that takes a line from township t, or asks for it, is on its way (R246). -/
def State.lineWanted (s : State) (t line : Nat) : Bool :=
  s.net.any (fun m => m.dst == .agent t && m.dpa / 128 == line && (m.kind == .fwdS || m.kind == .fwdX || m.kind == .inv || m.kind == .rcl))

/-- Whether an access waits behind another thread's store that a release has passed (R61): the store's bytes overlap its own. -/
def State.behindRel (ws : List (Nat × Acc)) (e : Nat × Acc) : Bool :=
  ws.any (fun o => o.2.rel && decide (o.1 < e.1) && o.2.thread != e.2.thread &&
    (match e.2.part? with
     | some q => o.2.parts.any (fun p => p.got.isNone && decide (p.dpa < q.dpa + q.len) && decide (q.dpa < p.dpa + p.len))
     | none => false))

/-- The place of an access in a turn of its line (R223): stores, those of higher thread numbers first, so that the lower one's bytes
stand; then atomics and signals; then loads.
(DESIGN CHOICE: log entry 121.) -/
def turnKey (e : Nat × Acc) : Nat :=
  match e.2.op with
  | .store _ => 2 ^ 22 - e.2.thread
  | .load _ => 2 ^ 24
  | _ => 2 ^ 23

def turnInsert (e : Nat × Acc) : List (Nat × Acc) → List (Nat × Acc)
  | [] => [e]
  | x :: r => if turnKey e < turnKey x then e :: x :: r else x :: turnInsert e r

/-- The accesses that reach a line in one turn: of each thread the one it made first, as far as the line's state permits it.
(DESIGN CHOICE: log entry 97.) -/
def State.turnOf (s : State) (t line : Nat) : List (Nat × Acc) :=
  let ws := s.waitingOn t line
  let firsts := ws.filter (fun e => !ws.any (fun o => o.2.thread == e.2.thread && decide (o.1 < e.1)) && !State.behindRel ws e)
  match (s.ship t).way? line with
  | none => []
  | some (_, w) => (firsts.filter (fun e => match e.2.part? with | some p => (performOn e.2 p w).isSome | none => false)).foldl (fun l e => turnInsert e l) []

/-- One access of a turn performed on the line. A hit makes its way most recent, but not that of a speculative thread (R165), nor the access
for which the line was filled (R222). -/
def State.performAcc (s : State) (t line id : Nat) (filled : Bool) : State :=
  match s.accs.get? id, (s.ship t).way? line with
  | some a, some (_, w) =>
    (match a.part?.bind (fun p => performOn a p w) with
     | some (w', old) =>
       let writes := w'.data != w.data
       let s1 := (if writes then s.note line else s).setWay t line (!a.spec && !filled) (fun _ => w')
       let s2 := (match a.op with
         | .atomic .. => s1.transit (Reg.cohCnt t 1) 1
         | _ => s1)
       s2.partDone id old (match a.op with | .store _ => false | _ => w'.poison)
     | none => s)
  | _, _ => s

/-- The turns of a line while its state permits an access: each access of a turn is performed, a wide one perhaps only in its first 8 bytes where
others want the line (R58), and where another agent waits for the line the rest then follows it; once none can go on, the oldest
sends its request, unless one is outstanding or the line's eviction is not yet settled (R56, R246, R248). No order is kept among a thread's accesses to different
places of a line, and this model takes them in the order of issue (R59).
(DESIGN CHOICE: log entries 96, 97.) -/
def State.serveLine (s : State) (t line : Nat) (filled : Bool) : Nat → State
  | 0 => s
  | n + 1 =>
    match s.waitingOn t line with
    | [] => s
    | first :: rest =>
      match s.turnOf t line with
      | [] =>
        (match ((first :: rest).filter (fun e => !State.behindRel (first :: rest) e)).head? with
         | none => s
         | some (id, a) =>
           match a.part? with
           | none => s
           | some p =>
             let w := ((s.ship t).way? line).map Prod.snd
             if ((s.ship t).lineMiss? line).isSome || (s.ship t).evb.any (fun b => b.line == line) || !(s.ship t).room then s
             else s.request t (neededReq a w) (p.dpa / 32 * 32) id a.prio (a.spec && neededReq a w == .rdS)
               (s.homeOf (line * 128)) (fun m => m))
      | turn =>
        let (cut, s1) := if !rest.isEmpty || s.lineWanted t line then
            turn.foldl (fun (x : Bool × State) e => let (c, s') := x.2.mayCut e.1; (x.1 || c, s')) (false, s) else (false, s)
        let s2 := turn.foldl (fun s e => s.performAcc t line e.1 filled) s1
        if cut && s2.lineWanted t line then s2 else s2.serveLine t line filled n

/-- How many turns a line can need: an access has at most 17 pieces in it. -/
def State.turns (s : State) : Nat := 17 * (s.accs.length + 1)

/-- Every line some access of the township waits on is served once. -/
def State.servePass (s : State) (t : Nat) : State :=
  (s.accs.filter (fun e => e.2.ship == t && e.2.st == .line)).foldl (fun s e =>
    match (s.accs.get? e.1).bind Acc.part? with
    | some p => s.serveLine t (p.dpa / 128) false s.turns
    | none => s) s

/-- The uncached accesses of a township that waited for room sent while there is some. -/
def State.sendWaiting (s : State) (t : Nat) : State :=
  (s.accs.filter (fun e => e.2.ship == t && e.2.st == .room && (match e.2.part? with | some p => p.via != .host | none => false))).foldl (fun s e =>
    if (s.ship t).room then ({ s with accs := s.accs.modify e.1 (fun a => { a with st := .uncached }) }).sendUncached e.1 else s) s

/-- The lines served until no access goes on to a further line: an access has at most three parts in its township's cache. -/
def State.serveShip (s : State) (t : Nat) : State := ((((s.servePass t).servePass t).servePass t).servePass t).sendWaiting t

/-- A line request completed once Data and its InvAcks are in and the fill can go ahead: fill, perform, CmpAck (R248). A grant without data leaves the
line where it is and raises its state. -/
def State.completeOne (s : State) (t tx : Nat) : State :=
  match (s.ship t).misses.get? tx with
  | none => s
  | some m =>
    match m.got with
    | none => s
    | some d =>
      let p := (s.parcelOfShip t).getD 0
      let prio := match s.accs.get? m.acc with | some a => a.prio | none => 0
      let stream := match (s.accs.get? m.acc).bind Acc.part? with | some p => p.via == .stream | none => false
      let upgrade := d.pay.isNone && ((s.ship t).way? m.line).isSome
      if decide (m.acks < d.acks) || !s.lineFree t m.line then s
      else if !upgrade && !s.canFill t p prio m.line then
        if m.full || decide ((s.ship t).evb.length < 32) then s
        else (s.modShip t (fun x => { x with misses := x.misses.set tx { m with full := true } })).transit (Reg.cohCnt t 5) 1
      else
        let moved := (match d.src with | .agent _ => true | _ => false) || decide (0 < d.acks)
        let s1 := s.modShip t (fun x => { x with misses := x.misses.erase tx })
        let s2 := if upgrade then s1.setWay t m.line false (fun w => { w with st := d.grant }) else s1.fill t p prio m.line d.grant (d.pay.getD 0) d.poison stream
        let s3 := (match s2.accs.get? m.acc with
          | some a => (match a.op with | .atomic .. => if moved then s2.contendAdd t a.ctr true else s2 | _ => s2)
          | none => s2)
        let s4 := s3.serveLine t m.line (!upgrade) s3.turns
        (s4.send { Msg.blank .cmpAck (.agent t) (s.homeOf (m.line * 128)) (m.line * 128) d.tag tx with grant := d.grant }).serveShip t

/-- Requests whose fill waited for a way, an eviction buffer or the end of a block's test tried again: once round for each that waits, since
one that goes ahead may let another. -/
def State.retryFills (s : State) (t : Nat) : State :=
  let ready := (s.ship t).misses.filter (fun e => e.2.got.isSome && (e.2.kind == .rdS || e.2.kind == .rdX || e.2.kind == .upg))
  (upTo ready.length).foldl (fun s _ => ready.foldl (fun s e => s.completeOne t e.1) s) s

/-- A line request completed if it can be, and then those that waited for it. -/
def State.complete (s : State) (t tx : Nat) : State := (s.completeOne t tx).retryFills t

/-! ### Agent behaviour (Table 08-5) -/

/-- The answer of township t to a forward: the state, data and poison mark of the line it holds or keeps in a buffer. -/
def Township.holding? (x : Township) (line : Nat) : Option (LineState × Nat × Bool) :=
  match x.way? line with
  | some (_, w) => some (w.st, w.data, w.poison)
  | none => (x.evb.find? (fun b => b.line == line)).map (fun b => (b.st, b.data, b.poison))

/-- An eviction buffer that has served the forward its home sent: freed where WbAck has already named it (R249), and what waited for it goes on. -/
def State.bufferServed (s : State) (t line : Nat) (keep : Bool) : State :=
  ((s.modShip t (fun x =>
    let left := x.evb.filter (fun b => !(b.line == line && b.acked))
    { x with evb := left.map (fun b => if b.line = line then { b with fwd := true, st := if keep then .S else .I } else b) })).retryFills t).serveShip t

/-- After a forward: the way takes a state, or the buffer has served it. -/
def State.afterForward (s : State) (t line : Nat) (keep : Bool) : State :=
  match (s.ship t).way? line with
  | some _ => if keep then s.setWay t line false (fun w => { w with st := .S }) else s.dropWay t line
  | none => s.bufferServed t line keep

/-- FwdS: the requester gets an S copy and the home the line (or 0 units where it was E). -/
def State.onFwdS (s : State) (m : Msg) (t : Nat) : State :=
  let line := m.dpa / 128
  match (s.ship t).holding? line with
  | some (st, d, po) =>
    if st = .E ∨ st = .M then
      let s1 := (s.take m).afterForward t line true
      let s2 := s1.send { Msg.blank .data (.agent t) m.req m.dpa m.tag m.txid with grant := .S, pay := some d, poison := po }
      (s2.send { Msg.blank .dataH (.agent t) m.src m.dpa m.tag m.txid with pay := if st = .M then some d else none, poison := po }).serveShip t
    else s
  | none => s

/-- FwdX: the requester gets the line in the owner's state, which goes to I (R246). -/
def State.onFwdX (s : State) (m : Msg) (t : Nat) : State :=
  let line := m.dpa / 128
  match (s.ship t).holding? line with
  | some (st, d, po) =>
    if st = .E ∨ st = .M then
      (((s.take m).afterForward t line false).send
        { Msg.blank .data (.agent t) m.req m.dpa m.tag m.txid with grant := st, pay := some d, poison := po }).serveShip t
    else s
  | none => s

/-- Inv: the S copy goes to I, and InvAck goes to ACK_TO with the holder's own TAG (R247, R258). -/
def State.onInv (s : State) (m : Msg) (t : Nat) : State :=
  (((s.take m).dropWay t (m.dpa / 128)).send
    (Msg.blank .invAck (.agent t) m.req m.dpa (if m.tag = 16 then (s.parcelOfShip t).getD 16 else m.tag) m.txid)).serveShip t

/-- Rcl: the line returns to the home and goes to I. -/
def State.onRcl (s : State) (m : Msg) (t : Nat) : State :=
  let line := m.dpa / 128
  match (s.ship t).holding? line with
  | some (st, d, po) =>
    if st = .E ∨ st = .M then
      (((s.take m).afterForward t line false).send
        { Msg.blank .dataH (.agent t) m.src m.dpa m.tag m.txid with pay := if st = .M then some d else none, poison := po }).serveShip t
    else s
  | none => s

/-! ### The home -/

/-- The granule owner check of R460. -/
def State.ownerOk (s : State) (m : Msg) : Bool :=
  if m.tag ≥ 16 then true
  else
    let g := m.dpa / 2 ^ 30
    s.granOwner g == m.tag ||
    (s.granOwner g == 0x11 && (m.kind == .rdS || m.kind == .rdU) &&
      (match s.parcels.get? m.tag with
       | some p => p.eases.any (fun e => match s.eases.get? e.2 with | some x => x.map.any (fun y => y.2 == g) | none => false)
       | none => false))

/-- A request at its home: the checks of R460 and R238's buffer, then service or a place in the line's queue. A read whose
check fails is answered with zero data that carries POISON; a write is not performed. -/
def State.onRequest (s : State) (m : Msg) : State :=
  let s := s.take m
  if !s.ownerOk m then
    let s1 := (s.addSat Reg.prcStatus 47 32 1).deviceError 0x0C m.dpa (s.channelOf m.dpa) 2
    match m.kind with
    | .rdU => s1.send { homeMsg s1 .data m m.src with pay := some 0, size := m.size, poison := true }
    | .wrU => s1.send (homeMsg s1 .uAck m m.src)
    | .atN => s1.send { homeMsg s1 .atR m m.src with pay := some 0, size := m.size, poison := true }
    | _ => s1.send { homeMsg s1 .data m m.src with grant := .S, pay := some 0, poison := true }
  else s.admitHome m

/-- WB at the home (Table 08-4): from the owner, memory takes the data and the entry goes free; from any other agent the
WB is discarded. WbAck carries FWD_PENDING where a forward to that agent is in a transaction not yet complete. -/
def State.onWb (s : State) (m : Msg) : State :=
  let s := s.take m
  let line := m.dpa / 128
  let a := m.src.agent?.getD 0
  match s.dir.get? line with
  | some e =>
    match e.st with
    | .X =>
      if vecBit e.vec a then
        let s1 := s.writeHome m
        (({ s1 with dir := s1.dir.erase line }).send (homeMsg s1 .wbAck m m.src)).serveSet line
      else s.send (homeMsg s .wbAck m m.src)
    | .B =>
      let pend := (match e.txn with | some x => x.fwdTo == some a || (x.evict && x.dataH && vecBit e.vec a) | none => false)
      s.send { homeMsg s .wbAck m m.src with flag := pend }
    | .S => s.send (homeMsg s .wbAck m m.src)
  | none => s.send (homeMsg s .wbAck m m.src)

/-! ### Uncached accesses -/

/-- The open part of an uncached access answered: the next part is asked for, or the access ends. -/
def State.answerUncached (s : State) (t tx : Nat) (v : Nat) (poison : Bool) : State :=
  match (s.ship t).misses.get? tx with
  | none => s
  | some m =>
    ((s.modShip t (fun x => { x with misses := x.misses.erase tx })).partDone m.acc v poison).serveShip t

/-! ### The commands of Table 08-3 -/

/-- Whether a request can enter the request buffer of its home (R239, R244): 112 of the 128 entries take any request, the other 16 only aged
ones, and aged requests that could arrive go first, the oldest first. During a slice it enters the hold store of 2,048 entries (R302). -/
def State.mayEnter (s : State) (m : Msg) : Bool :=
  match m.dst with
  | .home c =>
    let n := s.sliceWaiting c
    (if s.channelHeld c then decide (s.retrain.hold.length < 2048) else decide (n < 112) || (m.aged && decide (n < 128))) &&
    !s.net.any (fun x => x.aged && x.dst == m.dst && x.kind.cls == 0 && x != m && (!m.aged || decide (x.hdr.seq < m.hdr.seq)) && s.deliverable x)
  | _ => true

/-- A request-class message at its home, or at the server of a chiplet window, which is the chiplet. -/
def State.arrive (s : State) (k : MsgKind) (m : Msg) : State :=
  if m.kind = k && s.deliverable m then
    match m.dst with
    | .home _ => if s.mayEnter m then s.onRequest m else s
    | .hub n => if n < 8 then s.toChiplet n m else s
    | .agent _ => s
  else s

def execRds (m : Msg) (s : State) : Host.Outcome State Fault Refusal := .next (s.arrive .rdS m)
def execRdx (m : Msg) (s : State) : Host.Outcome State Fault Refusal := .next (s.arrive .rdX m)
def execUpg (m : Msg) (s : State) : Host.Outcome State Fault Refusal := .next (s.arrive .upg m)
def execRdu (m : Msg) (s : State) : Host.Outcome State Fault Refusal := .next (s.arrive .rdU m)
def execWru (m : Msg) (s : State) : Host.Outcome State Fault Refusal := .next (s.arrive .wrU m)
def execAtn (m : Msg) (s : State) : Host.Outcome State Fault Refusal := .next (s.arrive .atN m)

/-- A message consumed by a township's cache, or one that crosses to a chiplet. One that reaches a block under test waits (R231). -/
def State.atAgent (s : State) (k : MsgKind) (m : Msg) (f : Nat → State) : State :=
  if m.kind = k && s.deliverable m then
    match m.dst.site? with
    | some n => s.toChiplet n m
    | none =>
      match m.dst with
      | .agent a =>
        if 256 ≤ a || !s.shipOpen a || !s.lineFree a (m.dpa / 128) then s
        else if !s.tagOk a m.tag then (s.take m).tagDrop a
        else f a
      | .hub _ => s.take m
      | .home _ => s
  else s

def execFwds (m : Msg) (s : State) : Host.Outcome State Fault Refusal := .next (s.atAgent .fwdS m (s.onFwdS m))
def execFwdx (m : Msg) (s : State) : Host.Outcome State Fault Refusal := .next (s.atAgent .fwdX m (s.onFwdX m))
def execInv (m : Msg) (s : State) : Host.Outcome State Fault Refusal := .next (s.atAgent .inv m (s.onInv m))
def execRcl (m : Msg) (s : State) : Host.Outcome State Fault Refusal := .next (s.atAgent .rcl m (s.onRcl m))

/-- Data: an uncached read is answered, or a line request has its grant and completes once its InvAcks are in (R248). A
grant from another agent counts as FORWARDED. -/
def execData (m : Msg) (s : State) : Host.Outcome State Fault Refusal :=
  .next (s.atAgent .data m (fun t =>
    let s1 := s.take m
    match (s1.ship t).misses.get? m.txid with
    | none => s1
    | some x =>
      if x.kind = .rdU then s1.answerUncached t m.txid (m.pay.getD 0) m.poison
      else
        let s2 := (match m.src with | .agent _ => s1.transit (Reg.cohCnt t 2) 1 | _ => s1)
        (s2.modShip t (fun h => { h with misses := h.misses.set m.txid { x with got := some m } })).complete t m.txid))

/-- DataH: the home writes the owner's line to memory and the transaction goes on (R245). -/
def execDatah (m : Msg) (s : State) : Host.Outcome State Fault Refusal :=
  .next (if m.kind = .dataH && s.deliverable m then ((s.take m).writeHome m).txnStep (m.dpa / 128) (fun x => { x with dataH := false }) else s)

def execWb (m : Msg) (s : State) : Host.Outcome State Fault Refusal := .next (if m.kind = .wb && s.deliverable m then s.onWb m else s)

/-- AtR: the near atomic's old value; its counter moves by CONTENDED (R254). -/
def execAtr (m : Msg) (s : State) : Host.Outcome State Fault Refusal :=
  .next (s.atAgent .atR m (fun t =>
    let s1 := s.take m
    match (s1.ship t).misses.get? m.txid with
    | none => s1
    | some x =>
      let s2 := (match s1.accs.get? x.acc with
        | some a => (match a.op with | .atomic .. => s1.contendAdd t a.ctr m.flag | _ => s1)
        | none => s1)
      s2.answerUncached t m.txid (m.pay.getD 0) m.poison))

/-- InvAck: collected by the requester that the Inv named, or by the home. -/
def execInvack (m : Msg) (s : State) : Host.Outcome State Fault Refusal :=
  .next (match m.dst with
    | .agent _ => s.atAgent .invAck m (fun t =>
      let s1 := s.take m
      (s1.modShip t (fun h => { h with misses := h.misses.modify m.txid (fun x => { x with acks := x.acks + 1 }) })).complete t m.txid)
    | _ => if m.kind = .invAck && s.deliverable m then (s.take m).txnStep (m.dpa / 128) (fun x => { x with invAcks := x.invAcks - 1 }) else s)

/-- CmpAck: the requester has performed its access, and the entry leaves B once the transaction has all it needs. -/
def execCmpack (m : Msg) (s : State) : Host.Outcome State Fault Refusal :=
  .next (if m.kind = .cmpAck && s.deliverable m then (s.take m).txnStep (m.dpa / 128) (fun x => { x with cmpAck := false }) else s)

/-- WbAck: the buffer that the WB left from is free, or with FWD_PENDING once it has served the one forward (R249). -/
def execWback (m : Msg) (s : State) : Host.Outcome State Fault Refusal :=
  .next (s.atAgent .wbAck m (fun t =>
    let named (b : EvBuf) : Bool := b.line == m.dpa / 128 && b.tx == m.txid
    (((s.take m).modShip t (fun x =>
      let keep := x.evb.filter (fun b => !(named b && (!m.flag || b.fwd)))
      { x with evb := keep.map (fun b => if named b then { b with acked := true } else b) })).retryFills t).serveShip t))

/-- UAck: an uncached write is performed. -/
def execUack (m : Msg) (s : State) : Host.Outcome State Fault Refusal :=
  .next (s.atAgent .uAck m (fun t => (s.take m).answerUncached t m.txid 0 false))

/-- SpecWait: the speculative loads of the line wait for their closure; other accesses ask again (R251). -/
def execSpecwait (m : Msg) (s : State) : Host.Outcome State Fault Refusal :=
  .next (s.atAgent .specWait m (fun t =>
    let s1 := (s.take m).transit (Reg.cohCnt t 3) 1
    let old := (s1.ship t).misses.get? m.txid
    let s2 := s1.modShip t (fun x => { x with misses := x.misses.erase m.txid })
    let ids := (match old with
      | some x => x.acc :: (if x.kind = MsgKind.rdU then [] else (s2.waitingOn t (m.dpa / 128)).map Prod.fst)
      | none => [])
    ({ s2 with accs := s2.accs.mapV (fun id a => if ids.contains id && a.spec then { a with st := .closure } else a) }).serveShip t))

/-- A request that has waited without entering its home's request buffer carries AGED from now on (R244). -/
def execAged (m : Msg) (s : State) : Host.Outcome State Fault Refusal :=
  .next (if s.net.contains m && !m.aged && m.kind.cls == 0 then
    let s1 := { s with net := s.net.map (fun x => if x = m then { x with aged := true } else x) }
    match m.src with
    | .agent t => if t < 256 then s1.transit (Reg.cohCnt t 4) 1 else s1
    | _ => s1
  else s)

end Sys2Proof.Machine
end

