-- ==== Sys2Proof/Machine/HostWait.lean ====
section
/-! DEFINITION. What waits on the host link: reads of threads that have returned or failed, accesses that wait for room or a translation, writes and
MSI-X messages of engines, and Invalidation Requests (R371, R387, R389, R390). -/

namespace Sys2Proof.Machine

/-- The Invalidation Requests whose translated reads have all ended, completed (R390). -/
def State.invalsDone (s : State) : State :=
  (s.invals.filter (fun i => i.reads.isEmpty)).foldl (fun s i => s.emit (.atsDone i.fn i.tag)) { s with invals := s.invals.filter (fun i => !i.reads.isEmpty) }

/-- How what waits would go out now. -/
def State.pendWay (s : State) : HostPend → HostWay
  | .write n (some p) addr _ _ => s.hostWay n p.num addr true
  | .read n p addr _ => s.hostWay n p addr false
  | _ => .go none

/-- What may go now, with its place: an MSI-X message, an access that needs no translation or has one, and one whose translation denies it (R389);
writes and messages in the order of their function (R387). -/
def State.hostNext (s : State) : Option (HostPend × Nat) :=
  s.hostWait.zipIdx.find? (fun x =>
    !(x.1.posted && (s.hostWait.take x.2).any (fun y => y.posted && y.fnOf == x.1.fnOf)) && s.pendWay x.1 != .ask)

/-- The context of a function and a PASID whose host window holds an address, and the PVA there. -/
def State.hostCtx (s : State) (n pasid addr : Nat) : Option (Nat × Nat) :=
  (s.ctxs.find? (fun e => e.2.fn == n && e.2.pasid == pasid && e.2.st == .live)).map
    (fun e => (e.1, 0xC000000000000 + (addr + 2 ^ 64 - e.2.host) % 2 ^ 64))

/-- One that waited goes out, or, where its translation denies it, is dropped: then its context takes HOST_ERROR, but not for an event record (R389,
R429).
(DEDUCED: log entry 53.) -/
def State.sendPend (s : State) (p : HostPend) : State :=
  match p with
  | .msix n v => s.signalNow n v
  | .read n q addr len =>
    match s.hostWay n q addr false with
    | .go at_ => s.hostAsk n (pasidOf q) addr len noAcc at_
    | .ask => s
    | .deny =>
      match s.hostCtx n q addr with
      | some (c, pva) => s.loseCtx c ⟨0x09, 0, pva, 0, 0xFFFFFFFF⟩
      | none => s
  | .write n none addr bs _ => s.hostWrite n none addr bs
  | .write n (some q) addr bs acc =>
    match s.hostWay n q.num addr true with
    | .go at_ => s.hostWrite n (some q) addr bs at_
    | .ask => s
    | .deny =>
      match acc, s.hostCtx n q.num addr with
      | some a, some (c, pva) => s.loseCtx c ⟨0x09, a, pva, 0, 0xFFFFFFFF⟩
      | _, _ => s

/-- What waited and may go now, sent in order; then the translations asked for that the next ones need. The number bounds what is sent. -/
def State.drainHost (s : State) : Nat → State
  | 0 => s
  | k + 1 =>
    match s.hostNext with
    | some (p, i) => (({ s with hostWait := s.hostWait.eraseIdx i }).sendPend p).drainHost k
    | none => s.hostWait.foldl (fun s p => match p with
      | .write n (some q) addr _ _ => if s.pendWay p = .ask then s.atsAsk n q.num addr else s
      | .read n q addr _ => if s.pendWay p = .ask then s.atsAsk n q addr else s
      | _ => s) s

/-- Whatever waited for room on the link or for a translation tried again: the accesses of threads, and what engines have to send. -/
def State.hostGoes (s : State) : State :=
  let again := s.accs.filter (fun e => (e.2.st == .room || e.2.st == .ats) && (match e.2.part? with | some p => p.via == .host | none => false))
  let s1 := again.foldl (fun (s : State) e => s.startPart e.1 8) s
  s1.drainHost (4 * s1.hostWait.length + 1)

/-- An engine's read of a run of host memory for a context (R42), page by page: sent, or held until its translation has come (R389). The first number
bounds the pages. -/
def State.hostGet (s : State) (n pasid : Nat) : Nat → Nat → Nat → State
  | 0, _, _ => s
  | k + 1, addr, len =>
    if len = 0 then s
    else
      let m := min len (4096 - addr % 4096)
      let s1 := if s.hostWay n pasid addr false = .ask then { s.atsAsk n pasid addr with hostWait := s.hostWait ++ [.read n pasid addr m] }
        else s.sendPend (.read n pasid addr m)
      State.hostGet s1 n pasid k (addr + m) (len - m)

/-- Whether a read for a context waits for its translation. -/
def State.readWaits (s : State) (n pasid : Nat) : Bool :=
  s.hostWait.any (fun p => match p with | .read f q _ _ => f == n && q == pasid | _ => false)

/-- A read request of a thread's access ends: its completion has come, it has failed, or it has timed out. The Invalidation Requests that waited for it
may be completed, and there is room for another. -/
def State.hostEnd (s : State) (id : Nat) : State :=
  if s.hostOut.has id then
    ({ s with hostOut := s.hostOut.erase id, invals := s.invals.map (fun i => { i with reads := i.reads.filter (fun r => r != id) }) } : State).invalsDone.hostGoes
  else s

end Sys2Proof.Machine
end

