-- ==== Sys2Proof/Machine/Vector.lean ====
section
/-! DEFINITION. The MAC, accumulator, conversion, vector move and gate list instructions (Tables 03-8 to 03-13, R607). -/

namespace Sys2Proof.Machine

/-! ### Scratchpad bytes as a thread sees them -/

/-- The key of a local address in the scratchpads: section number × 2^17 + local address. -/
def spKey (sec loc : Nat) : Nat := sec * 2 ^ 17 + loc % 2 ^ 17

/-- The byte a speculative thread's log holds for an address, newest store first. -/
def logByte (log : List SpecItem) (loc : Bool) (a : Nat) : Option Byte :=
  log.findSome? (fun i => match i with
    | .store l b n v => if l = loc && decide (b ≤ a) && decide (a < b + n) then some (BitVec.ofNat 8 (v >>> (8 * (a - b)))) else none
    | _ => none)

/-- One byte of a thread's own section scratchpad, its logged stores first (R164). -/
def State.spByte (s : State) (t loc : Nat) : Byte :=
  let k := spKey (sectOf t) loc
  match (s.threads.get? t).bind (fun th => th.spec.bind (fun sp => logByte sp.log true (loc % 2 ^ 17))) with
  | some b => b
  | none => s.spm.read k

/-- n bytes of a thread's scratchpad from a local address, as a number. -/
def State.spRead (s : State) (t loc : Nat) : Nat → Nat
  | 0 => 0
  | n + 1 => (s.spByte t loc).toNat + 256 * State.spRead s t (loc + 1) n

/-- Whether a run of local addresses touches 0x1_2000 to 0x1_FFFF (R85). -/
def badLocal (loc n : Nat) : Bool := (upTo n).any (fun i => decide (0x12000 ≤ (loc + i) % 2 ^ 17))

/-! ### vmac -/

/-- The extension fields of Table 03-8. -/
def macForm (f : FmtE) : Nat := fld f.ext.toNat 9 8
def macQ (f : FmtE) : Nat := fld f.ext.toNat 13 10
def macScaled (f : FmtE) : Bool := f.ext.toNat.testBit 14
def macFmtA (f : FmtE) : Option ElemFmt := ElemFmt.ofCode? (fld f.ext.toNat 3 0)
def macFmtB (f : FmtE) : Option ElemFmt := ElemFmt.ofCode? (fld f.ext.toNat 7 4)

/-- A q outside its range: 0 for dot, 0 to 3 for out, 0 to 15 for bc. -/
def macBadQ (form q : Nat) : Bool := (form == 0 && q != 0) || (form == 1 && decide (4 ≤ q))

/-- A format or pair that vmac does not permit (R88). -/
def macBadFmt (f : FmtE) : Bool :=
  match macFmtA f, macFmtB f with
  | some a, some b => !macPairOk a b (macScaled f)
  | _, _ => true

/-- The products of an instruction whose pair has no zero flag (R112 to R114, R89, R111): elements and flags of A and B by
index, and the scale of each index. -/
def macProds (fa fb : ElemFmt) (form q : Nat) (scaled : Bool) (ea eb : Nat → Nat) (za zb : Nat → Bool)
    (sa sb : Nat → Nat) : List Prod :=
  (macPairs form q (fa.count / 16)).filterMap (fun x =>
    let (i, k, j) := x
    if za i || zb k then none
    else if fa.isInt then some (.int j (sextNat fa.width (ea i) * sextNat fb.width (eb k)))
    else
      let v := (elemVal fa (ea i)).mul (elemVal fb (eb k))
      some (.fp j (if scaled then applyScale (sb (k / 32)) (applyScale (sa (i / 32)) v) else v)))

/-- Whether the core's MAC vector is free (R97). -/
def State.macFree (s : State) (t : Nat) : Bool := (s.core (coreOf t)).mac.isNone

/-- What a MAC instruction of a speculative thread logs before its products: a0, with every earlier product in it (Table 05-7), and the
registers that the instruction writes. They are written, or the thread waits for its closure with nothing written. -/
def State.macLog (s : State) (t : Nat) (e : Eff) : State :=
  match s.threads.get? t with
  | none => s
  | some th =>
    match th.spec with
    | none => s.writeRegs t e
    | some sp =>
      if hasAcc sp.log then s.writeRegs t e
      else
        let s1 := s.drain t
        s1.writeRegs t { e with a := some (s1.onThread t th.a (fun x => x.a)) }

/-- Products handed to a thread's accumulators and the MAC vector occupied for the steps of R97. -/
def State.macIssue (s : State) (t : Nat) (fmt : ElemFmt) (ps : List Prod) : State :=
  let s1 := s.modThread t (fun th => { th with prods := th.prods ++ ps })
  s1.setCore (coreOf t) { s1.core (coreOf t) with mac := some (t, macOccupation fmt ps.length) }

/-- vmac: reads both vectors and the scale registers in its issue step (R91) and adds the products (R90). -/
def execVmac (t : Nat) (f : FmtE) (s : State) : Host.Outcome State Fault Refusal :=
  .next (if !s.macFree t then s else
    issue t
      (firstCode [(macForm f == 3, 0x10), (badV f.a || badV f.b, 0x11),
        (nz f.d || nz f.imm || f.ext.toNat.testBit 15 || fld f.ext.toNat 31 24 != 0, 0x12),
        (macBadFmt f || macBadQ (macForm f) (macQ f), 0x13)])
      [.v f.a.toNat, .v f.b.toNat, .s (fld f.ext.toNat 19 16), .s (fld f.ext.toNat 23 20)]
      (fun th s =>
        let fa := (macFmtA f).getD .none
        let fb := (macFmtB f).getD .none
        let va := th.vr f.a.toNat
        let vb := th.vr f.b.toNat
        let s1 := s.macLog t Eff.none
        if s1.waits t then s1
        else (s1.macIssue t fa (macProds fa fb (macForm f) (macQ f) (macScaled f)
          (elem fa va.data) (elem fb vb.data) (fun i => (va.flagsIn fa).getLsbD i) (fun i => (vb.flagsIn fb).getLsbD i)
          (fun n => fld (th.sr (fld f.ext.toNat 19 16)).toNat (8 * n + 7) (8 * n))
          (fun n => fld (th.sr (fld f.ext.toNat 23 20)).toNat (8 * n + 7) (8 * n)))).advance t 8) s)

/-- The MAC vector of a core becomes free (R97). -/
def execMacOccupationEnd (ship sec core : Nat) (s : State) : Host.Outcome State Fault Refusal :=
  .next (s.setCore (ship * 4096 + sec * 64 + core) { s.core (ship * 4096 + sec * 64 + core) with mac := none })

/-! ### Accumulator instructions (Table 03-11) -/

/-- a0 rewritten element by element. -/
def accMap (t : Nat) (code : Option Nat) (u : Uses) (g : Thread → Nat → W32) (s : State) : State :=
  accInstr t 4 code u (fun th => Eff.accs ((upTo 16).map (g th))) s

/-- Every field of a format A word reserved but those marked used. -/
def resA (f : FmtA) (d a : Bool) : Bool := (!d && nz f.d) || (!a && nz f.a) || nz f.b || nz f.md

def execAclr (t : Nat) (f : FmtA) (s : State) : Host.Outcome State Fault Refusal :=
  .next (accMap t (firstCode [(resA f false false, 0x12)]) [] (fun _ _ => 0) s)

def execAmovf (t : Nat) (f : FmtA) (s : State) : Host.Outcome State Fault Refusal :=
  .next (accMap t (firstCode [(badV f.a, 0x11), (resA f false true, 0x12)]) [.v f.a.toNat]
    (fun th j => vword (th.vr f.a.toNat).data j) s)

def execAmovt (t : Nat) (f : FmtA) (s : State) : Host.Outcome State Fault Refusal :=
  .next (accInstr t 4 (firstCode [(badV f.d, 0x11), (resA f true false, 0x12)]) [.v f.d.toNat]
    (fun th => Eff.vec f.d.toNat (VReg.write .fp32 (vdataOfWords th.acc))) s)

def execAscl (t : Nat) (f : FmtA) (s : State) : Host.Outcome State Fault Refusal :=
  .next (accMap t (firstCode [(resA f false true, 0x12)]) [.s f.a.toNat]
    (fun th j => f32Mul (th.acc j) (th.sr f.a.toNat)) s)

def execAadd (t : Nat) (f : FmtA) (s : State) : Host.Outcome State Fault Refusal :=
  .next (accMap t (firstCode [(badV f.a, 0x11), (resA f false true, 0x12)]) [.v f.a.toNat]
    (fun th j => f32Add (th.acc j) (vword (th.vr f.a.toNat).data j)) s)

def execAmax (t : Nat) (f : FmtA) (s : State) : Host.Outcome State Fault Refusal :=
  .next (accMap t (firstCode [(badV f.a, 0x11), (resA f false true, 0x12)]) [.v f.a.toNat]
    (fun th j => f32Max (th.acc j) (vword (th.vr f.a.toNat).data j)) s)

def execAexp2 (t : Nat) (f : FmtA) (s : State) : Host.Outcome State Fault Refusal :=
  .next (accMap t (firstCode [(resA f false false, 0x12)]) []
    (fun th j => f32Exp2 (Config.fexp2 (th.acc j)) (th.acc j)) s)

def execArcp (t : Nat) (f : FmtA) (s : State) : Host.Outcome State Fault Refusal :=
  .next (accMap t (firstCode [(resA f false false, 0x12)]) []
    (fun th j => f32Rcp (Config.frcp (th.acc j)) (th.acc j)) s)

/-- A fixed pairwise tree over 2^n terms from term i (R117: four levels for ared). -/
def pairTree (op : W32 → W32 → W32) (a : Nat → W32) : Nat → Nat → W32
  | 0, i => a i
  | n + 1, i => op (pairTree op a n i) (pairTree op a n (i + 2 ^ n))

def execAred (t : Nat) (f : FmtA) (s : State) : Host.Outcome State Fault Refusal :=
  .next (accInstr t 4 (firstCode [(resA f true false, 0x12)]) [.s f.d.toNat]
    (fun th => Eff.sc f.d.toNat (pairTree f32Add th.acc 4 0)) s)

def execArmax (t : Nat) (f : FmtA) (s : State) : Host.Outcome State Fault Refusal :=
  .next (accInstr t 4 (firstCode [(resA f true false, 0x12)]) [.s f.d.toNat]
    (fun th => Eff.sc f.d.toNat (pairTree f32Max th.acc 4 0)) s)

def execAired (t : Nat) (f : FmtA) (s : State) : Host.Outcome State Fault Refusal :=
  .next (accInstr t 4 (firstCode [(resA f true false, 0x12)]) [.s f.d.toNat]
    (fun th => Eff.sc f.d.toNat (pairTree (fun x y => x + y) th.acc 4 0)) s)

/-- The q range of acvt: 0 to 3 for 64 elements, 0 to 7 for FP4 and INT4, 0 to 1 for BF16. -/
def cvtBadQ (f : ElemFmt) (q : Nat) : Bool := decide (f.count ≤ 16 * q)

/-- acvt: 16 elements of v(d) from a0 (R119 to R127); 16 draws where round is 1 and the format is a float format. -/
def execAcvt (t : Nat) (f : FmtE) (s : State) : Host.Outcome State Fault Refusal :=
  let fmt := (ElemFmt.ofCode? (fld f.ext.toNat 3 0)).getD .none
  let q := fld f.ext.toNat 6 4
  let sto := f.ext.toNat.testBit 7 && !fmt.isInt
  .next (accInstr t 8
    (firstCode [(badV f.d, 0x11), (nz f.a || nz f.b || nz f.imm || fld f.ext.toNat 31 14 != 0, 0x12),
      (fmt == .none || fmt == .fp32 || cvtBadQ fmt q, 0x13)])
    [.v f.d.toNat]
    (fun th =>
      let draws := genRun th.gen 16
      let data := (upTo 16).foldl (fun d i =>
        putElem fmt d (16 * q + i) (cvtElem fmt (f.ext.toNat.testBit 8) (fld f.ext.toNat 13 9)
          (if sto then (draws[i]?).map genDraw else none) (th.acc i))) (th.vr f.d.toNat).data
      { Eff.vec f.d.toNat (VReg.write fmt data) with g := if sto then draws.getLast? else none }) s)

/-! ### Vector moves -/

def execVmov (t : Nat) (f : FmtA) (s : State) : Host.Outcome State Fault Refusal :=
  .next (regInstr t 4 (firstCode [(badV f.d || badV f.a, 0x11), (resA f true true, 0x12)]) [.v f.a.toNat, .v f.d.toNat]
    (fun th => Eff.vec f.d.toNat (th.vr f.a.toNat)) s)

def execVbc (t : Nat) (f : FmtA) (s : State) : Host.Outcome State Fault Refusal :=
  .next (regInstr t 4 (firstCode [(badV f.d, 0x11), (resA f true true, 0x12)]) [.s f.a.toNat, .v f.d.toNat]
    (fun th => Eff.vec f.d.toNat (VReg.write .none (vdataOfWords (fun _ => th.sr f.a.toNat)))) s)

def execVext (t : Nat) (f : FmtA) (s : State) : Host.Outcome State Fault Refusal :=
  .next (regInstr t 4 (firstCode [(badV f.a, 0x11), (nz f.b || fld f.md.toNat 7 4 != 0, 0x12)]) [.v f.a.toNat, .s f.d.toNat]
    (fun th => Eff.sc f.d.toNat (vword (th.vr f.a.toNat).data (fld f.md.toNat 3 0))) s)

def execVins (t : Nat) (f : FmtA) (s : State) : Host.Outcome State Fault Refusal :=
  .next (regInstr t 4 (firstCode [(badV f.d, 0x11), (nz f.b || fld f.md.toNat 7 4 != 0, 0x12)]) [.s f.a.toNat, .v f.d.toNat]
    (fun th => Eff.vec f.d.toNat
      (VReg.write (th.vr f.d.toNat).tag (putVword (th.vr f.d.toNat).data (fld f.md.toNat 3 0) (th.sr f.a.toNat)))) s)

def execVzero (t : Nat) (f : FmtA) (s : State) : Host.Outcome State Fault Refusal :=
  .next (regInstr t 4 (firstCode [(badV f.d, 0x11), (resA f true false, 0x12)]) [.v f.d.toNat]
    (fun _ => Eff.vec f.d.toNat VReg.zero) s)

/-! ### Gate lists -/

/-- An invalid entry holds no stated EXPERT and SCORE: free values.
(DEDUCED: log entry 18.) -/
def freeEntry (k : Nat) : GateEntry := ⟨Config.freeNat k % 2 ^ 16, false, BitVec.ofNat 32 (Config.freeNat k / 2 ^ 16)⟩

/-- gtopk's merge: accumulators 0 to n − 1 that are no NaN join the valid entries, and the k best stay in order.
(DEDUCED: log entry 18.) -/
def topk (old : List GateEntry) (base k n : Nat) (acc : Nat → W32) (seed : Nat) : List GateEntry :=
  let merged := (upTo n).foldl (fun l j =>
    if (f32 (acc j)).isNan then l else (gateInsert ⟨(base + j) % 2 ^ 16, true, acc j⟩ l).take k)
    ((old.filter (fun e => e.valid)).take k)
  merged ++ (upTo (8 - merged.length)).map (fun i => freeEntry (seed + i))

/-- gtopk (Table 03-13). A k or n of 0 merges nothing and invalidates nothing: only init acts. -/
def execGtopk (t : Nat) (f : FmtE) (s : State) : Host.Outcome State Fault Refusal :=
  let k := fld f.ext.toNat 3 0
  let n := fld f.ext.toNat 8 4
  let init := f.ext.toNat.testBit 9
  let s1 := { s with free := s.free + 8 }
  .next (if s.canIssue t then accInstr t 8
    (firstCode [(badV f.d, 0x11), (nz f.b || nz f.imm || fld f.ext.toNat 31 10 != 0, 0x12),
      (decide (8 < k) || decide (16 < n), 0x13)])
    [.s f.a.toNat, .v f.d.toNat]
    (fun th =>
      let old := if init then [] else gateList (th.vr f.d.toNat).data
      if k = 0 ∨ n = 0 then
        (if init then Eff.vec f.d.toNat (VReg.write .none (gateData ((upTo 8).map (fun i => freeEntry (s.free + i))))) else Eff.none)
      else Eff.vec f.d.toNat (VReg.write .none (gateData (topk old (th.sr f.a.toNat).toNat k n th.acc s.free)))) s1 else s)

/-- The exponential of a rounded difference that is not positive, −infinity or NaN. -/
def gexp (x : W32) : W32 :=
  match f32 x with
  | .nan => f32Nan
  | .inf n => if n then 0 else 0x7F800000#32
  | .fin _ m e => f32ExpNeg (Config.gnormExp x) m e

/-- The largest of a list of scores that holds no NaN. -/
def maxScore (l : List W32) : W32 := l.foldl (fun m x => if f32Lt m x then x else m) (l.headD 0)

/-- The scores gnorm leaves in the valid entries, in ascending entry order (R607). -/
def gnormScores (sumForm : Bool) (l : List W32) : List W32 :=
  if l.any (fun x => (f32 x).isNan) then l.map (fun _ => f32Nan)
  else
    let es := if sumForm then l else l.map (fun x => gexp (f32Sub x (maxScore l)))
    let total := (es.drop 1).foldl f32Add (es.headD 0)
    es.map (fun e => f32Div (Config.gnormDiv e total) e total)

/-- Entries with the scores of the valid ones replaced in order. -/
def putScores : List GateEntry → List W32 → List GateEntry
  | [], _ => []
  | e :: r, ws => if e.valid then { e with score := ws.headD e.score } :: putScores r (ws.drop 1) else e :: putScores r ws

/-- The bytes of a gate list with new scores: only SCORE of valid entries changes. -/
def putGate (d : VData) (es : List GateEntry) : VData :=
  (es.zipIdx).foldl (fun d (x : GateEntry × Nat) => if x.1.valid then putVword d (2 * x.2 + 1) x.1.score else d) d

/-- gnorm: softmax (func 0x00) or sum (0x01); with no valid entry the list is unchanged. -/
def execGnorm (t : Nat) (fn : BitVec 6) (f : FmtA) (s : State) : Host.Outcome State Fault Refusal :=
  .next (regInstr t 4
    (firstCode [(decide (2 ≤ fn.toNat), 0x10), (badV f.d, 0x11), (resA f true false, 0x12)]) [.v f.d.toNat]
    (fun th =>
      let d := (th.vr f.d.toNat).data
      let es := gateList d
      let sc := (es.filter (fun e => e.valid)).map (fun e => e.score)
      if sc.isEmpty then Eff.none
      else Eff.vec f.d.toNat (VReg.write .none (putGate d (putScores es (gnormScores (fn == 1) sc))))) s)

end Sys2Proof.Machine
end

