-- ==== Sys2Proof/Machine/LoadStore.lean ====
section
/-! DEFINITION. The memory instructions of Tables 03-6 and 03-7: loads, stores, converting accesses and atomics, global and
scratchpad, the return of load data, host-link failures, and the arbitration of the scratchpad banks (R211 to R218). -/

namespace Sys2Proof

/-- Whether an access reads bytes that an instruction waits for (dspt, dret, vmacc). -/
def Acc.isFetch (a : Acc) : Bool := match a.op with | .load (.row _) => true | _ => false
/-- A global load, and a store. -/
def Acc.isLoad (a : Acc) : Bool := match a.op with | .load _ => !(a.parts.any (fun p => p.via == .pad)) | _ => false
def Acc.isStore (a : Acc) : Bool := match a.op with | .store _ => true | _ => false

/-- The destination of an access. -/
def Acc.dst (a : Acc) : LoadDst :=
  match a.op with
  | .load d => d
  | .atomic _ _ _ _ d => d
  | _ => .none

/-- The local address a request is at, and its row (R211). -/
def SpReq.loc (r : SpReq) : Nat := (r.base + r.off) % 2 ^ 17
def SpReq.row (r : SpReq) : Nat := r.loc / 64
/-- The bytes of a request that lie in its current row. -/
def SpReq.cur (r : SpReq) : Nat := min (r.len - r.off) (64 - r.loc % 64)
/-- Whether the cached store of an access lies in one line, so that a release of section or township scope may pass it (R61). -/
def Acc.passable (a : Acc) : Bool :=
  a.isStore && a.st == .line &&
  (match a.parts.filter (fun p => p.got.isNone) with
   | [] => false
   | p :: r => r.all (fun q => q.dpa / 128 == p.dpa / 128))

/-- The format of the CSB group that a destination asks for. -/
def LoadDst.csb? : LoadDst → Option ElemFmt
  | .convert _ 2 f _ => some f
  | .row f => f
  | _ => Option.none

def SpReq.isAtomic (r : SpReq) : Bool := match r.op with | .atomic .. => true | _ => false

end Sys2Proof

namespace Sys2Proof.Machine

/-! ### Fields -/

/-- Bytes of a load or store kind (Table 03-6). -/
def kindSize (k : Nat) : Nat := if k ≤ 1 then 1 else if k ≤ 3 then 2 else if k = 4 then 4 else if k = 5 then 8 else 2

/-- Where a load of a kind puts its value. -/
def kindDst (k d : Nat) : LoadDst := if k = 5 then .pair d else .scalar d (kindSize k) (k == 0 || k == 2) (k == 6)

/-- What a store of a kind stores. -/
def kindValue (th : Thread) (k d : Nat) : Nat :=
  if k = 5 then th.pr d else if k = 6 then f32ToF16 (th.sr d) else (th.sr d).toNat % 2 ^ (8 * kindSize k)

def storeKind (k : Nat) : Bool := k == 0 || k == 2 || k == 4 || k == 5 || k == 6

/-- The address of R84: the low 52 bits of pair(a) (R76) plus the scaled offset. -/
def globalAddr (th : Thread) (a : Nat) (imm : BitVec 14) (scale : Nat) : Nat := wrap 52 ((th.pr a : Int) + imm.toInt * scale)

/-- The local address of R85. -/
def localAddr (th : Thread) (a : Nat) (imm : BitVec 14) (scale : Nat) : Nat := wrap 17 ((th.sr a).toNat + imm.toInt * scale)

/-- The registers a destination names. -/
def dstUses : LoadDst → Uses
  | .scalar d .. => [.s d]
  | .pair d => usesPair d
  | .vector d _ => [.v d]
  | .convert d conv _ sc => if conv = 2 then [.v d, .s sc] else [.v d]
  | .row _ => []
  | .none => []

/-- The registers of a destination whose write is pending once an access has issued: s0 discards. -/
def dstPend (d : LoadDst) : Uses := (dstUses d).filter (fun r => r != .s 0)

/-- The current values of a destination, written back as they are: a speculative thread logs them (R164). -/
def dstKeep (th : Thread) : LoadDst → Eff
  | .scalar d .. => Eff.sc d (th.sr d)
  | .pair d => Eff.pr d (th.pr d)
  | .vector d _ => Eff.vec d (th.vr d)
  | .convert d conv _ sc => { Eff.vec d (th.vr d) with s := if conv = 2 then [(sc, th.sr sc)] else [] }
  | .row _ => Eff.none
  | .none => Eff.none

/-- What a loaded value of n bytes writes into a destination. -/
def dstWrite : LoadDst → Nat → Eff
  | .scalar d n signed f16, v =>
    Eff.sc d (if f16 then f16ToF32 v else if signed then BitVec.ofInt 32 (sextNat (8 * n) v) else BitVec.ofNat 32 v)
  | .pair d, v => Eff.pr d v
  | .vector d f, v => Eff.vec d (VReg.write f (BitVec.ofNat 512 v))
  | .convert d conv f sc, v =>
    if conv = 0 then Eff.vec d (VReg.write .fp32 (fp16Unpack v))
    else if conv = 1 then Eff.vec d (VReg.write f (fp6Unpack f v))
    else
      let rd (o n : Nat) : Nat := (v >>> (8 * o)) % 2 ^ (8 * n)
      let (es, scales, _) := csbExpand f rd (csbBlocks f) 0
      { Eff.vec d (VReg.write f (packElems f es)) with
        s := [(sc, BitVec.ofNat 32 ((scales.zipIdx).foldl (fun x (e : Nat × Nat) => x + e.1 <<< (8 * e.2)) 0))] }
  | .row _, _ => Eff.none
  | .none, _ => Eff.none

/-! ### Outstanding accesses of a thread -/

/-- Whether an access belongs to the thread that runs under its number now: a saved launch's accesses keep their numbers. -/
def State.owns (s : State) (t : Nat) (a : Acc) : Bool :=
  a.thread == t && (match s.threads.get? t with | some th => th.launch == a.launch | none => true)

/-- Accesses of a thread that are not yet answered. -/
def State.openAccs (s : State) (t : Nat) : List (Nat × Acc) := s.accs.filter (fun e => s.owns t e.2 && e.2.st != .done)

/-- The limits of R99. -/
def State.loadRoom (s : State) (t : Nat) : Bool :=
  decide ((s.accs.filter (fun e => s.owns t e.2 && e.2.isLoad)).length < 4) &&
  decide ((s.accs.filter (fun e => coreOf e.2.thread == coreOf t && e.2.isLoad &&
    (match s.threads.get? e.2.thread with | some th => th.launch == e.2.launch | none => false))).length < 16)
def State.storeRoom (s : State) (t : Nat) : Bool :=
  decide ((s.accs.filter (fun e => s.owns t e.2 && e.2.isStore)).length < 8)

/-- Whether every earlier access of the thread is performed, as a release of parcel or system scope or a fence needs, and every store of
its township that a narrower release has passed (R60, R62, R255).
(DEDUCED: log entry 22.) -/
def State.quiet (s : State) (t : Nat) : Bool :=
  (s.openAccs t).isEmpty && !s.padBusy t && !s.accs.any (fun e => e.2.rel && e.2.ship == shipOf t)

/-- Whether a release of section or township scope can take effect with stores of the thread still waiting for their lines in the
township's cache: no thread of the township reads those bytes before them, and other townships may read the old values (R61).
(DEDUCED: log entry 22.) -/
def State.quietNear (s : State) (t : Nat) : Bool := (s.openAccs t).all (fun e => e.2.passable) && !s.padBusy t

/-- The stores that a release of narrow scope passes, marked.
(DEDUCED: log entry 22.) -/
def State.passStores (s : State) (t : Nat) : State :=
  { s with accs := s.accs.mapV (fun _ a => if s.owns t a && a.st != .done && a.passable then { a with rel := true } else a) }

/-- Whether a release of thread t at a scope and an acquire of thread u include each other's thread (R61). -/
def synchronise (t scope u : Nat) (x : Stale) : Bool :=
  u == t || sectOf u == sectOf t || (shipOf u == shipOf t && decide (1 ≤ scope) && decide (1 ≤ x.scope))

/-- A release of a thread made: the acquires that may read what it writes, and so synchronise with it, read nothing older (R60).
(DEDUCED: log entry 22.) -/
def State.synced (s : State) (t scope : Nat) : State := { s with stale := s.stale.keep (fun u x => !synchronise t scope u x) }

/-- Whether a release at a scope (Table 02-8) takes effect now. One of narrow scope is free to wait.
(DEDUCED: log entry 22.) -/
def State.release (s : State) (t scope : Nat) : Bool × State :=
  if s.quiet t then (true, s.synced t scope)
  else if decide (scope ≤ 1) && s.quietNear t then
    let (go, s1) := s.flip
    (go, if go then (s1.passStores t).synced t scope else s1)
  else (false, s)

/-- An acquire of a thread issued, at a scope and on a line, in a state `s0`: one of narrow scope, issued with nothing of the thread open, orders nothing by
itself; only a release that includes both threads makes it do so (R60, R61).
(DEDUCED: log entry 22.) -/
def State.acquireAt (s : State) (s0 : State) (t launch scope line : Nat) : State :=
  if decide (scope ≤ 1) && s0.quiet t then { s with stale := s.stale.set t ⟨launch, scope, s0.code.length, line⟩ } else s

/-- The count of replaced lines since which the thread's next access may read old values, where it is a load of device memory that may (R61).
(DEDUCED: log entry 22.) -/
def State.mayBeOld (s : State) (t : Nat) (th : Thread) (op : AccOp) (ps : List Part) : Option Nat :=
  match op, s.stale.get? t with
  | .load _, some x =>
    if x.launch == th.launch && th.spec.isNone && ps.all (fun p => (p.via == .line || p.via == .stream || p.via == .uncached) && p.dpa / 128 != x.line)
    then some x.since else none
  | _, _ => none

/-- An acquire of the thread that has not been answered holds later accesses back, whatever its scope (R60, R61).
(DEDUCED: log entry 22.) -/
def State.acquiring (s : State) (t : Nat) : Bool := s.accs.any (fun e => s.owns t e.2 && e.2.acq && e.2.st != .done)

/-- Whether parts overlap an unanswered access of the same thread, or a store of its township that a release has passed, that will not go
ahead of them: two accesses that go through one cached line are ordered there once the earlier one waits on that line (R56, R61).
(DESIGN CHOICE: log entry 25.) -/
def State.clash (s : State) (t : Nat) (ps : List Part) : Bool :=
  s.accs.any (fun e => e.2.st != .done && (s.owns t e.2 || (e.2.rel && e.2.ship == shipOf t)) &&
    e.2.parts.any (fun q => q.got.isNone && ps.any (fun p =>
      decide (p.dpa < q.dpa + q.len) && decide (q.dpa < p.dpa + p.len) && (p.via == .host) == (q.via == .host) &&
      !((p.via == .line || p.via == .stream) && (q.via == .line || q.via == .stream) && e.2.st == .line && e.2.part? == some q))))

/-- A speculative thread's wait for its closure (Table 05-5). -/
def State.holdClosure (s : State) (t : Nat) : State := s.modThread t (fun th => { th with wait := .closure })

/-- The stores that a speculative thread's log holds, newest first. -/
def loggedStores (th : Thread) (loc : Bool) : List (Nat × Nat × Nat) :=
  match th.spec with
  | some sp => sp.log.filterMap (fun i => match i with | .store l a n v => if l = loc then some (a, n, v) else none | _ => none)
  | none => []

/-- A store put into a speculative thread's log, or the wait where its slot is full (Tables 05-5, 05-7). -/
def State.logStore (s : State) (t : Nat) (loc : Bool) (addr len v : Nat) : State :=
  match s.threads.get? t with
  | none => s
  | some th =>
    match th.spec with
    | none => s
    | some sp =>
      let log := SpecItem.store loc addr len v :: sp.log
      if logCost log ≤ 64 then s.setThread t { th with spec := some { sp with log := log } } else s.holdClosure t

/-! ### Global accesses -/

/-- The priority of the launch of a thread, and whether it tolerates poison. -/
def State.launchPrio (s : State) (l : Nat) : Nat := match s.launches.get? l with | some x => x.prio | none => 0
def State.launchTol (s : State) (l : Nat) : Bool := match s.launches.get? l with | some x => x.tol | none => false

/-- A new access entered, its destination pending, and begun; it ends what an acquire of narrow scope allowed.
(DEDUCED: log entry 22.) -/
def State.enterAcc (s : State) (t : Nat) (th : Thread) (pva : Nat) (op : AccOp) (dst : LoadDst) (acq : Bool) (ctr : Nat)
    (ps : List Part) : State :=
  let id := s.newAcc
  let a : Acc :=
    { thread := t, launch := th.launch, ctx := th.ctx, ship := shipOf t, tag := (s.parcelOfShip (shipOf t)).getD 16,
      prio := s.launchPrio th.launch, pva := pva, base := pva, op := op, ctr := ctr, acq := acq, spec := th.spec.isSome,
      tol := s.launchTol th.launch, seen := loggedStores th false, parts := ps, st := .done, old := s.mayBeOld t th op ps }
  let s1 := { s with accs := s.accs.set id a, stale := s.stale.erase t }
  let s2 := s1.modThread t (fun x => { x with pend := x.pend ++ dstPend dst })
  (s2.startPart id 8).serveShip (shipOf t)

/-- A store of len bytes made by a thread that is not speculative, or logged by one that is; `full` says that its translation
succeeded with these parts. -/
def State.makeStore (s : State) (t : Nat) (th : Thread) (size pva len v : Nat) (ps : List Part) (e : Eff) : State :=
  if th.spec.isSome then
    if ps.any (fun p => p.via == .window || p.via == .host) then s.holdClosure t
    else
      let s1 := s.writeRegs t e
      if s1.waits t then s1
      else
        let s2 := s1.logStore t false pva len v
        if s2.waits t then s.holdClosure t else s2.advance t size
  else (((s.writeRegs t e).enterAcc t th pva (.store v) .none false 0 ps)).advance t size

/-- A global load (R84, R86, R99): alignment first, then translation, then the access. -/
def State.globalLoad (s : State) (t : Nat) (th : Thread) (size pva len align : Nat) (dst : LoadDst) : State :=
  if pva % align ≠ 0 then s.threadFault t 0x08 0 pva 0
  else if !s.loadRoom t || s.acquiring t then s
  else match s.ctxs.get? (th.ctx % 4096) with
    | none => s
    | some c =>
      if s.walkHeld (th.ctx % 4096) c t pva len then s
      else match s.placeBytes (th.ctx % 4096) c t 0 4 pva len with
      | (.error f, s1) => s1.threadFault t f.code 0 pva f.ppa
      | (.ok ps, s1) =>
        if th.spec.isSome && ps.any (fun p => p.via == .window || p.via == .host) then s1.holdClosure t
        else if s1.clash t ps then s
        else
          let s2 := s1.writeRegs t (dstKeep th dst)
          if s2.waits t then s2
          else match s2.threads.get? t with
            | none => s2
            | some th2 => (s2.advance t size).enterAcc t th2 pva (.load dst) dst false 0 ps

/-- A global store; `e` is what the instruction writes in registers beside it (the count of a compressing store). -/
def State.globalStore (s : State) (t : Nat) (th : Thread) (size pva len align v : Nat) (e : Eff) : State :=
  if pva % align ≠ 0 then s.threadFault t 0x08 1 pva 0
  else if !s.storeRoom t || s.acquiring t then s
  else match s.ctxs.get? (th.ctx % 4096) with
    | none => s
    | some c =>
      if s.walkHeld (th.ctx % 4096) c t pva len then s
      else match s.placeBytes (th.ctx % 4096) c t 1 4 pva len with
      | (.error f, s1) => s1.threadFault t f.code 1 pva f.ppa
      | (.ok ps, s1) => if s1.clash t ps then s else s1.makeStore t th size pva len v ps e

/-! ### Scratchpad accesses -/

/-- A scratchpad access entered as a request of its section, with the rank of R214: 2 where the dispatch unit makes it, else the thread's. -/
def State.enterPad (s : State) (t : Nat) (th : Thread) (rank loc len : Nat) (op : AccOp) (dst : LoadDst) (acq : Bool) : State :=
  let id := s.newAcc
  let (k, s0) := s.stamp
  let a : Acc :=
    { thread := t, launch := th.launch, ctx := th.ctx, ship := shipOf t, tag := 16, prio := 0, pva := th.pc.toNat, base := loc,
      op := op, ctr := 0, acq := acq, spec := th.spec.isSome, tol := false, seen := loggedStores th true,
      parts := [⟨loc, 0, 0, .pad, some 0⟩], st := .host }
  let stores := (match op with | .store _ => true | _ => false)
  let s1 := if stores then s0 else { s0 with accs := s0.accs.set id a }
  let s2 := s1.modThread t (fun x => { x with pend := x.pend ++ dstPend dst })
  s2.modSect (sectOf t) (fun x => { x with reqs := x.reqs ++
    [{ rank := rank, thread := t, acc := id, base := loc, len := len, off := 0, op := op, stalls := 0, raised := false, seq := k,
       hold := false, launch := th.launch }] })

/-- The bytes that an instruction of thread t reads from the scratchpad before it can complete (dspt, dret, vmacc): read row by row as a
request of a rank (R212, R214), while the thread waits at the instruction; the value once they are there. -/
def State.padFetch (s : State) (t : Nat) (th : Thread) (rank loc len : Nat) (csb : Option ElemFmt) : Option Nat × State :=
  match s.accs.find? (fun e => s.owns t e.2 && e.2.isFetch) with
  | some (id, a) => if a.st = .done then (some a.value, { s with accs := s.accs.erase id }) else (none, s)
  | none =>
    if s.padBusy t || s.acquiring t then (none, s)
    else (none, s.enterPad t th rank loc len (.load (.row csb)) .none false)

/-- The rows that a run of local addresses touches, with the bytes of each. -/
def padRows : Nat → Nat → Nat → List (Nat × Nat)
  | 0, _, _ => []
  | k + 1, loc, n => if n = 0 then [] else let m := min n (64 - loc % 64); (loc, m) :: padRows k (loc + m) (n - m)

/-- Bytes that an engine writes into a section's scratchpad, as one request for each row (R206, R216, R218); `alone` where they must
follow everything the engine has asked for before. -/
def State.padEngine (s : State) (sec rank launch loc n v : Nat) (alone : Bool) : State :=
  (padRows (n / 64 + 2) loc n).foldl (fun s r =>
    let (k, s1) := s.stamp
    s1.modSect sec (fun x => { x with reqs := x.reqs ++
      [{ rank := rank, thread := 0, acc := b2n alone, base := r.1, len := r.2, off := 0, op := .store (v >>> (8 * (r.1 - loc)) % 2 ^ (8 * r.2)),
         stalls := 0, raised := false, seq := k, hold := false, launch := launch }] })) s

/-- A scratchpad load (R85, R86, R216). -/
def State.padLoad (s : State) (t : Nat) (th : Thread) (size loc len align : Nat) (dst : LoadDst) : State :=
  if loc % align ≠ 0 then s.alignLocal t 0
  else if s.padBusy t || s.acquiring t then s
  else
    let s1 := s.writeRegs t (dstKeep th dst)
    if s1.waits t then s1
    else match s1.threads.get? t with
      | none => s1
      | some th1 => (s1.enterPad t th1 (3 + t % 4) loc len (.load dst) dst false).advance t size

/-- A scratchpad store: a speculative thread logs it (Table 05-5). -/
def State.padStore (s : State) (t : Nat) (th : Thread) (size loc len align v : Nat) (e : Eff) : State :=
  if loc % align ≠ 0 then s.alignLocal t 1
  else if s.padBusy t || s.acquiring t then s
  else
    let s1 := s.writeRegs t e
    if s1.waits t then s1
    else if th.spec.isSome then
      let s2 := s1.logStore t true loc len v
      if s2.waits t then s.holdClosure t else s2.advance t size
    else (s1.enterPad t th (3 + t % 4) loc len (.store v) .none false).advance t size

/-! ### ld, st, ldl, stl, vld, vst, vldl, vstl -/

/-- ld: a scalar or pair of memory, or FP16 converted to FP32. -/
def execLd (t : Nat) (f : FmtM) (s : State) : Host.Outcome State Fault Refusal :=
  let k := f.kind.toNat
  .next (issue t (firstCode [(decide (7 ≤ k), 0x10), (badP f.a || (k == 5 && badP f.d), 0x11)])
    (usesPair f.a.toNat ++ dstUses (kindDst k f.d.toNat))
    (fun th s => s.globalLoad t th 4 (globalAddr th f.a.toNat f.imm 1) (kindSize k) (kindSize k) (kindDst k f.d.toNat)) s)

/-- st: the low bytes of d, a pair, or d as FP16. -/
def execSt (t : Nat) (f : FmtM) (s : State) : Host.Outcome State Fault Refusal :=
  let k := f.kind.toNat
  .next (issue t (firstCode [(!storeKind k, 0x10), (badP f.a || (k == 5 && badP f.d), 0x11)])
    (usesPair f.a.toNat ++ (if k = 5 then usesPair f.d.toNat else [.s f.d.toNat]))
    (fun th s => s.globalStore t th 4 (globalAddr th f.a.toNat f.imm 1) (kindSize k) (kindSize k) (kindValue th k f.d.toNat) Eff.none) s)

/-- ldl: as ld at a local address.
(DESIGN CHOICE: log entry 118.) -/
def execLdl (t : Nat) (f : FmtM) (s : State) : Host.Outcome State Fault Refusal :=
  let k := f.kind.toNat
  let loc := s.onThread t 0 (fun th => localAddr th f.a.toNat f.imm 1)
  .next (issue t (firstCode [(decide (7 ≤ k), 0x10), (k == 5 && badP f.d, 0x11), (badLocal loc (kindSize k), 0x14)])
    (.s f.a.toNat :: dstUses (kindDst k f.d.toNat))
    (fun th s => s.padLoad t th 4 loc (kindSize k) (kindSize k) (kindDst k f.d.toNat)) s)

/-- stl: as st at a local address.
(DESIGN CHOICE: log entry 118.) -/
def execStl (t : Nat) (f : FmtM) (s : State) : Host.Outcome State Fault Refusal :=
  let k := f.kind.toNat
  let loc := s.onThread t 0 (fun th => localAddr th f.a.toNat f.imm 1)
  .next (issue t (firstCode [(!storeKind k, 0x10), (k == 5 && badP f.d, 0x11), (badLocal loc (kindSize k), 0x14)])
    (.s f.a.toNat :: (if k = 5 then usesPair f.d.toNat else [.s f.d.toNat]))
    (fun th s => s.padStore t th 4 loc (kindSize k) (kindSize k) (kindValue th k f.d.toNat) Eff.none) s)

/-- vld: 64 bytes of memory, tagged with the kind's format. -/
def execVld (t : Nat) (f : FmtM) (s : State) : Host.Outcome State Fault Refusal :=
  .next (issue t (firstCode [(badV f.d || badP f.a, 0x11), ((ElemFmt.ofCode? f.kind.toNat).isNone, 0x13)])
    (.v f.d.toNat :: usesPair f.a.toNat)
    (fun th s => s.globalLoad t th 4 (globalAddr th f.a.toNat f.imm 64) 64 64
      (.vector f.d.toNat ((ElemFmt.ofCode? f.kind.toNat).getD .none))) s)

/-- vst: the 64 bytes of a vector register. -/
def execVst (t : Nat) (f : FmtM) (s : State) : Host.Outcome State Fault Refusal :=
  .next (issue t (firstCode [(nz f.kind, 0x10), (badV f.d || badP f.a, 0x11)])
    (.v f.d.toNat :: usesPair f.a.toNat)
    (fun th s => s.globalStore t th 4 (globalAddr th f.a.toNat f.imm 64) 64 64 (th.vr f.d.toNat).data.toNat Eff.none) s)

/-- vldl: as vld at a local address.
(DESIGN CHOICE: log entry 118.) -/
def execVldl (t : Nat) (f : FmtM) (s : State) : Host.Outcome State Fault Refusal :=
  let loc := s.onThread t 0 (fun th => localAddr th f.a.toNat f.imm 64)
  .next (issue t (firstCode [(badV f.d, 0x11), ((ElemFmt.ofCode? f.kind.toNat).isNone, 0x13), (badLocal loc 64, 0x14)])
    [.v f.d.toNat, .s f.a.toNat]
    (fun th s => s.padLoad t th 4 loc 64 64 (.vector f.d.toNat ((ElemFmt.ofCode? f.kind.toNat).getD .none))) s)

/-- vstl: as vst at a local address.
(DESIGN CHOICE: log entry 118.) -/
def execVstl (t : Nat) (f : FmtM) (s : State) : Host.Outcome State Fault Refusal :=
  let loc := s.onThread t 0 (fun th => localAddr th f.a.toNat f.imm 64)
  .next (issue t (firstCode [(nz f.kind, 0x10), (badV f.d, 0x11), (badLocal loc 64, 0x14)])
    [.v f.d.toNat, .s f.a.toNat]
    (fun th s => s.padStore t th 4 loc 64 64 (th.vr f.d.toNat).data.toNat Eff.none) s)

/-! ### vldx and vstx -/

/-- The extension fields of vldx and vstx. -/
def xConv (f : FmtE) : Nat := fld f.ext.toNat 1 0
def xPad (f : FmtE) : Bool := f.ext.toNat.testBit 2
def xFmt? (f : FmtE) : Option ElemFmt := ElemFmt.ofCode? (fld f.ext.toNat 7 4)
def xFmt (f : FmtE) : ElemFmt := (xFmt? f).getD .none
def xScale (f : FmtE) : Nat := fld f.ext.toNat 15 12
def xCount (f : FmtE) : Nat := fld f.ext.toNat 19 16

/-- A format that a conversion does not permit.
(DEDUCED: log entry 19.) -/
def xBadFmt (f : FmtE) : Bool :=
  (xFmt? f).isNone || (xConv f == 1 && !(xFmt f).isFp6) || (xConv f == 2 && !(xFmt f).hasCsb)

/-- Alignment of a conversion (R86, R136). -/
def xAlign (f : FmtE) : Nat := if xConv f = 0 then 32 else if xConv f = 1 then 16 else 8

/-- Bytes that a converting load asks for first: its whole run, or the first block head of a group. -/
def xFirst (f : FmtE) : Nat := if xConv f = 0 then 32 else if xConv f = 1 then 48 else 8

/-- vldx: FP16, packed FP6 or a CSB group, from memory or the scratchpad.
(DESIGN CHOICE: log entry 118.) -/
def execVldx (t : Nat) (f : FmtE) (s : State) : Host.Outcome State Fault Refusal :=
  let dst : LoadDst := .convert f.d.toNat (xConv f) (xFmt f) (xScale f)
  let loc := s.onThread t 0 (fun th => localAddr th f.a.toNat f.imm 1)
  let n := if xConv f = 2 then (if loc % 8 = 0 then csbGroupLen (xFmt f) (s.spRead t) loc else 1) else xFirst f
  .next (issue t
    (firstCode [(xConv f == 3, 0x10), (badV f.d || (!xPad f && badP f.a), 0x11),
      (nz f.b || f.ext.toNat.testBit 3 || fld f.ext.toNat 11 8 != 0 || fld f.ext.toNat 31 16 != 0, 0x12),
      (xBadFmt f, 0x13), (xPad f && badLocal loc n, 0x14)])
    ((if xPad f then [.s f.a.toNat] else usesPair f.a.toNat) ++ dstUses dst)
    (fun th s =>
      if xPad f then s.padLoad t th 8 loc (xFirst f) (xAlign f) dst
      else s.globalLoad t th 8 (globalAddr th f.a.toNat f.imm 1) (xFirst f) (xAlign f) dst) s)

/-- The bytes a converting store writes. -/
def xBytes (th : Thread) (f : FmtE) : List Byte :=
  if xConv f = 0 then bytesOf 32 (fp16Pack (th.vr f.d.toNat).data)
  else if xConv f = 1 then bytesOf 48 (fp6Pack (xFmt f) (th.vr f.d.toNat).data)
  else csbCompress (xFmt f) (th.vr f.d.toNat) (th.sr (xScale f))

/-- vstx: v(d) as FP16, packed FP6 or CSB blocks; the count register of a CSB store takes the bytes written.
(DESIGN CHOICE: log entry 118.) -/
def execVstx (t : Nat) (f : FmtE) (s : State) : Host.Outcome State Fault Refusal :=
  let loc := s.onThread t 0 (fun th => localAddr th f.a.toNat f.imm 1)
  let n := s.onThread t 0 (fun th => (xBytes th f).length)
  .next (issue t
    (firstCode [(xConv f == 3, 0x10), (badV f.d || (!xPad f && badP f.a), 0x11),
      (nz f.b || f.ext.toNat.testBit 3 || fld f.ext.toNat 11 8 != 0 || fld f.ext.toNat 31 20 != 0, 0x12),
      (xBadFmt f, 0x13), (xPad f && badLocal loc (if loc % xAlign f = 0 then n else 1), 0x14)])
    ((if xPad f then [.s f.a.toNat] else usesPair f.a.toNat) ++
      (if xConv f = 2 then [.v f.d.toNat, .s (xScale f), .s (xCount f)] else [.v f.d.toNat]))
    (fun th s =>
      let v := ofBytes (xBytes th f)
      let e := if xConv f = 2 then Eff.sc (xCount f) (BitVec.ofNat 32 n) else Eff.none
      if xPad f then s.padStore t th 8 loc n (xAlign f) v e
      else s.globalStore t th 8 (globalAddr th f.a.toNat f.imm 1) n (xAlign f) v e) s)

/-! ### Atomics (Table 03-7) -/

def atOp (f : FmtE) : Nat := fld f.ext.toNat 3 0
def atWide (f : FmtE) : Bool := f.ext.toNat.testBit 4
def atOrder (f : FmtE) : Nat := fld f.ext.toNat 6 5
def atScope (f : FmtE) : Nat := fld f.ext.toNat 8 7
def atCmp (f : FmtE) : Nat := fld f.ext.toNat 12 9
def atSize (f : FmtE) : Nat := if atWide f then 8 else 4

/-- A register or pair of an atomic. -/
def atReg (th : Thread) (f : FmtE) (i : Nat) : Nat := if atWide f then th.pr i else (th.sr i).toNat
def atUses (f : FmtE) (i : Nat) : Uses := if atWide f then usesPair i else [.s i]
def atDst (f : FmtE) : LoadDst := if atWide f then .pair f.d.toNat else .scalar f.d.toNat 4 false false

/-- The encoding checks that atom and atoml share.
(DEDUCED: log entry 19.) -/
def atCodes (f : FmtE) (badBase : Bool) : List (Bool × Nat) :=
  [(decide (11 ≤ atOp f), 0x10),
   (badBase || (atWide f && (badP f.d || badP f.b || (atOp f == 9 && atCmp f % 2 == 1))), 0x11),
   (fld f.ext.toNat 31 13 != 0 || (atOp f != 9 && atCmp f != 0), 0x12),
   (atOp f == 10 && atWide f, 0x13)]

/-- Whether the order of an atomic includes a release, and an acquire. -/
def atRelease (f : FmtE) : Bool := f.ext.toNat.testBit 6
def atAcquire (f : FmtE) : Bool := f.ext.toNat.testBit 5

/-- Whether the site of a window advertises atomics of a size (R63, R355): WIN_ATOM in BLK_CAPS. -/
def State.windowAtomic (s : State) (site size : Nat) : Bool :=
  let w := fld ((s.site site).sb.getD 8 0).toNat 16 15
  if size = 8 then decide (2 ≤ w) else decide (1 ≤ w)

/-- Whether an atomic on a coherent line executes near: MODE, or the contention predictor (R252).
(DESIGN CHOICE: log entry 36.) -/
def State.goesNear (s : State) (ship dpa : Nat) : Bool :=
  match s.fieldOf (Reg.cohAtomCtrl ship) 1 0 with
  | 1 => true
  | 2 => false
  | _ => decide (2 ≤ (s.ship ship).contend.getD (contendIdx dpa) 0)

/-- Whether a township's cache owns a line: in E or M. -/
def State.ownsLine (s : State) (ship line : Nat) : Bool :=
  match (s.ship ship).way? line with
  | some (_, w) => w.st == .E || w.st == .M
  | none => false

/-- The global part of an atomic: alignment, translation, the limits of R63 and R355, and near or far (R252, R254). -/
def State.globalAtomic (s : State) (t : Nat) (th : Thread) (f : FmtE) : State :=
  let pva := globalAddr th f.a.toNat f.imm (atSize f)
  if pva % atSize f ≠ 0 then s.threadFault t 0x08 2 pva 0
  else if inHost pva then s.threadFault t 0x07 2 pva 0
  else if s.acquiring t then s
  else match (if atRelease f then s.release t (atScope f) else (true, s)), s.ctxs.get? (th.ctx % 4096) with
    | (false, s), _ => s
    | _, none => s
    | (true, s), some c =>
      if s.walkHeld (th.ctx % 4096) c t pva (atSize f) then s
      else match s.placeBytes (th.ctx % 4096) c t 2 1 pva (atSize f) with
      | (.error x, s1) => s1.threadFault t x.code 2 pva x.ppa
      | (.ok ps, s1) =>
        match ps with
        | [] => s
        | p :: _ =>
          if p.via = .window && !s.windowAtomic ((windowSite? p.dpa).getD 0) (atSize f) then s1.threadFault t 0x07 2 pva p.ppa
          else
            let cached := p.via == .line || p.via == .stream
            let ctr := if cached then contendIdx p.dpa else 64
            let near := cached && s.goesNear (shipOf t) p.dpa
            let s2 := if cached && !near && s.ownsLine (shipOf t) (p.dpa / 128) then s1.contendAdd (shipOf t) ctr false else s1
            let q : Part := { p with via := if near then .uncached else p.via }
            if s1.clash t [q] then s
            else
              let s3 := (s2.advance t 8).enterAcc t th pva
                (.atomic (atOp f) (atSize f) (atReg th f f.b.toNat) (atReg th f (atCmp f)) (atDst f)) (atDst f) (atAcquire f) ctr [q]
              if atAcquire f then s3.acquireAt s2 t th.launch (atScope f) (p.dpa / 128) else s3

/-- atom: a global atomic; a speculative thread waits for its closure. -/
def execAtom (t : Nat) (f : FmtE) (s : State) : Host.Outcome State Fault Refusal :=
  .next (issue t (firstCode (atCodes f (badP f.a)))
    (usesPair f.a.toNat ++ atUses f f.d.toNat ++ atUses f f.b.toNat ++ (if atOp f = 9 then atUses f (atCmp f) else []))
    (fun th s => if th.spec.isSome then s.holdClosure t else s.globalAtomic t th f) s)

/-- atoml: an atomic on the thread's own scratchpad at section scope (R66, R217).
(DESIGN CHOICE: log entry 118.) -/
def execAtoml (t : Nat) (f : FmtE) (s : State) : Host.Outcome State Fault Refusal :=
  let loc := s.onThread t 0 (fun th => localAddr th f.a.toNat f.imm (atSize f))
  .next (issue t (firstCode (atCodes f false ++ [(badLocal loc (atSize f), 0x14)]))
    (.s f.a.toNat :: (atUses f f.d.toNat ++ atUses f f.b.toNat ++ (if atOp f = 9 then atUses f (atCmp f) else [])))
    (fun th s =>
      if th.spec.isSome then s.holdClosure t
      else if loc % atSize f ≠ 0 then s.alignLocal t 2
      else if s.padBusy t || s.acquiring t then s
      else match (if atRelease f then s.release t 0 else (true, s)) with
        | (false, s) => s
        | (true, s) => (s.enterPad t th (3 + t % 4) loc (atSize f)
          (.atomic (atOp f) (atSize f) (atReg th f f.b.toNat) (atReg th f (atCmp f)) (atDst f)) (atDst f) (atAcquire f)).advance t 8) s)

/-! ### Data that returns -/

/-- Whether a launch is saved, so that its threads are not resident (R441). -/
def State.saved (s : State) (l : Nat) : Bool :=
  match s.launches.get? l with
  | some x => x.st == .saved || x.st == .restoring
  | none => false

/-- An answered access written to its register and gone. One made before its thread became speculative is no write of the speculation, and is
not logged (R164); bytes that an instruction waits for stay until it takes them. -/
def State.returnAcc (s : State) (id : Nat) : State :=
  match s.accs.get? id with
  | none => s
  | some a =>
    if a.st = .done && s.owns a.thread a && !s.saved a.launch && !a.isFetch then
      let s1 := if a.spec then s.writeRegs a.thread (dstWrite a.dst a.value) else s.modThread a.thread (fun th => th.apply (dstWrite a.dst a.value))
      { (s1.modThread a.thread (fun th => { th with pend := th.pend.filter (fun r => !(dstPend a.dst).contains r) })) with
        accs := s.accs.erase id }
    else s

/-- LOAD_DATA_RETURN: the data of an outstanding load reaches its register (R96). Data of a host-window load comes with the
command; other data has come by the messages of chapter 08 or from the scratchpad. -/
def execLoadDataReturn (acc : Nat) (data : Option Nat) (s : State) : Host.Outcome State Fault Refusal :=
  .next (match s.accs.get? acc with
    | none => s.hostEnd acc
    | some a =>
      match a.st, a.part?, data with
      | .host, some _, some v => (((((s.hostEnd acc).partDone acc v false)).serveShip a.ship).returnAcc acc)
      | _, _, _ => s.returnAcc acc)

/-! ### Scratchpad banks -/

/-- The bank of a row (R211): 0 to 15, or 16 for the dual-port region (R218). -/
def bankOf (row : Nat) : Nat := if row < 1024 then row % 16 else 16

/-- The place of a core in the rotation after the last winner (R214).
(DESIGN CHOICE: log entry 119.) -/
def rotation (won : Tbl Nat) (bank : Nat) (r : SpReq) : Nat :=
  let core := r.thread / 4 % 64
  match won.get? (bank * 4 + r.thread % 4) with
  | some last => (core + 63 - last) % 64
  | none => core

/-- Whether request x goes ahead of y (R214, R215): among raised requests the one that has stalled longest, then the order of R214. -/
def spBefore (won : Tbl Nat) (bank : Nat) (x y : SpReq) : Bool :=
  if x.raised != y.raised then x.raised
  else if x.raised && x.stalls != y.stalls then decide (y.stalls < x.stalls)
  else if x.rank != y.rank then decide (x.rank < y.rank)
  else decide (rotation won bank x < rotation won bank y)

/-- Requests in descending priority. -/
def spInsert (won : Tbl Nat) (bank : Nat) (x : SpReq) : List SpReq → List SpReq
  | [] => [x]
  | y :: r => if spBefore won bank x y then x :: y :: r else y :: spInsert won bank x r
def spSort (won : Tbl Nat) (bank : Nat) : List SpReq → List SpReq
  | [] => []
  | x :: r => spInsert won bank x (spSort won bank r)

/-- The requests that a section's requesters present (R216): each thread its one access, the dispatch unit its oldest, the gather engine its
oldest and the next one that goes to another bank, unless one of the two must go alone. The copy engine has none: COPY and FILL work on
PVAs (R415), and section scratchpads are not in that address space (chapter 02).
(DEDUCED: log entry 23.) -/
def SectionSt.presented (x : SectionSt) : List SpReq :=
  let gather := x.reqs.filter (fun r => r.rank == 1)
  let two : List SpReq := match gather with
    | [] => []
    | g :: rest =>
      if g.acc = 1 then [g]
      else g :: ((rest.takeWhile (fun r => r.acc != 1)).find? (fun r => bankOf r.row != bankOf g.row)).toList
  two ++ (x.reqs.filter (fun r => r.rank == 2)).take 1 ++ x.reqs.filter (fun r => decide (3 ≤ r.rank))

/-- Whether a local address lies in the inbox area of a launch's sections (R150).
(DEDUCED: log entry 23.) -/
def State.inInbox (s : State) (launch loc : Nat) : Bool :=
  match (s.launches.get? launch).bind (fun l => l.disp) with
  | some d => decide (0x12000 - d.inboxKib * 1024 ≤ loc) && decide (loc < 0x12000)
  | none => false

/-- Bytes of a request's store written into its section's scratchpad. A thread's store to the inbox area has no effect and is counted once,
at the first row it has there. -/
def State.padPut (s : State) (sec : Nat) (r : SpReq) (v : Nat) : State :=
  if 3 ≤ r.rank ∧ s.inInbox r.launch r.loc then
    if r.off = 0 ∨ !s.inInbox r.launch (r.loc - 1) then s.transit (Reg.dspCnt (shipOf r.thread) 9) 1 else s
  else { s with spm := s.spm.writeN (spKey sec r.loc) r.cur v }

/-- Bytes read for a request: added to its access. -/
def State.padGot (s : State) (sec : Nat) (r : SpReq) : State :=
  { s with accs := s.accs.modify r.acc (fun a =>
      { a with parts := a.parts ++ [⟨r.loc, 0, r.cur, .pad, some (s.spm.readN (spKey sec r.loc) r.cur)⟩] }) }

/-- A request past its current row: the next row, the rest of a CSB group (R137), or its end. -/
def State.padNext (s : State) (sec : Nat) (r : SpReq) : State :=
  let r' := { r with off := r.off + r.cur, stalls := 0, raised := false, hold := false }
  let put (x : SpReq) : State := s.modSect sec (fun h => { h with reqs := h.reqs.map (fun q => if q.seq = r.seq then x else q) })
  let drop : State := s.modSect sec (fun h => { h with reqs := h.reqs.filter (fun q => q.seq != r.seq) })
  if r'.off < r.len then put r'
  else match r.op with
    | .store _ => drop
    | _ =>
      match s.accs.get? r.acc with
      | none => drop
      | some a =>
        match a.dst.csb? with
        | some f =>
          let more := csbMore f (partsLen a.parts) a.value
          if more = 0 then { drop with accs := drop.accs.set r.acc { a with st := .done } }
          else if badLocal ((r.base + r.len) % 2 ^ 17) more then ({ drop with accs := drop.accs.erase r.acc }).encFaultAt r.thread 0x14 a.pva
          else put { r' with len := r.len + more }
        | none => { drop with accs := drop.accs.set r.acc { a with st := .done } }

/-- The atomics that begin on a row in a step: the first, and those whose words are apart from it and from one another.
(DEDUCED: log entry 23.) -/
def spFirsts (l : List SpReq) : List Nat :=
  (l.foldl (fun (c : List SpReq) r =>
    if c.all (fun q => decide (q.loc + q.cur ≤ r.loc) || decide (r.loc + r.cur ≤ q.loc)) then c ++ [r] else c) []).map (fun r => r.seq)

/-- One row of a bank served in a step (R213, R217): stores and the second steps of atomics write, the higher priority
last; then reads, and the first steps of atomics, see the row. `won` and `ps` are the last winners and the requests presented as the step
began: each requester presents one row access to a bank in a step (R212, R216). -/
def State.serveRow (s : State) (sec bank : Nat) (won : Tbl Nat) (ps : List SpReq) (row : Nat) : State :=
  let all := spSort won bank (ps.filter (fun r => r.row == row))
  let first := spFirsts (all.filter (fun r => r.isAtomic && !r.hold))
  let ms := all.filter (fun r => !r.isAtomic || r.hold || first.contains r.seq)
  let s1 := ms.reverse.foldl (fun s r => match r.op with
    | .store v => s.padPut sec r (v >>> (8 * r.off))
    | .atomic op n b c _ =>
      if r.hold then s.padPut sec r (atomResult op n (match s.accs.get? r.acc with | some a => a.value | none => 0) b c) else s
    | _ => s) s
  let s2 := ms.foldl (fun s r => match r.op with
    | .load _ => s.padGot sec r
    | .atomic .. => if r.hold then s else s.padGot sec r
    | _ => s) s1
  let s3 := ms.foldl (fun s r => if r.isAtomic && !r.hold then
      s.modSect sec (fun h => { h with reqs := h.reqs.map (fun q => if q.seq = r.seq then { q with hold := true, stalls := 0 } else q) })
    else s.padNext sec r) s2
  match ms with
  | [] => s3
  | r :: _ => if 3 ≤ r.rank then
      s3.modSect sec (fun h => { h with won := h.won.set (bank * 4 + r.thread % 4) (r.thread / 4 % 64) }) else s3

/-- The rows a bank serves in a step: one, held by the second step of an atoml where there is one; two in the dual-port
region (R218).
(DESIGN CHOICE: log entry 120.) -/
def State.rowsServed (s : State) (sec bank : Nat) : List Nat :=
  let x := s.sect sec
  let rs := x.presented.filter (fun r => bankOf r.row == bank)
  let held := rs.filter (fun r => r.hold)
  let order := held ++ spSort x.won bank (rs.filter (fun r => !r.hold))
  ((order.map SpReq.row).eraseDups).take (if bank = 16 then 2 else 1)

/-- SCRATCHPAD_BANK_ARBITRATION: a bank serves its rows for one step, and the requests it does not serve stall (R214).
(DEDUCED: log entry 23.) -/
def execScratchpadBankArbitration (ship sec bank : Nat) (s : State) : Host.Outcome State Fault Refusal :=
  let k := ship * 64 + sec
  let rows := s.rowsServed k bank
  let ps := (s.sect k).presented
  let waiting := (ps.filter (fun r => bankOf r.row == bank)).map (fun r => (r.seq, r.off, r.hold))
  let s1 := rows.foldl (fun s' row => s'.serveRow k bank (s.sect k).won ps row) s
  let lost := (s1.sect k).reqs.filter (fun r => waiting.contains (r.seq, r.off, r.hold))
  .next ((s1.modSect k (fun h => { h with reqs := h.reqs.map (fun r => if lost.contains r then { r with stalls := r.stalls + 1 } else r) })).transit
    (Reg.rasArrConflict ship) lost.length)

/-- RAISED_REQUEST: a request that has stalled in 16 consecutive steps becomes raised (R215). -/
def execRaisedRequest (ship sec seq : Nat) (s : State) : Host.Outcome State Fault Refusal :=
  .next (s.modSect (ship * 64 + sec) (fun h => { h with reqs := h.reqs.map (fun r =>
    if r.seq = seq ∧ 16 ≤ r.stalls then { r with raised := true } else r) }))

/-! ### vmacc -/

/-- vmacc: A comes from the CSB blocks at loc[sa] with their own scales; d := the local address that follows them. The
group must be 8-byte aligned (R136), and its rows are read as an access of the thread (R212, R216). Bits [51:48] of word 1, the place of sA,
are read by nothing here and may hold anything (R83 names them for vmac).
(DESIGN CHOICE: log entries 99, 118.) -/
def execVmacc (t : Nat) (f : FmtE) (s : State) : Host.Outcome State Fault Refusal :=
  let fa := (macFmtA f).getD .none
  let fb := (macFmtB f).getD .none
  let loc := s.onThread t 0 (fun th => (th.sr f.a.toNat).toNat % 2 ^ 17)
  .next (if !s.macFree t then s else
    issue t
      (firstCode [(macForm f == 3, 0x10), (badV f.b, 0x11),
        (nz f.imm || f.ext.toNat.testBit 15 || fld f.ext.toNat 31 24 != 0, 0x12),
        (macBadFmt f || macForm f == 1 || fa == .bf16 || macBadQ (macForm f) (macQ f), 0x13),
        (badLocal loc (if loc % 8 = 0 then csbGroupLen fa (s.spRead t) loc else 1), 0x14)])
      [.s f.a.toNat, .v f.b.toNat, .s f.d.toNat, .s (fld f.ext.toNat 23 20)]
      (fun th s =>
        if loc % 8 ≠ 0 then s.alignLocal t 0
        else match s.padFetch t th (3 + t % 4) loc 8 (some fa) with
          | (none, s1) => s1
          | (some v, s1) =>
            let rd (o n : Nat) : Nat := (v >>> (8 * (o - loc))) % 2 ^ (8 * n)
            let (es, sc, fin) := csbExpand fa rd (csbBlocks fa) loc
            let vb := th.vr f.b.toNat
            let s2 := s1.macLog t (Eff.sc f.d.toNat (BitVec.ofNat 32 (fin % 2 ^ 17)))
            if s2.waits t then s2
            else (s2.macIssue t fa (macProds fa fb (macForm f) (macQ f) (macScaled f)
              (fun i => es.getD i 0) (elem fb vb.data) (fun i => fa.isZeroCode (es.getD i 0)) (fun i => (vb.flagsIn fb).getLsbD i)
              (fun n => sc.getD n 0)
              (fun n => fld (th.sr (fld f.ext.toNat 23 20)).toNat (8 * n + 7) (8 * n)))).advance t 8) s)

end Sys2Proof.Machine
end

