-- ==== Sys2Proof/Machine/ExpertUnit.lean ====
section
/-! DEFINITION. Expert dispatch, the predictor, speculation and its closure, and layer closure (chapter 05). -/

namespace Sys2Proof

/-- A token packet with nothing but its kind, ends, tag and ledger entry. -/
def Tok.blank (k : TokKind) (src dst : Node) (sub tag entry : Nat) : Tok :=
  { kind := k, src := src, dst := dst, sub := sub, tag := tag, entry := entry, expert := 0, layer := 0, fmt := 0, weight := 0,
    spec := false, last := true, row := [] }

/-- An answer to a token packet. -/
def Tok.reply (m : Tok) (k : TokKind) : Tok :=
  { Tok.blank k m.dst m.src m.sub m.tag m.entry with expert := m.expert, layer := m.layer, launch := m.launch }

/-- The bytes of a row in packets of at most 512. -/
def rowChunks : Nat → List Byte → List (List Byte)
  | 0, _ => []
  | n + 1, l => if l.length ≤ 512 then [l] else l.take 512 :: rowChunks n (l.drop 512)

end Sys2Proof

namespace Sys2Proof.Machine

/-! ### Ranks -/

/-- The grid rank of a thread (R34). -/
def Launch.rank (l : Launch) (t : Nat) : Nat :=
  (((l.ships.findIdx (fun x => x == shipOf t)) * l.gs + t / 256 % 64) * l.gc + t / 4 % 64) * l.gh + t % 4

/-- The thread at a grid rank. -/
def Launch.threadAt (l : Launch) (r : Nat) : Nat :=
  let q := r / l.gh
  gtn (l.ships.getD (q / l.gc / l.gs) 0) (q / l.gc % l.gs) (q % l.gc) (r % l.gh)

/-- The threads of a grid. -/
def Launch.size (l : Launch) : Nat := l.gt * l.gs * l.gc * l.gh

/-! ### Fence words signalled by the hub itself -/

/-- A fence word's place: HBM of the parcel, 8-byte aligned (R68). -/
def State.fenceWord (s : State) (c : Context) (ship : Option Nat) (pva acc : Nat) : Except Xfault Nat :=
  if pva % 8 ≠ 0 then .error ⟨0x08, 0⟩
  else if inHost pva then .error ⟨0x0A, 0⟩
  else match s.translateFresh c ship pva acc with
    | .error f => .error f
    | .ok (x, _, _) => if x.ease ∨ x.window.isSome then .error ⟨0x0A, x.ppa⟩ else .ok x.dpa

/-- A signal that the hub makes on behalf of a command: a fault loses the context with access type 4; a poisoned word is left
alone under TOLERATE and otherwise loses the context (R610). -/
def State.hubSignal (s : State) (cn : Nat) (c : Context) (pva v : Nat) (tol : Bool) : State :=
  match s.fenceWord c none pva 4 with
  | .error f => s.engineLoss cn ⟨f.code, 4, pva, f.ppa, 0xFFFFFFFF⟩
  | .ok dpa =>
    if s.poisoned dpa then (if tol then s else s.loseCtx cn ⟨0x0B, 4, pva, s.ppaAt c pva, 0xFFFFFFFF⟩)
    else s.raiseWord dpa v

/-! ### Expert routes (Table 05-2, R148, R149) -/

/-- The route of an expert in a parcel's table. -/
def State.eroute (s : State) (p e : Nat) : Nat := (s.regs.getD (erouteKey p e) 0).toNat
def routeCap (r : Nat) : Nat := fld r 43 32
def routeKind (r : Nat) : Bool := r.testBit 1

/-- Whether every township of a KIND 0 route, or the site of a KIND 1 route, is still the parcel's. -/
def State.routeOk (s : State) (p e : Nat) : Bool :=
  let r := s.eroute p e
  match s.parcels.get? p with
  | none => false
  | some x =>
    decide (e < 4096) && r.testBit 0 &&
    (if routeKind r then x.sites.contains (fld r 4 2) else (upTo (fld r 18 10)).all (fun k => x.ships.contains (fld r 9 2 + k)))

/-- Where token n of an expert lands: an end, and the section or engine there. -/
def routePlace (r n : Nat) : Node × Nat :=
  if routeKind r then (.hub (fld r 4 2), fld r 15 10 + n % (fld r 24 19 + 1))
  else (.agent (fld r 9 2 + n / fld r 31 25 % fld r 18 10), fld r 24 19 + n % fld r 31 25)

/-! ### Copies at the origin -/

/-- Count events of Table 05-9 at a township. -/
def State.dspCount (s : State) (t n : Nat) : State := s.transit (Reg.dspCnt t n) 1

def State.modCopy (s : State) (t e : Nat) (f : Copy → Copy) : State :=
  s.modShip t (fun x => { x with ledger := x.ledger.modify e f })
def State.dropCopy (s : State) (t e : Nat) : State := s.modShip t (fun x => { x with ledger := x.ledger.erase e })
def State.copy? (s : State) (t e : Nat) : Option Copy := (s.ship t).ledger.get? e

/-- Every packet of a copy sent to its place, which the entry keeps for the copy's closure (R168). -/
def State.sendCopy (s : State) (t e : Nat) : State :=
  match s.copy? t e with
  | none => s
  | some c =>
    let p := (s.parcelOfShip t).getD 16
    let (dst, sub) := routePlace (s.eroute p c.expert) c.token
    let cs := rowChunks 16 c.row
    (cs.zipIdx).foldl (fun s (x : List Byte × Nat) => s.sendTok
      { Tok.blank .tcopy (.agent t) dst sub p e with
        expert := c.expert, layer := c.layer, fmt := c.fmt, weight := (if c.spec then f32Nan else c.weight), spec := c.spec,
        last := x.2 + 1 == cs.length, row := x.1, launch := c.launch }) (s.modCopy t e (fun y => { y with place := some (dst, sub) }))

/-- A copy dropped and counted for its launch (R155).
(DEDUCED: log entry 28.) -/
def State.countDrop (s : State) (l : Nat) : State := s.modLaunch l (fun x => { x with dropped := satAdd 32 x.dropped 1 })

/-- A copy entered in the ledger and sent, or dropped without a route (R149).
(DEDUCED: log entry 28.) -/
def State.newCopy (s : State) (t : Nat) (c : Copy) : State :=
  if !s.routeOk ((s.parcelOfShip t).getD 16) c.expert then (s.dspCount t 8).countDrop c.launch
  else
    let e := (s.ship t).ledger.freeKey 4096
    let s1 := (s.modShip t (fun x => { x with ledger := x.ledger.set e c })).sendCopy t e
    if c.spec then s1.dspCount t 0 else s1

/-- The copies of a token and layer of an origin thread of a launch. -/
def State.copiesOf (s : State) (t launch thread token layer : Nat) : List (Nat × Copy) :=
  (s.ship t).ledger.filter (fun e => e.2.launch == launch && e.2.thread == thread && e.2.token == token && e.2.layer == layer)

/-- A committed copy dropped under its policy.
(DEDUCED: log entry 28.) -/
def State.dropCounted (s : State) (t e : Nat) : State :=
  match s.copy? t e with
  | some c => ((s.dropCopy t e).dspCount t 7).countDrop c.launch
  | none => s

/-- The spill policy (Table 05-4): the next reserve choice that the token has not used takes the copy; where that choice has no route, the copy
is dropped and counted in NO_ROUTE alone (R149, R176); where none remains, it is dropped.
(DEDUCED: log entry 28.) -/
def State.spill (s : State) (t e : Nat) : State :=
  match s.copy? t e with
  | none => s
  | some c =>
    match c.reserve with
    | [] => s.dropCounted t e
    | (x, w) :: rest =>
      let mates := (s.copiesOf t c.launch c.thread c.token c.layer).map Prod.fst
      let s1 := mates.foldl (fun s k => s.modCopy t k (fun y => { y with reserve := y.reserve.filter (fun z => z.1 != x) })) s
      if s1.routeOk ((s1.parcelOfShip t).getD 16) x then
        let s2 := s1.modCopy t e (fun y => { y with expert := x, weight := w, st := .sent, reserve := rest.filter (fun z => z.1 != x) })
        (((s2.dspCount t 4).modLaunch c.launch (fun l => { l with spilled := satAdd 32 l.spilled 1 }))).sendCopy t e
      else ((s1.dropCopy t e).dspCount t 8).countDrop c.launch

/-- Where a copy was sent, to which its closure goes (R168). -/
def Copy.sentTo (c : Copy) : Node × Nat := c.place.getD (.agent 0, 0)

/-- CONFIRM or REFUTE sent for an admitted speculative copy (R167, R168). -/
def State.sendConfirm (s : State) (t e : Nat) (w : W32) : State :=
  match s.copy? t e with
  | none => s
  | some c =>
    let (dst, sub) := c.sentTo
    ((s.modCopy t e (fun y => { y with spec := false, weight := w })).sendTok
      { Tok.blank .confirm (.agent t) dst sub ((s.parcelOfShip t).getD 16) e with expert := c.expert, layer := c.layer, weight := w, launch := c.launch }).dspCount t 2
def State.sendRefute (s : State) (t e : Nat) : State :=
  match s.copy? t e with
  | none => s
  | some c =>
    let (dst, sub) := c.sentTo
    ((s.dropCopy t e).sendTok
      { Tok.blank .refute (.agent t) dst sub ((s.parcelOfShip t).getD 16) e with expert := c.expert, layer := c.layer, launch := c.launch }).dspCount t 3

/-! ### Layers (R157, R158, R173) -/

/-- The layers below this number have closed: every origin thread has ended them.
(DEDUCED: log entry 27.) -/
def Launch.bound (l : Launch) : Nat :=
  match l.disp with
  | none => 0
  | some d =>
    let hi := min d.originHi (l.size - 1)
    ((upTo (hi + 1 - d.originLo)).map (fun k => l.ended.getD (d.originLo + k) 0)).foldl min 256

/-- The layers that close now: each speculation of theirs without a committed dspt is refuted (R173). -/
def State.closeLayers (s : State) (ln : Nat) : State :=
  match s.launches.get? ln with
  | none => s
  | some l =>
    let b := l.bound
    if b ≤ l.closedTo then s
    else
      let s1 := s.setLaunch ln { l with closedTo := b }
      l.ships.foldl (fun s t =>
        ((s.ship t).ledger.filter (fun e => e.2.launch == ln && e.2.spec && decide (e.2.layer < b) && e.2.st == .admitted)).foldl
          (fun s e => s.sendRefute t e.1) s) s1

/-- An origin thread that has ended every layer below a number. -/
def State.endLayers (s : State) (ln t b : Nat) : State :=
  match s.launches.get? ln with
  | none => s
  | some l =>
    (s.setLaunch ln { l with ended := l.ended.set (l.rank t) (max b (l.ended.getD (l.rank t) 0)) }).closeLayers ln

/-! ### The predictor (R159 to R162) -/

/-- Index and tag of a hint at a layer. -/
def predHash (layer : Nat) (hint : List GateEntry) : Nat × Nat :=
  let vs := hint.filter (fun e => e.valid)
  let e (i : Nat) : Nat := (vs.map (fun x => x.expert)).getD i 0xFFFF
  let h := ((layer * 40503) ^^^ (e 0 * 34283) ^^^ (e 1 * 49842)) % 65536
  (h % 1024, h / 1024)

/-- Candidates in descending confidence and ascending expert number. -/
def candInsert (x : Nat × Nat) : List (Nat × Nat) → List (Nat × Nat)
  | [] => [x]
  | y :: r => if y.2 < x.2 ∨ (x.2 = y.2 ∧ x.1 < y.1) then x :: y :: r else y :: candInsert x r

/-- The experts a speculative dispatch takes. -/
def State.predicted (s : State) (t p predMax idx tag : Nat) : List Nat :=
  match (s.ship t).pred.get? idx with
  | none => []
  | some e =>
    if e.tag = tag then
      let cs := (e.cands.filter (fun c => decide (s.fieldOf (Reg.dspPredCtrl t) 2 1 ≤ c.2))).foldl (fun l c => candInsert c l) []
      ((cs.map Prod.fst).filter (fun x =>
        let r := s.eroute p x
        decide (x < 4096) && r.testBit 0 && !routeKind r && !r.testBit 44)).take predMax
    else []

/-- The position whose candidate a new expert replaces: the lowest confidence, if that is 0, the highest of equals. -/
def weakest (cs : List (Nat × Nat)) : Option Nat :=
  (cs.zipIdx).foldl (fun b (x : (Nat × Nat) × Nat) => if x.1.2 = 0 then some x.2 else b) none

/-- An entry that has learnt a committed list (R161). A list of fewer than four experts leaves the other candidates absent, and an absent one is
taken first.
(DESIGN CHOICE: log entry 100.) -/
def learn (old : Option PredEntry) (tag : Nat) (c : List Nat) : PredEntry :=
  match old with
  | some e =>
    if e.tag = tag then
      let cs := e.cands.map (fun x => (x.1, if c.contains x.1 then min 3 (x.2 + 1) else x.2 - 1))
      ⟨tag, (c.filter (fun x => !(e.cands.any (fun y => y.1 == x)))).foldl (fun cs x =>
        if cs.length < 4 then cs ++ [(x, 1)]
        else match weakest cs with
          | some i => setAt cs i (x, 1)
          | none => cs) cs⟩
    else ⟨tag, c.map (fun x => (x, 1))⟩
  | none => ⟨tag, c.map (fun x => (x, 1))⟩

/-- PRED_CLEAR: every entry of a township invalidated; CLEAR reads 0 again. -/
def State.predClear (s : State) (t : Nat) : State := s.modShip t (fun x => { x with pred := [] })

/-! ### dspt -/

/-- The gate entries a dspt names. -/
def dsptValid (th : Thread) (f : FmtE) : List GateEntry := (gateList (th.vr f.a.toNat).data).filter (fun e => e.valid)

/-- A new copy's fields. -/
def dsptCopy (t : Nat) (th : Thread) (f : FmtE) (expert : Nat) (w : W32) (spec : Bool) (row : List Byte) (res : List (Nat × W32)) : Copy :=
  { launch := th.launch, thread := t, token := (th.sr f.d.toNat).toNat, layer := fld f.ext.toNat 18 11, expert := expert,
    weight := w, spec := spec, st := .sent, counted := false, row := row, fmt := fld f.ext.toNat 9 6,
    len := fld f.ext.toNat 5 0, reserve := res, got := 0 }

/-- Whether an origin thread has dispatched a token for a layer before (R160), be it that no copy was sent.
(DESIGN CHOICE: log entry 107.) -/
def State.dspted (s : State) (t token layer : Nat) : Bool :=
  (s.ship (shipOf t)).hints.any (fun h => h.1 == t && h.2.1 == token && h.2.2.1 == layer) || (s.ship (shipOf t)).sentTok.contains (t, token, layer)

/-- The experts to which a speculative dspt sends (R160): none in the cases that the rule lists, and no more than bring the pending speculations
to 1,024.
(DESIGN CHOICE: log entry 107.) -/
def State.specTargets (s : State) (t : Nat) (th : Thread) (f : FmtE) (l : Launch) (d : DispDesc) : List Nat :=
  let ship := shipOf t
  let layer := fld f.ext.toNat 18 11
  let (idx, tag) := predHash layer (gateList (th.vr f.a.toNat).data)
  let pending := ((s.ship ship).ledger.filter (fun e => e.2.spec)).length
  if s.dspted t (th.sr f.d.toNat).toNat layer || !d.spec || !s.bit (Reg.dspPredCtrl ship) 0 || decide (layer < l.closedTo) || decide (1024 ≤ pending) then []
  else (s.predicted ship ((s.parcelOfShip ship).getD 16) d.predMax idx tag).take (1024 - pending)

/-- A speculative dspt (R160): its hint is kept for the committed list, and its copies are sent. -/
def State.dsptSpec (s : State) (t : Nat) (th : Thread) (f : FmtE) (l : Launch) (d : DispDesc) (row : List Byte) : State :=
  let token := (th.sr f.d.toNat).toNat
  let layer := fld f.ext.toNat 18 11
  let (idx, tag) := predHash layer (gateList (th.vr f.a.toNat).data)
  if s.dspted t token layer then s
  else (s.specTargets t th f l d).foldl (fun s e => s.newCopy (shipOf t) (dsptCopy t th f e f32Nan true row []))
    (s.modShip (shipOf t) (fun x => { x with hints := (t, token, layer, idx, tag) :: x.hints }))

/-- The ledger entries that a committed dspt needs: one for each of its first FANOUT entries that has a route and no admitted speculative
copy, less those that its REFUTEs free (R153, R167).
(DEDUCED: log entry 28.) -/
def State.dsptNeed (s : State) (t : Nat) (th : Thread) (f : FmtE) (d : DispDesc) : Int :=
  let first := (dsptValid th f).take d.fanout
  let specs := (s.copiesOf (shipOf t) th.launch t (th.sr f.d.toNat).toNat (fld f.ext.toNat 18 11)).filter (fun e => e.2.spec)
  let fresh := first.filter (fun g => s.routeOk ((s.parcelOfShip (shipOf t)).getD 16) g.expert && !specs.any (fun e => e.2.expert == g.expert))
  let refuted := specs.filter (fun e => !first.any (fun g => g.expert == e.2.expert))
  (fresh.length : Int) - refuted.length

/-- A committed dspt (R153, R157, R161, R167), its speculative copies all answered. A list that no speculative dispatch preceded trains no entry,
since only a hint names one.
(DESIGN CHOICE: log entry 100.) -/
def State.dsptCommit (s : State) (t : Nat) (th : Thread) (f : FmtE) (d : DispDesc) (row : List Byte) : State :=
  let ship := shipOf t
  let token := (th.sr f.d.toNat).toNat
  let layer := fld f.ext.toNat 18 11
  let vs := dsptValid th f
  let first := vs.take d.fanout
  let res := ((vs.drop d.fanout).filter (fun e => !first.any (fun g => g.expert == e.expert))).map (fun e => (e.expert, e.score))
  let specs := (s.copiesOf ship th.launch t token layer).filter (fun e => e.2.spec)
  let s1 := specs.foldl (fun s e => match first.find? (fun g => g.expert == e.2.expert) with
    | some g => s.sendConfirm ship e.1 g.score
    | none => s.sendRefute ship e.1) s
  let s2 := (match (s1.ship ship).hints.find? (fun h => h.1 == t && h.2.1 == token && h.2.2.1 == layer) with
    | some (_, _, _, idx, tag) => s1.modShip ship (fun x =>
        { x with pred := x.pred.set idx (learn (x.pred.get? idx) tag ((vs.take 4).map (fun (e : GateEntry) => e.expert))),
                 hints := x.hints.filter (fun h => !(h.1 == t && h.2.1 == token && h.2.2.1 == layer)),
                 sentTok := (t, token, layer) :: x.sentTok })
    | none => s1.modShip ship (fun x => { x with sentTok := (t, token, layer) :: x.sentTok }))
  let s3 := (first.filter (fun g => !(specs.any (fun e => e.2.expert == g.expert)))).foldl
    (fun s g => s.newCopy ship (dsptCopy t th f g.expert g.score false row res)) s2
  let s4 := s3.endLayers th.launch t layer
  if d.policy = 1 && (s4.copiesOf ship th.launch t token layer).any (fun e => e.2.st == .sent || e.2.st == .held) then
    s4.modThread t (fun x => { x with wait := .dspt })
  else s4

/-- dspt: off without a dispatch descriptor (R145); length 0 sends nothing and ends the layer; otherwise the dispatch unit reads the row, one
row access after another (R216), while the thread waits, and the copies are sent. It waits for the answers of its own speculative
copies (R167) and for ledger entries (R153). -/
def execDspt (t : Nat) (f : FmtE) (s : State) : Host.Outcome State Fault Refusal :=
  let len := fld f.ext.toNat 5 0
  let layer := fld f.ext.toNat 18 11
  let commit := f.ext.toNat.testBit 10
  let loc := s.onThread t 0 (fun th => (th.sr f.b.toNat).toNat % 2 ^ 17)
  .next (issue t
    (firstCode [(badV f.a, 0x11), (nz f.imm || fld f.ext.toNat 31 19 != 0, 0x12),
      ((ElemFmt.ofCode? (fld f.ext.toNat 9 6)).isNone, 0x13), (badLocal loc (64 * len), 0x14)])
    [.v f.a.toNat, .s f.b.toNat, .s f.d.toNat]
    (fun th s =>
      if th.spec.isSome then s.holdClosure t
      else match s.launches.get? th.launch with
        | none => s
        | some l =>
          match l.disp with
          | none => s.advance t 8
          | some d =>
            if len = 0 then (if commit then s.endLayers th.launch t (layer + 1) else s).advance t 8
            else match s.padFetch t th 2 loc (64 * len) none with
              | (none, s1) => s1
              | (some v, s1) =>
                let row := bytesOf (64 * len) v
                let used : Int := (s.ship (shipOf t)).ledger.length
                if commit then
                  if (s.copiesOf (shipOf t) th.launch t (th.sr f.d.toNat).toNat layer).any (fun e => e.2.spec && e.2.st == .sent) then s
                  else if 4096 < used + s.dsptNeed t th f d then s
                  else (s1.dsptCommit t th f d row).advance t 8
                else if 4096 < used + ((s.specTargets t th f l d).filter (s.routeOk ((s.parcelOfShip (shipOf t)).getD 16))).length then s
                else (s1.dsptSpec t th f l d row).advance t 8) s)

/-- DSPT_ACCEPTED: a dspt under the hold policy completes once each of its copies is admitted or dropped (R92). -/
def execDsptAccepted (t : Nat) (s : State) : Host.Outcome State Fault Refusal :=
  .next (match s.threads.get? t with
    | some th =>
      if th.wait = .dspt && !((s.ship (shipOf t)).ledger.any (fun e => e.2.launch == th.launch && e.2.thread == t && !e.2.spec && (e.2.st == .sent || e.2.st == .held)))
      then s.setThread t { th with wait := .none } else s
    | none => s)

/-! ### Inboxes and admission (R150 to R152) -/

/-- The launch that runs on a township and its dispatch descriptor. -/
def State.hostLaunch (s : State) (t : Nat) : Option (Nat × Launch × DispDesc) :=
  s.launches.findSome? (fun e => if e.2.ships.contains t && (e.2.st == .placed || e.2.st == .stopping) then e.2.disp.map (fun d => (e.1, e.2, d)) else none)

/-- The record header of Table 05-3. -/
def recordHeader (tag expert layer fmt len : Nat) (spec : Bool) (w : W32) : List Byte :=
  bytesOf 4 tag ++ bytesOf 2 expert ++ bytesOf 1 layer ++ bytesOf 1 fmt ++ bytesOf 1 len ++ bytesOf 1 (b2n spec) ++ bytesOf 2 0 ++
    bytesOf 4 w.toNat ++ bytesOf 48 0

/-- The local addresses at which a record of n bytes fits in an inbox.
(DESIGN CHOICE: log entry 29.) -/
def inboxFits (d : DispDesc) (rs : List Record) (n : Nat) : List Nat :=
  let lo := 0x12000 - d.inboxKib * 1024
  ((upTo (d.inboxKib * 16)).map (fun k => lo + 64 * k)).filter (fun a =>
    decide (a + n ≤ 0x12000) && rs.all (fun r => decide (a + n ≤ r.addr) || decide (r.addr + 64 + 64 * r.len ≤ a)))

/-- A copy admitted at a section: a free choice of the places that fit, to which the dispatch unit writes the record (R218).
(DESIGN CHOICE: log entry 29.) -/
def State.admitAt (s : State) (t sec : Nat) (m : Tok) (row : List Byte) : Option State :=
  match s.hostLaunch t with
  | none => none
  | some (ln, l, d) =>
    let k := t * 64 + sec
    let rs := (s.sect k).records
    let fits := inboxFits d rs (64 + row.length)
    if sec < l.gs ∧ (rs.filter (fun r => r.expert == m.expert)).length < routeCap (s.eroute m.tag m.expert) ∧ 0 < fits.length then
      let (i, s1) := s.pick fits.length
      let (ord, s2) := s1.stamp
      let a := fits.getD i 0
      let tag := m.src.ep + m.entry * 256
      let len := row.length / 64
      let r : Record := ⟨a, tag, m.expert, m.layer, m.fmt, len, m.spec, m.weight, none, ord, ln, m.launch⟩
      some ((s2.padEngine k 2 ln a (64 + row.length) (ofBytes (recordHeader tag m.expert m.layer m.fmt len m.spec m.weight ++ row)) false).modSect k
        (fun x => { x with records := x.records ++ [r] }))
    else none

/-- Whether a record stands whole in the inbox: no write of the dispatch unit to its bytes is left. -/
def SectionSt.whole (x : SectionSt) (r : Record) : Bool :=
  !x.reqs.any (fun q => q.rank == 2 && decide (r.addr ≤ q.base) && decide (q.base < r.addr + 64 + 64 * r.len))

/-- The queue entries an engine of a site offers (BLK_ENG_e), and what is outstanding there (R356). -/
def State.engDepth (s : State) (n e : Nat) : Nat := fld ((s.site n).sb.getD (0x200 + 8 * e) 0).toNat 7 0
def SiteSt.atEngine (x : SiteSt) (e : Nat) : Nat :=
  (x.works.filter (fun w => w.2.engine == e)).length + (x.copies.filter (fun c => c.2.engine == e)).length

/-- The last packet of a copy at an adapter (R361). -/
def State.admitSite (s : State) (n : Nat) (m : Tok) (row : List Byte) : State :=
  let x := s.site n
  let held := (x.copies.filter (fun c => c.2.engine == m.sub && c.2.expert == m.expert)).length
  if held < routeCap (s.eroute m.tag m.expert) ∧ x.atEngine m.sub < s.engDepth n m.sub then
    let s1 := s.modSite n (fun y => { y with copies := y.copies.set y.copies.nextKey ⟨m.sub, m.src.ep, m.entry, m.expert, m.layer, m.fmt, m.launch⟩ })
    let cs := rowChunks 16 row
    let s2 := (cs.zipIdx).foldl (fun (s : State) (x : List Byte × Nat) => s.txPush n
      { code := 0x20, txid := m.entry, cls := 0, who := m.src.ep
        head := ({ m with row := x.1, last := x.2 + 1 == cs.length, hdr := { m.hdr with route := 0 } }).header
        data := (upTo (ceilDiv x.1.length 32)).map (fun j => ofBytes ((x.1.drop (32 * j)).take 32)) }) s1
    (s2.txCopies n cs.length).sendTok (m.reply .admitCopy)
  else (s.modSite n (fun y => { y with refused := y.refused ++ [(m.src.ep, m.expert, m.entry, m.launch)] })).sendTok (m.reply .refuse)

/-- A token packet taken at a township: not while it sleeps, and dropped where its tag is not the township's. -/
def State.tokAt (s : State) (k : TokKind) (m : Tok) (f : Nat → State → State) : State :=
  if m.kind = k && s.tokDeliverable m then
    match m.dst with
    | .agent t =>
      if 256 ≤ t || !s.shipOpen t then s
      else if !s.tagOk t m.tag then (s.takeTok m).tagDrop t
      else f t (s.takeTok m)
    | _ => s
  else s

/-- A row that a packet has added to, kept until its last packet. -/
def State.addRow (s : State) (place : Nat) (m : Tok) : List Byte × State :=
  let key := m.src.ep * 4096 + m.entry
  let row := ((s.ship place).asm.getD key (0, [])).2 ++ m.row
  (row, s.modShip place (fun x => { x with asm := if m.last then x.asm.erase key else x.asm.set key (m.launch, row) }))

/-- TCOPY: a packet of a copy; the last one decides ADMIT or REFUSE (R153, R361). A site adapter drops one whose TAG is not its parcel's
(R279). -/
def execTcopy (m : Tok) (s : State) : Host.Outcome State Fault Refusal :=
  .next (match m.dst with
    | .hub n =>
      if m.kind = .tcopy && s.tokDeliverable m && decide (n < 8) && s.fieldOf (Reg.siteStat n) 2 0 == 4 then
        if s.parcelOfSite n = some m.tag || m.tag = 16 then
          let (row, s1) := (s.takeTok m).addRow (256 + n) m
          if m.last then s1.admitSite n m row else s1
        else (s.takeTok m).tagDrop (672 + n)
      else s
    | _ => s.tokAt .tcopy m (fun t s =>
        let (row, s1) := s.addRow t m
        if m.last then
          match s1.admitAt t m.sub m row with
          | some s2 => (if m.spec then s2.dspCount t 1 else s2).sendTok (m.reply .admitCopy)
          | none => (s1.modSect (t * 64 + m.sub) (fun x => { x with refused := x.refused ++ [(m.src.ep, m.expert, m.entry, m.launch)] })).sendTok (m.reply .refuse)
        else s1))

/-- A record released (R151): ROOM goes to the origins refused for its expert (R153). -/
def State.releaseRecord (s : State) (t sec : Nat) (r : Record) : State :=
  let k := t * 64 + sec
  let waiting := (s.sect k).refused.filter (fun x => x.2.1 == r.expert)
  let s1 := s.modSect k (fun x => { x with records := x.records.filter (fun q => q.addr != r.addr),
                                            refused := x.refused.filter (fun y => y.2.1 != r.expert) })
  waiting.foldl (fun s x => s.sendTok { Tok.blank .room (.agent t) (.agent x.1) sec ((s.parcelOfShip t).getD 16) x.2.2.1 with expert := r.expert, launch := x.2.2.2 }) s1

/-! ### Answers at the origin -/

/-- The copy that an answer names, while it is of the launch that sent it: what is on its way for a lost launch serves no later one (R174). -/
def State.copyOf? (s : State) (t : Nat) (m : Tok) : Option Copy := (s.copy? t m.entry).filter (fun c => c.launch == m.launch)

/-- ADMIT: the copy is admitted; a speculative one of a layer that has closed is refuted (R173). -/
def execAdmitCopy (m : Tok) (s : State) : Host.Outcome State Fault Refusal :=
  .next (s.tokAt .admitCopy m (fun t s =>
    match s.copyOf? t m with
    | none => s
    | some c =>
      let s1 := s.modCopy t m.entry (fun x => { x with st := .admitted, row := [] })
      match s1.launches.get? c.launch with
      | some l => if c.spec && decide (c.layer < l.closedTo) then s1.sendRefute t m.entry else s1
      | none => s1))

/-- REFUSE: a refused speculative copy counts as never sent (R167); a committed one follows the policy (Table 05-4). -/
def execRefuse (m : Tok) (s : State) : Host.Outcome State Fault Refusal :=
  .next (s.tokAt .refuse m (fun t s =>
    match s.copyOf? t m with
    | none => s
    | some c =>
      if c.spec then s.dropCopy t m.entry
      else match (s.launches.get? c.launch).bind (fun l => l.disp) with
        | none => s.dropCounted t m.entry
        | some d =>
          if d.policy = 0 then s.spill t m.entry
          else if d.policy = 1 && d.hold != 0 then
            let s1 := s.modCopy t m.entry (fun x => { x with st := .held, counted := true })
            if c.counted then s1 else s1.dspCount t 5
          else s.dropCounted t m.entry))

/-- ROOM: a held entry becomes eligible (R154) and its copy is sent again. -/
def execRoom (m : Tok) (s : State) : Host.Outcome State Fault Refusal :=
  .next (s.tokAt .room m (fun t s =>
    match s.copyOf? t m with
    | some c => if c.st = .held ∧ c.expert = m.expert then (s.modCopy t m.entry (fun x => { x with st := .sent })).sendCopy t m.entry else s
    | none => s))

/-- HOLD_EXPIRED: a held copy past HOLD_LIMIT is dropped.
(DESIGN CHOICE: log entry 12.) -/
def execHoldExpired (ship entry : Nat) (s : State) : Host.Outcome State Fault Refusal :=
  .next (match s.copy? ship entry with
    | some c => if c.st = .held then (s.dspCount ship 6).dropCounted ship entry else s
    | none => s)

/-! ### drecv and dret -/

/-- The free shadow slot of a section. -/
def SectionSt.slot? (x : SectionSt) : Option Nat := x.slots.findIdx? (fun o => o.isNone)

/-- drecv: the oldest untaken record of the expert's current layer (R152, R163); false once the layer is closed. -/
def execDrecv (t : Nat) (f : FmtE) (s : State) : Host.Outcome State Fault Refusal :=
  let pd := fld f.ext.toNat 3 2
  .next (issue t
    (firstCode [(nz f.b || nz f.imm || fld f.ext.toNat 31 4 != 0 || fld f.ext.toNat 1 0 != 0, 0x12)])
    [.s f.a.toNat, .s f.d.toNat, .p pd]
    (fun th s =>
      if th.spec.isSome then s.holdClosure t
      else match s.launches.get? th.launch with
        | none => s
        | some l =>
          match l.disp with
          | none => (s.writeRegs t (Eff.pd th pd false)).advance t 8
          | some d =>
            let k := sectOf t
            let x := s.sect k
            let e := (th.sr f.a.toNat).toNat
            let cur := x.layers.getD e d.first
            let mine := x.records.filter (fun r => r.expert == e && r.layer == cur && r.launch == th.launch && r.taken.isNone && x.whole r)
            let ok := mine.filter (fun r => !r.spec || x.slot?.isSome)
            let old := ok.foldl (fun (b : Option Record) r => match b with
              | some q => if r.order < q.order then some r else b
              | none => some r) none
            match old with
            | some r =>
              let eff : Eff := { Eff.pd th pd true with s := [(f.d.toNat, BitVec.ofNat 32 r.addr)] }
              let s1 := s.modSect k (fun y => { y with records := y.records.map (fun q => if q.addr = r.addr then { q with taken := some t } else q) })
              if r.spec then
                let n := x.slot?.getD 0
                let s2 := s1.modSect k (fun y => { y with slots := setAt y.slots n (some t) })
                ((s2.setThread t { th with spec := some ⟨n, k, r.addr, th.pc.toNat, [], none, none, 0⟩ }).writeRegs t eff).advance t 8
              else (s1.writeRegs t eff).advance t 8
            | none =>
              let left := x.records.any (fun r => r.expert == e && r.layer == cur && r.launch == th.launch && r.taken.isNone)
              if !left && decide (cur < l.closedTo) then
                ((s.modSect k (fun y => { y with layers := y.layers.set e (cur + 1) })).writeRegs t (Eff.pd th pd false)).advance t 8
              else s) s)

/-- A result row returned to the origin that a record names, and the record released (R151, R156). A KIND of record that the
section does not hold names no origin, and nothing is sent. -/
def State.returnRow (s : State) (t rec_ len fmt v : Nat) : State :=
  let k := sectOf t
  match (s.sect k).records.find? (fun r => r.addr == rec_) with
  | none => s
  | some r =>
    let cs := rowChunks 16 (bytesOf (64 * len) v)
    let s1 := (cs.zipIdx).foldl (fun s (x : List Byte × Nat) => s.sendTok
      { Tok.blank .tret (.agent (shipOf t)) (.agent (r.tag % 256)) (t / 256 % 64) ((s.parcelOfShip (shipOf t)).getD 16) (r.tag / 256 % 4096) with
        expert := r.expert, layer := r.layer, fmt := fmt, last := x.2 + 1 == cs.length, row := x.1, launch := r.origin }) s
    s1.releaseRecord (shipOf t) (t / 256 % 64) r

/-- dret: the row is read as an access of the thread (R212, R216) and goes to the origin; a speculative thread logs it (Table 05-5). -/
def execDret (t : Nat) (f : FmtE) (s : State) : Host.Outcome State Fault Refusal :=
  let len := fld f.ext.toNat 5 0
  let fmt := fld f.ext.toNat 9 6
  let row := s.onThread t 0 (fun th => (th.sr f.a.toNat).toNat % 2 ^ 17)
  .next (issue t
    (firstCode [(nz f.d || nz f.imm || fld f.ext.toNat 31 10 != 0, 0x12), ((ElemFmt.ofCode? fmt).isNone, 0x13),
      (badLocal row (64 * len), 0x14)])
    [.s f.a.toNat, .s f.b.toNat]
    (fun th s =>
      let rec_ := (th.sr f.b.toNat).toNat % 2 ^ 17
      match th.spec with
      | none =>
        if len = 0 then (if s.padBusy t || s.acquiring t then s else (s.returnRow t rec_ 0 fmt 0).advance t 8)
        else match s.padFetch t th (3 + t % 4) row (64 * len) none with
          | (none, s1) => s1
          | (some v, s1) => (s1.returnRow t rec_ len fmt v).advance t 8
      | some sp =>
        if s.padBusy t || s.acquiring t then s
        else
          let log := SpecItem.dret rec_ row len fmt :: sp.log
          if logCost log ≤ 64 then (s.setThread t { th with spec := some { sp with log := log } }).advance t 8 else s.holdClosure t) s)

/-! ### Closure at the host (R169 to R171, R175) -/

/-- One logged item performed as an ordinary access of a thread that is no longer speculative (R170), under the limits of R99 and R216, and whether
it has been: a store of its scratchpad or a dret waits while an earlier request of the thread is in progress.
(DESIGN CHOICE: log entry 103.) -/
def State.performItem (s : State) (t : Nat) (th : Thread) (i : SpecItem) : Bool × State :=
  match i with
  | .store true loc len v => if s.padBusy t then (false, s) else (true, s.enterPad t th (3 + t % 4) loc len (.store v) .none false)
  | .store false pva len v =>
    if !s.storeRoom t then (false, s)
    else match s.ctxs.get? (th.ctx % 4096) with
      | none => (true, s)
      | some c =>
        if s.walkHeld (th.ctx % 4096) c t pva len then (false, s)
        else match s.placeBytes (th.ctx % 4096) c t 1 4 pva len with
        | (.error f, s1) => (true, s1.threadFault t f.code 1 pva f.ppa)
        | (.ok ps, s1) => if s1.clash t ps then (false, s) else (true, s1.enterAcc t th pva (.store v) .none false 0 ps)
  | .dret rec_ row len fmt =>
    if len = 0 then (if s.padBusy t then (false, s) else (true, s.returnRow t rec_ 0 fmt 0))
    else match s.padFetch t th (3 + t % 4) row (64 * len) none with
      | (none, s1) => (false, s1)
      | (some v, s1) => (true, s1.returnRow t rec_ len fmt v)
  | _ => (true, s)

/-- The items that a confirmed thread has still to perform, in program order, as far as they go now; after the last one the held fault is raised
(R170). The first number bounds the items.
(DESIGN CHOICE: log entry 103.) -/
def State.replay (s : State) (t : Nat) : Nat → State
  | 0 => s
  | n + 1 =>
    match s.threads.get? t with
    | none => s
    | some th =>
      match th.replay, th.raise with
      | i :: r, _ =>
        (match s.performItem t th i with
         | (true, s1) => (s1.modThread t (fun x => { x with replay := r })).replay t n
         | (false, s1) => s1)
      | [], some (code, acc, pva, ppa) => (s.modThread t (fun x => { x with raise := none })).threadFault t code acc pva ppa
      | [], none => s

/-- The header bytes of a record that a CONFIRM changes: SPEC clear, and WEIGHT. -/
def confirmBytes (m : Memory) (k addr : Nat) (w : W32) : Memory := (m.writeN (spKey k addr + 9) 1 0).writeN (spKey k addr + 12) 4 w.toNat

/-- A record as a CONFIRM leaves it. -/
def SectionSt.confirm (x : SectionSt) (addr : Nat) (w : W32) : SectionSt :=
  { x with records := x.records.map (fun r => if r.addr = addr then { r with spec := false, weight := w } else r) }

/-- An untaken record confirmed (R169): the dispatch unit writes its header (R218). -/
def State.confirmRecord (s : State) (k : Nat) (r : Record) (w : W32) : State :=
  ((s.padEngine k 2 r.launch (r.addr + 9) 1 0 false).padEngine k 2 r.launch (r.addr + 12) 4 w.toNat false).modSect k (fun x => x.confirm r.addr w)

/-- A thread's shadow slot freed and its speculation bit cleared. -/
def State.freeSlot (s : State) (t : Nat) (sp : Spec) : State :=
  (s.modSect sp.section_ (fun x => { x with slots := setAt x.slots sp.slot none })).modThread t (fun th =>
    { th with spec := none, wait := if th.wait = .closure then .none else th.wait })

/-- R170: the logged stores and drets in program order, WEIGHT and SPEC, the slot, and the held fault; the thread issues again once they are made.
The poisoned reads that it tolerated now count (R165).
(DESIGN CHOICE: log entry 103.) -/
def State.confirmThread (s : State) (t : Nat) (sp : Spec) (w : W32) : State :=
  let s0 := match (s.sect sp.section_).records.find? (fun r => r.addr == sp.record) with
    | some r => s.confirmRecord sp.section_ r w
    | none => s
  let s1 := s0.freeSlot t sp
  let held := (s1.accs.filter (fun e => s1.owns t e.2 && e.2.st == AccState.closure)).map Prod.fst
  let s2 : State := { s1 with accs := s1.accs.mapV (fun _ a => if s1.owns t a then { a with spec := false } else a) }
  let s2 := s2.onThread t s2 (fun th => s2.modLaunch th.launch (fun l => { l with poisoned := satAdd 32 l.poisoned sp.poison }))
  let s2 := held.foldl (fun s id => State.startPart s id 8) s2
  let items := sp.log.reverse.filter (fun i => match i with | .store .. => true | .dret .. => true | _ => false)
  ((s2.modThread t (fun th => { th with replay := items, raise := sp.fault })).replay t (items.length + 1)).serveShip (shipOf t)

/-- The registers of a log restored, newest first (R171). -/
def restoreRegs (th : Thread) : List SpecItem → Thread
  | [] => th
  | .scalar d o :: r => restoreRegs { th with s := setAt th.s d o } r
  | .preds o :: r => restoreRegs { th with p := o } r
  | .gen o :: r => restoreRegs { th with gen := o } r
  | .vector d o :: r => restoreRegs { th with v := setAt th.v d o } r
  | .acc o :: r => restoreRegs { th with a := o, prods := [] } r
  | _ :: r => restoreRegs th r

/-- R171: stores, drets and the fault discarded, registers restored, the slot freed, and the drecv executed again; loads that the
speculation made and that have not returned write nothing, and accesses made before the drecv go on. -/
def State.refuteThread (s : State) (t : Nat) (sp : Spec) : State :=
  let gone := (s.accs.filter (fun e => s.owns t e.2 && e.2.spec)).map Prod.fst
  let s1 := (s.freeSlot t sp).dropRequests gone
  let s2 := { s1 with accs := s1.accs.keep (fun k _ => !gone.contains k) }
  let s3 := s2.modSect (sectOf t) (fun x => { x with reqs := x.reqs.filter (fun r => match r.op with | .store _ => true | _ => !gone.contains r.acc) })
  let still := ((s3.accs.filter (fun e => s3.owns t e.2)).map (fun e => dstPend e.2.dst)).flatten
  s3.modThread t (fun th => { restoreRegs th sp.log with
    pc := BitVec.ofNat 52 sp.drecvPc, pend := th.pend.filter (fun r => still.contains r), wait := .none })

/-- The record of a section that a closure message names. -/
def State.recordOf (s : State) (k : Nat) (m : Tok) : Option Record :=
  (s.sect k).records.find? (fun r => r.tag == m.src.ep + m.entry * 256)

/-- A closure message for a saved record (R175): kept with the saved thread that took it; a record that no thread has taken is confirmed or
released where it is saved (R169). -/
def State.saveClosure (s : State) (ship k : Nat) (m : Tok) (w : Option W32) : State :=
  match (s.ship ship).image with
  | none => s
  | some im =>
    let put (im : SaveImage) : State := s.modShip ship (fun x => { x with image := some im })
    match im.sections.get? k with
    | none => s
    | some x =>
      match x.records.find? (fun r => r.tag == m.src.ep + m.entry * 256) with
      | none => s
      | some r =>
        match r.taken, w with
        | some h, _ => put { im with threads := im.threads.modify h (fun th => { th with spec := th.spec.map (fun sp => { sp with closure := some w }) }) }
        | none, some v =>
          put { im with sections := im.sections.set k (x.confirm r.addr v), spm := (confirmBytes { Memory.empty with cells := im.spm } k r.addr v).cells }
        | none, none =>
          let waiting := x.refused.filter (fun y => y.2.1 == r.expert)
          waiting.foldl (fun s y => s.sendTok { Tok.blank .room (.agent ship) (.agent y.1) m.sub m.tag y.2.2.1 with expert := r.expert, launch := y.2.2.2 })
            (put { im with sections := im.sections.set k { x with
              records := x.records.filter (fun q => q.addr != r.addr), refused := x.refused.filter (fun y => y.2.1 != r.expert) } })

/-- CONFIRM at its host. -/
def execConfirm (m : Tok) (s : State) : Host.Outcome State Fault Refusal :=
  .next (s.tokAt .confirm m (fun t s =>
    let k := t * 64 + m.sub
    match s.recordOf k m with
    | none => s.saveClosure t k m (some m.weight)
    | some r =>
      match r.taken with
      | none => s.confirmRecord k r m.weight
      | some h =>
        match (s.threads.get? h).bind (fun th => th.spec) with
        | some sp => s.confirmThread h sp m.weight
        | none => s))

/-- REFUTE at its host. -/
def execRefute (m : Tok) (s : State) : Host.Outcome State Fault Refusal :=
  .next (s.tokAt .refute m (fun t s =>
    let k := t * 64 + m.sub
    match s.recordOf k m with
    | none => s.saveClosure t k m none
    | some r =>
      match r.taken with
      | none => s.releaseRecord t m.sub r
      | some h =>
        match (s.threads.get? h).bind (fun th => th.spec) with
        | some sp => (s.refuteThread h sp).releaseRecord t m.sub r
        | none => s))

/-! ### Returns (R156) -/

/-- The FP32 values of a row: each element converted exactly. -/
def rowValues (f : ElemFmt) (bs : List Byte) : List W32 :=
  if f = .none then []
  else ((upTo (bs.length / 64)).map (fun u =>
    let d : VData := BitVec.ofNat 512 (ofBytes ((bs.drop (64 * u)).take 64))
    (upTo f.count).map (fun i => f32Round (elemVal f (elem f d i))))).flatten

/-- One addition into a combine row by township t for a ledger entry, as an fadd atomic at parcel scope made for the launch: near or far as R252
and R254 state, and counted so (R262). -/
def State.combine1 (s : State) (t entry ln : Nat) (pva : Nat) (v : W32) : State :=
  match s.launches.get? ln with
  | none => s
  | some l =>
    match s.ctxs.get? (l.ctx % 4096) with
    | none => s
    | some c =>
      let fail (code ppa : Nat) : State := s.engineLoss (l.ctx % 4096) ⟨code, 2, pva, ppa, 0xFFFFFFFF⟩
      if inHost pva then fail 0x07 0
      else match s.translateFresh c none pva 2 with
        | .error f => fail f.code f.ppa
        | .ok (x, _, _) =>
          if (match x.window with | some n => !s.windowAtomic n 4 | none => false) then fail 0x07 x.ppa
          else
            let cached := x.window.isNone && !x.uncached
            let ctr := if cached then contendIdx x.dpa else 64
            let near := cached && s.goesNear t x.dpa
            let via : Via := if x.window.isSome then .window else if near || x.uncached then .uncached else if x.stream then .stream else .line
            let s1 := if cached && !near && s.ownsLine t (x.dpa / 128) then s.contendAdd t ctr false else s
            let id := s1.newAcc
            let a : Acc := { thread := unitThread entry, launch := ln, ctx := l.ctx, ship := t, tag := (s.parcelOfShip t).getD 16, prio := l.prio,
                             pva := pva, base := pva, op := .atomic 10 4 v.toNat 0 .none, ctr := ctr, acq := false, spec := false, tol := l.tol,
                             seen := [], parts := [⟨x.dpa, x.ppa, 4, via, none⟩], st := .done }
            (({ s1 with accs := s1.accs.set id a }).startPart id 8).serveShip t

/-- TRET: a packet of a result row combined with the copy's gate weight; after the last one the copy is settled once its additions are performed. -/
def execTret (m : Tok) (s : State) : Host.Outcome State Fault Refusal :=
  .next (s.tokAt .tret m (fun t s =>
    match s.copyOf? t m with
    | none => s
    | some c =>
      match (s.launches.get? c.launch).bind (fun l => l.disp) with
      | none => s.dropCopy t m.entry
      | some d =>
        let vs := rowValues ((ElemFmt.ofCode? m.fmt).getD .none) m.row
        let at_ (j : Nat) : Nat := (d.base + c.token * d.stride + 4 * (c.got + j)) % 2 ^ 52
        let s1 := (vs.zipIdx).foldl (fun s (x : W32 × Nat) => s.combine1 t m.entry c.launch (at_ x.2) (f32Mul x.1 c.weight)) s
        let s2 := s1.modCopy t m.entry (fun x => { x with st := if m.last then .settled else .returned, got := x.got + vs.length })
        if m.last then s2.settleCopy t m.entry else s2))

/-! ### Layers settled -/

/-- The layers below this number have closed and every copy of them is settled (R158).
(DEDUCED: log entry 27.) -/
def State.settledTo (s : State) (ln : Nat) (l : Launch) : Nat :=
  l.ships.foldl (fun b t => ((s.ship t).ledger.filter (fun e => e.2.launch == ln)).foldl (fun b e => min b e.2.layer) b) l.closedTo

/-- Whether COMBINE_FENCE is due a signal (R158).
(DEDUCED: log entry 27.) -/
def State.signalDue (s : State) (ln : Nat) (l : Launch) : Bool :=
  match l.disp with
  | some d => decide (d.first < s.settledTo ln l) && decide (l.signalled < s.settledTo ln l) && d.fence != 0
  | none => false

/-- LAYER_SETTLED: COMBINE_FENCE signalled with the number after the highest settled layer (R158).
(DEDUCED: log entry 27.) -/
def execLayerSettled (launch : Nat) (s : State) : Host.Outcome State Fault Refusal :=
  .next (match s.launches.get? launch with
    | none => s
    | some l =>
      match l.disp with
      | none => s
      | some d =>
        let b := s.settledTo launch l
        if d.first < b ∧ l.signalled < b then
          let s1 := s.setLaunch launch { l with signalled := b }
          if d.fence = 0 then s1
          else match s1.ctxs.get? (l.ctx % 4096) with
            | some c => s1.hubSignal (l.ctx % 4096) c d.fence b l.tol
            | none => s1
        else s)

end Sys2Proof.Machine
end

