-- ==== Sys2Proof/Machine/Control.lean ====
section
/-! DEFINITION. Synchronisation, control flow and special registers (Table 03-14), and the end of a launch (R40). -/

namespace Sys2Proof.Machine

/-! ### Fences (R62, R68 to R74) -/

/-- fence: performed once every earlier access of the thread is, as its scope sees it (R61, R62); a speculative thread waits for its closure. -/
def execFence (t : Nat) (f : FmtA) (s : State) : Host.Outcome State Fault Refusal :=
  .next (issue t (firstCode [(nz f.d || nz f.a || nz f.b || fld f.md.toNat 7 2 != 0, 0x12)]) []
    (fun th s => if th.spec.isSome then s.holdClosure t
      else match s.release t (fld f.md.toNat 1 0) with
        | (true, s1) => s1.advance t 4
        | (false, s1) => s1) s)

/-- The fence word of a thread's fence operation: ALIGN first, then the translation, then FENCE_PLACE (R68). -/
def State.fencePlace (s : State) (t : Nat) (th : Thread) (pva acc : Nat) : Except Xfault (Nat × Nat) × State :=
  if pva % 8 ≠ 0 then (.error ⟨0x08, 0⟩, s)
  else if inHost pva then (.error ⟨0x0A, 0⟩, s)
  else match s.ctxs.get? (th.ctx % 4096) with
    | none => (.error ⟨0x0A, 0⟩, s)
    | some c =>
      match s.translateAcc (th.ctx % 4096) c t pva acc with
      | (.error f, s1) => (.error f, s1)
      | (.ok x, s1) => if x.ease || x.window.isSome then (.error ⟨0x0A, x.ppa⟩, s1) else (.ok (x.dpa, x.ppa), s1)

/-- Whether a fence operation of a thread waits for a slice of the channels that its translation reads (R302). -/
def State.fenceHeld (s : State) (t : Nat) (th : Thread) (pva : Nat) : Bool :=
  match s.ctxs.get? (th.ctx % 4096) with
  | some c => s.walkHeld (th.ctx % 4096) c t pva 8
  | none => false

/-- fsig: a near atomic maximum with release ordering (R69). -/
def execFsig (t : Nat) (f : FmtE) (s : State) : Host.Outcome State Fault Refusal :=
  .next (issue t (firstCode [(badP f.a || badP f.b, 0x11), (nz f.d || fld f.ext.toNat 31 2 != 0, 0x12)])
    (usesPair f.a.toNat ++ usesPair f.b.toNat)
    (fun th s =>
      let pva := globalAddr th f.a.toNat f.imm 8
      if th.spec.isSome then s.holdClosure t
      else if s.fenceHeld t th pva then s
      else match s.release t (fld f.ext.toNat 1 0) with
        | (false, s1) => s1
        | (true, s1) =>
          match s1.fencePlace t th pva 4 with
          | (.error x, s2) => s2.threadFault t x.code 4 pva x.ppa
          | (.ok (dpa, ppa), s2) =>
            let word : Part := { dpa := dpa, ppa := ppa, len := 8, via := .uncached, got := none }
            if s2.clash t [word] then s1
            else (s2.advance t 8).enterAcc t th pva (.signal (th.pr f.b.toNat)) .none false 64 [word]) s)

/-- fwait: the thread waits for the word; FWAIT_SATISFIED lets it go (R71). -/
def execFwait (t : Nat) (f : FmtE) (s : State) : Host.Outcome State Fault Refusal :=
  .next (issue t (firstCode [(badP f.a || badP f.b || badV f.d, 0x11), (fld f.ext.toNat 31 2 != 0, 0x12)])
    (usesPair f.a.toNat ++ usesPair f.b.toNat ++ [.p f.d.toNat])
    (fun th s =>
      let pva := globalAddr th f.a.toNat f.imm 8
      if s.acquiring t || s.fenceHeld t th pva then s
      else match s.fencePlace t th pva 5 with
        | (.error x, s1) => s1.threadFault t x.code 4 pva x.ppa
        | (.ok x, s1) => (s1.modThread t (fun x => { x with wait := .fwait f.d.toNat pva (th.pr f.b.toNat) (fld f.ext.toNat 1 0) })).acquireAt s1 t
            th.launch (fld f.ext.toNat 1 0) (x.1 / 128)) s)

/-- The abandon flag of a fence word (R427). -/
def State.abandoned (s : State) (dpa : Nat) : Bool := dpa % 16 == 0 && (s.cohRead (dpa + 8) 1).testBit 0

/-- Whether another cache owns a line, so that a speculative read of it waits for the closure (Table 05-5). -/
def State.ownedElsewhere (s : State) (ship line : Nat) : Bool :=
  match s.dir.get? line with
  | some e => e.st != .S && !(vecBit e.vec ship)
  | none => false

/-- FWAIT_SATISFIED: the word has reached the target: the predicate takes the abandon flag and the thread goes on (R71, R73). The thread's own
earlier stores to the words come first: it waits for those still open, and sees those of its log (R56, R164). A poisoned word reads as
zero under TOLERATE and otherwise faults (R610). -/
def execFwaitSatisfied (t : Nat) (s : State) : Host.Outcome State Fault Refusal :=
  .next (match s.threads.get? t with
    | none => s
    | some th =>
      match th.wait with
      | .fwait p pva target _ =>
        if s.fenceHeld t th pva then s
        else match s.fencePlace t th pva 5 with
        | (.error x, s1) => (s1.setThread t { th with wait := .none }).threadFault t x.code 4 pva x.ppa
        | (.ok (dpa, ppa), s1) =>
          if !th.replay.isEmpty || th.raise.isSome || s1.spanHeld dpa 8 ||
            s1.clash t [{ dpa := dpa, ppa := ppa, len := if dpa % 16 = 0 then 16 else 8, via := .uncached, got := none }] ||
            (th.spec.isSome && s1.ownedElsewhere (shipOf t) (dpa / 128)) then s
          else
            let bad := s1.poisoned dpa
            if bad && !s1.launchTol th.launch then (s1.setThread t { th with wait := .none }).threadFault t 0x0B 4 pva ppa
            else
              let own := loggedStores th false
              let v := seenOver own pva 8 (if bad then 0 else s1.cohRead dpa 8)
              let flag := dpa % 16 == 0 && (seenOver own (pva + 8) 1 (if bad then 0 else s1.cohRead (dpa + 8) 1)).testBit 0
              if target ≤ v then
                let s2 := (s1.setThread t { th with wait := .none }).writeRegs t (Eff.pd th p flag)
                if s2.waits t then s2 else s2.advance t 8
              else s
      | _ => s)

/-! ### Barriers (R94) -/

/-- bar: the thread waits for the others of its section or township. -/
def execBar (t : Nat) (f : FmtA) (s : State) : Host.Outcome State Fault Refusal :=
  .next (issue t (firstCode [(nz f.d || nz f.a || nz f.b || fld f.md.toNat 7 2 != 0, 0x12), (decide (2 ≤ fld f.md.toNat 1 0), 0x13)]) []
    (fun th s => if th.spec.isSome then s.holdClosure t
      else s.setThread t { th with wait := .bar (fld f.md.toNat 1 0) }) s)

/-- Whether two threads meet at a bar of a scope: 0 section, 1 township. -/
def sameUnit (scope t u : Nat) : Bool := if scope = 0 then sectOf t == sectOf u else shipOf t == shipOf u

/-- BAR_RELEASE: every thread of the launch in the unit waits at a bar of the scope or has ended, and their accesses are
performed as that scope sees them (R61); all of them go on. -/
def execBarRelease (t : Nat) (s : State) : Host.Outcome State Fault Refusal :=
  .next (match s.threads.get? t with
    | none => s
    | some th =>
      match th.wait with
      | .bar scope =>
        let mates := s.threads.filter (fun e => e.2.launch == th.launch && sameUnit scope t e.1)
        if mates.all (fun e => e.2.wait == .bar scope && (s.quiet e.1 || s.quietNear e.1)) then
          mates.foldl (fun s e => (((s.passStores e.1).synced e.1 scope).modThread e.1 (fun x => { x with wait := .none })).advance e.1 4) s
        else s
      | _ => s)

/-! ### Events -/

/-- evpost: an event record with the code and the thread's number. -/
def execEvpost (t : Nat) (f : FmtI) (s : State) : Host.Outcome State Fault Refusal :=
  .next (issue t (firstCode [(nz f.d || nz f.a || nz f.b, 0x12)]) []
    (fun th s => if th.spec.isSome then s.holdClosure t
      else (s.ctxEvent (th.ctx % 4096) f.imm.toNat t 0).advance t 4) s)

/-! ### Control flow -/

/-- br: taken where d[3], or the predicate inverted by d[2]. -/
def execBr (t : Nat) (f : FmtI) (s : State) : Host.Outcome State Fault Refusal :=
  .next (issue t (firstCode [(nz f.a || nz f.b, 0x12)]) [.p (f.d.toNat % 4)]
    (fun th s =>
      if f.d.getLsbD 3 || (th.pred (f.d.toNat % 4) != f.d.getLsbD 2) then
        s.modThread t (fun x => { x with pc := x.pc + BitVec.ofInt 52 (f.imm.toInt * 4) })
      else s.advance t 4) s)

/-- jal: the address after the instruction to the pair, then the jump. -/
def execJal (t : Nat) (f : FmtE) (s : State) : Host.Outcome State Fault Refusal :=
  .next (regInstr t 8 (firstCode [(badP f.d, 0x11), (nz f.a || nz f.b || nz f.imm, 0x12)]) (usesPair f.d.toNat)
    (fun th => { Eff.pr f.d.toNat (th.pc + 8#52).toNat with pc := some (th.pc + BitVec.ofInt 52 (f.ext.toInt * 4)) }) s)

/-- jr: to the pair's address; bits [1:0] other than zero take ALIGN. -/
def execJr (t : Nat) (f : FmtA) (s : State) : Host.Outcome State Fault Refusal :=
  .next (issue t (firstCode [(badP f.a, 0x11), (nz f.d || nz f.b || nz f.md, 0x12)]) (usesPair f.a.toNat)
    (fun th s =>
      let target := th.pr f.a.toNat % 2 ^ 52
      if target % 4 ≠ 0 then s.threadFault t 0x08 3 target 0
      else s.modThread t (fun x => { x with pc := BitVec.ofNat 52 target })) s)

/-- end: the thread ends, and with it every layer for an origin thread (R40, R157); its scratchpad access completes first (R216). -/
def execEndThread (t : Nat) (f : FmtA) (s : State) : Host.Outcome State Fault Refusal :=
  .next (issue t (firstCode [(nz f.d || nz f.a || nz f.b || nz f.md, 0x12)]) []
    (fun th s => if th.spec.isSome then s.holdClosure t
      else if s.padBusy t then s
      else ({ s with threads := s.threads.erase t }).endLayers th.launch t 256) s)

/-- nop. -/
def execNopInstruction (t : Nat) (f : FmtA) (s : State) : Host.Outcome State Fault Refusal :=
  .next (issue t (firstCode [(nz f.d || nz f.a || nz f.b || nz f.md, 0x12)]) [] (fun _ s => s.advance t 4) s)

/-! ### Special registers (Table 03-15) -/

/-- A core's step counter after the steps that have passed, how many is open (R93). -/
def State.tickCore (s : State) (k : Nat) : State :=
  let (n, s1) := s.freshNat
  s1.setCore k { s1.core k with steps := ((s1.core k).steps + n) % 2 ^ 64 }

/-- The value of a special register. -/
def State.special (s : State) (t : Nat) (th : Thread) (sr : Nat) : W32 :=
  let steps := (s.core (coreOf t)).steps
  match sr with
  | 0 => BitVec.ofNat 32 steps
  | 1 => BitVec.ofNat 32 (steps / 2 ^ 32)
  | 2 => if th.spec.isSome then 1 else 0
  | 3 => (match s.launches.get? th.launch with | some l => BitVec.ofNat 32 (l.seq % 65536 + l.queue * 65536) | none => 0)
  | 4 => (match s.launches.get? th.launch with | some l => BitVec.ofNat 32 l.parcel | none => 0)
  | 5 => BitVec.ofNat 32 th.ctx
  | _ => th.gen

/-- rdsr.
(DESIGN CHOICE: log entry 14.) -/
def execRdsr (t : Nat) (sr : BitVec 6) (f : FmtA) (s : State) : Host.Outcome State Fault Refusal :=
  let s0 := if s.canIssue t && decide (sr.toNat < 2) then s.tickCore (coreOf t) else s
  .next (regInstr t 4 (firstCode [(decide (7 ≤ sr.toNat), 0x10), (nz f.a || nz f.b || nz f.md, 0x12)]) [.s f.d.toNat]
    (fun th => Eff.sc f.d.toNat (s0.special t th sr.toNat)) s0)

/-- wrsr: the stochastic rounding generator. -/
def execWrsr (t : Nat) (f : FmtA) (s : State) : Host.Outcome State Fault Refusal :=
  .next (regInstr t 4 (firstCode [(nz f.d || nz f.b || nz f.md, 0x12)]) [.s f.a.toNat]
    (fun th => { Eff.none with g := some (th.sr f.a.toNat) }) s)

/-! ### The end of a launch -/

/-- The payload of a launch's trace records.
(DESIGN CHOICE: log entry 83.) -/
def Launch.traceBytes (l : Launch) : List Byte := bytesOf 4 l.ctx ++ bytesOf 4 l.queue ++ bytesOf 4 l.seq

/-- What a launch leaves on its townships' dispatch units and sections, dropped. -/
def State.clearDispatch (s : State) (l : Launch) : State :=
  l.ships.foldl (fun s t =>
    { (s.modShip t (fun x => { x with hints := [], sentTok := [] })) with
      sections := s.sections.mapV (fun k x => if k / 64 = t then { x with layers := [], refused := [] } else x) }) s

/-- The result of a launch with a dispatch descriptor (R155). -/
def Launch.result (l : Launch) : Nat := if l.disp.isSome then l.dropped + l.spilled * 2 ^ 32 else 0

/-- LAUNCH_COMPLETE: no thread of the launch is left, every store, atomic and fence signal is performed, and COMBINE_FENCE is due no signal (R158); the command is
answered OK, or DATA_LOSS with the count of poisoned reads (R40, R410).
(DEDUCED: log entry 28.) -/
def execLaunchComplete (launch : Nat) (s : State) : Host.Outcome State Fault Refusal :=
  .next (match s.launches.get? launch with
    | none => s
    | some l =>
      let busy := s.threads.any (fun e => e.2.launch == launch) || s.accs.any (fun e => e.2.launch == launch && e.2.st != .done) ||
        s.sections.any (fun e => l.ships.contains (e.1 / 64) && e.2.reqs.any (fun r => 3 ≤ r.rank)) ||
        s.toks.any (fun m => m.kind == .tret && (match m.dst with | .agent t => l.ships.contains t | _ => false))
      if l.st != .placed || busy || s.signalDue launch l then s
      else
        let a : Answer := if l.poisoned = 0 then ⟨0, 0, l.result⟩ else ⟨0x50, l.poisoned, l.result⟩
        ((s.clearDispatch l).endLaunch launch a).trace 2 0 (l.ships.headD 0) l.traceBytes)

end Sys2Proof.Machine
end

