-- ==== Sys2Proof/Machine/Commands.lean ====
section
/-! DEFINITION. Command queues: the fetch, check, start and reply of command packets (R399 to R410), and the commands on contexts,
queues, groups, memory objects and fence objects (R417 to R428). -/

namespace Sys2Proof.Machine

/-! ### Packets (Tables 14-2, 14-5) -/

/-- Bytes [hi:lo] of a packet or structure held as a number. -/
def pb (p hi lo : Nat) : Nat := fld p (8 * hi + 7) (8 * lo)

def Cmd.opcode (c : Cmd) : Nat := fld c.pkt 11 0
def Cmd.seq (c : Cmd) : Nat := fld c.pkt 31 16
def Cmd.context (c : Cmd) : Nat := fld c.pkt 47 32
def Cmd.signalled (c : Cmd) : Bool := c.pkt.testBit 48
def Cmd.interrupts (c : Cmd) : Bool := c.pkt.testBit 50
def Cmd.tolerates (c : Cmd) : Bool := c.pkt.testBit 51

/-- Parameter bytes past PLEN read as zero (R408). -/
def packetMask (p : Nat) : Nat := p % 2 ^ (64 + 64 * fld p 14 12) % 2 ^ 512

/-- The queues that accept an opcode: 0 unassigned, 1 any, 2 context, 3 function; and whether only the PF may send it. -/
def opcodeKind (op : Nat) : Nat × Bool :=
  if op = 0x001 ∨ op = 0x002 ∨ op = 0x022 ∨ (0x030 ≤ op ∧ op ≤ 0x035) ∨ (0x060 ≤ op ∧ op ≤ 0x064) then (1, false)
  else if op = 0x003 ∨ (0x040 ≤ op ∧ op ≤ 0x043) ∨ (0x050 ≤ op ∧ op ≤ 0x053) then (2, false)
  else if (0x011 ≤ op ∧ op ≤ 0x016) ∨ op = 0x020 ∨ op = 0x021 then (3, false)
  else if op = 0x010 ∨ (0x070 ≤ op ∧ op ≤ 0x080) ∧ op ≠ 0x07A ∧ op < 0x07A ∨ op = 0x080 ∨ (0x090 ≤ op ∧ op ≤ 0x093) ∨
    op = 0x0A0 ∨ op = 0x0A1 then (3, true)
  else (0, false)

/-- Whether the field cores serve an opcode (Table 14-5). -/
def fwOpcode (op : Nat) : Bool :=
  decide (0x010 ≤ op ∧ op ≤ 0x014) || op == 0x020 || op == 0x021 || (decide (0x060 ≤ op) && (opcodeKind op).1 != 0)

/-- Barrier commands of Table 14-5. -/
def barrierOpcode (op : Nat) : Bool := fwOpcode op || op == 0x002 || op == 0x053

/-- Opcodes that act through the context that CONTEXT names; QUEUE_STOP and QUEUE_RESUME do with SCOPE 1 (R434). -/
def needsContext (op scope : Nat) : Bool :=
  ((op == 0x015 || op == 0x016) && scope == 1) || op == 0x002 || op == 0x013 || op == 0x021 || op == 0x022 || decide (0x030 ≤ op ∧ op ≤ 0x035) || decide (0x060 ≤ op ∧ op ≤ 0x064)

/-! ### Answers -/

def okAnswer : Answer := ⟨0, 0, 0⟩
def okResult (r : Nat) : Answer := ⟨0, 0, r⟩
/-- DEDUCED: log entry 61. -/
def badParam (pos : Nat) : Answer := ⟨0x11, pos, 0⟩
def noObject (pos : Nat) : Answer := ⟨0x20, pos, 0⟩
def status (c : Nat) : Answer := ⟨c, 0, 0⟩

/-- The first failing check of a list of (failed, position) pairs.
(DEDUCED: log entry 61.) -/
def firstBad (l : List (Bool × Nat)) : Option Nat := (l.find? (fun x => x.1)).map Prod.snd

/-- The first non-zero byte among reserved bytes of a packet: those of [63:8] that no field takes.
(DEDUCED: log entry 61.) -/
def reservedByte (p : Nat) (used : List (Nat × Nat)) : Option Nat :=
  ((upTo 56).map (· + 8)).find? (fun b => !(used.any (fun u => decide (u.1 ≤ b) && decide (b ≤ u.2))) && pb p b b != 0)

/-- A PVA field's reserved bits [63:52]. -/
def pvaHigh (p lo : Nat) : Bool := fld p (8 * lo + 63) (8 * lo + 52) != 0

/-- The checks that depend on a packet alone: reserved bytes and bits first, then ranges, in ascending byte offset.
(DEDUCED: log entry 61.) -/
def packetCheck (p : Nat) (used : List (Nat × Nat)) (bits ranges : List (Bool × Nat)) : Option Nat :=
  match reservedByte p used, firstBad bits with
  | some a, some b => some (min a b)
  | some a, none => some a
  | none, some b => some b
  | none, none => firstBad ranges

/-! ### Objects by handle (R418, R424) -/

/-- The generation that the next creation of a number takes: from its top back to 1. -/
def nextGen (g top : Nat) : Nat := if g < top then g + 1 else 1

/-- Keys of the generations of contexts, memory objects and fence objects. -/
def genKey (kind n : Nat) : Nat := kind * 2 ^ 24 + n

/-- The index of a memory object that a handle of a parcel names. -/
def State.objOf (s : State) (h parcel : Nat) : Option (Nat × MemObj) :=
  match s.objs.get? (h % 2 ^ 20) with
  | some o => if o.gen = h / 2 ^ 20 ∧ o.parcel = parcel ∧ h ≠ 0 then some (h % 2 ^ 20, o) else none
  | none => none

/-- Whether a fence handle names an object of a parcel. -/
def State.fenceOk (s : State) (h p : Nat) : Bool := match s.fenceOf h with | some (_, o) => o.parcel == p | none => false

/-- The weight set of an object. -/
def State.wset? (s : State) (n : Nat) : Option WeightSet := (s.objs.get? n).bind (fun o => o.wset)
def State.modWset (s : State) (n : Nat) (f : WeightSet → WeightSet) : State :=
  { s with objs := s.objs.modify n (fun o => { o with wset := o.wset.map f }) }

/-- The start of a command that names sets: their last use is now (R453). -/
def State.touchSets (s : State) (ns : List Nat) : State :=
  let (k, s1) := s.stamp
  ns.foldl (fun s n => s.modWset n (fun w => { w with use := k })) s1

/-! ### Requests being served -/

/-- A started command: its queue and index, function, named context, and packet. -/
structure Req where
  q   : Nat
  i   : Nat
  fn  : Nat
  ctx : Option (Nat × Context)
  pkt : Nat
  deriving DecidableEq, Repr

/-- The answer of a request. -/
def State.reply (s : State) (r : Req) (a : Answer) : State := s.answer r.q r.i a

/-- The command at an index of a queue. -/
def State.cmd? (s : State) (q i : Nat) : Option Cmd := (s.queues.get? q).bind (fun x => x.cmds.get? i)
def State.modCmd (s : State) (q i : Nat) (f : Cmd → Cmd) : State := s.modQueue q (fun x => { x with cmds := x.cmds.modify i f })

/-- A started command kept while it is served, with what it has to remember.
(DESIGN CHOICE: log entry 6.) -/
def State.keepServing (s : State) (r : Req) (d : List Nat) : State := s.modCmd r.q r.i (fun c => { c with st := .serving d })

/-- What a command of an opcode does once it has started; any other command is left alone. -/
def State.serve (s : State) (q i op : Nat) (f : Req → State) : State :=
  match s.queues.get? q with
  | none => s
  | some x =>
    match x.cmds.get? i with
    | none => s
    | some c =>
      if c.st = .started ∧ c.opcode = op then
        f ⟨q, i, x.fn, (s.ctxs.get? (c.context % 4096)).map (fun y => (c.context % 4096, y)), c.pkt⟩
      else s

/-- A command of an opcode that is being served, with what it remembers. -/
def State.serving (s : State) (q i op : Nat) (f : Req → List Nat → State) : State :=
  match s.queues.get? q with
  | none => s
  | some x =>
    match x.cmds.get? i with
    | none => s
    | some c =>
      match c.st with
      | .serving d =>
        if c.opcode = op then
          f ⟨q, i, x.fn, (s.ctxs.get? (c.context % 4096)).map (fun y => (c.context % 4096, y)), c.pkt⟩ d
        else s
      | _ => s

/-- A request through its named context; CONTEXT was checked when the command started. -/
def State.withCtx (s : State) (r : Req) (f : Nat → Context → State) : State :=
  match r.ctx with
  | some (n, c) => f n c
  | none => s.reply r (noObject 0xFFFF)

/-- What a command does with an entry of a table of the reserved range (Table 10-8) that it reads: on a FAILED channel the read is an
uncorrectable control error of the parcel (R298), which takes the cause of the cadastre (Table 21-2 gives the other tables none).
(DESIGN CHOICE: log entry 101.) -/
def State.tableRead (s : State) (off p : Nat) (k : State) : State :=
  if s.rsvLost off then s.parcelError 0x06 p (s.rsv off) 0 0 0 else k

/-- The same for a fence handle that a command may name. -/
def State.fenceRead (s : State) (h p : Nat) (k : State) : State := if h = 0 then k else s.tableRead (fenceOff (h % 2 ^ 20)) p k

/-! ### Rings (R400, R407) -/

/-- The loss of a context queue's context, or the stop of a function queue, after a ring access failed.
(DEDUCED: log entries 63, 64.) -/
def State.ringFail (s : State) (q : Nat) (code pva ppa : Nat) (fetch : Bool) : State :=
  match s.queues.get? q with
  | none => s
  | some x =>
    if x.ctx = 0 then
      (if fetch then (((s.setQueue q { x with dead := true }).fnEvent x.fn 0x8005 code).interrupt x.fn 0) else s)
    else
      let s1 := if fetch then s.setQueue q { x with dead := true } else s
      match s1.ctxOf x.ctx with
      | some c => if c.st = .live then s1.engineLoss (x.ctx % 4096) ⟨code, 5, pva, ppa, 0xFFFFFFFF⟩ else s1
      | none => s1

/-- The reply of an index written into its slot. -/
def State.putReply (s : State) (q i seq : Nat) (a : Answer) : State :=
  match s.queues.get? q with
  | none => s
  | some x =>
    let at_ := x.reply + 16 * (i % 2 ^ x.log2)
    let bs := bytesOf 2 seq ++ bytesOf 2 a.status ++ bytesOf 4 a.detail ++ bytesOf 8 a.result
    if x.ctx = 0 then s.hostPutRaw x.fn at_ bs
    else match s.ctxOf x.ctx with
      | none => s
      | some c =>
        match s.engineWrite c at_ bs (some 5) with
        | .ok s1 => s1
        | .error f => s.ringFail q f.code at_ f.ppa false

/-! ### Checks at the start of a command (R409) -/

/-- The parcel of a VF's binding, and its limits (GLB_VF_CFG_n). -/
def State.vfMaxCtx (s : State) (n : Nat) : Nat := s.fieldOf (Reg.glbVfCfg n) 28 16
def State.vfMaxQueues (s : State) (n : Nat) : Nat := s.fieldOf (Reg.glbVfCfg n) 46 32
def State.vfGroups (s : State) (n : Nat) : Nat := s.fieldOf (Reg.glbVfCfg n) 52 48

/-- The VF of the tenant while confidential mode is on (SEC_STATUS). -/
def State.tenant (s : State) : Nat := s.fieldOf Reg.secStatus 13 8

/-- Steps 1 to 5 of R409, and the answers that a device-class error gives (R563). -/
def State.startCheck (s : State) (x : Queue) (c : Cmd) : Option Answer :=
  let op := c.opcode
  let (kind, pf) := opcodeKind op
  let named := s.ctxOf c.context
  if kind = 0 then some ⟨0x10, op, 0⟩
  else if c.pkt.testBit 15 then some (badParam 1)
  else if fld c.pkt 63 52 ≠ 0 then some (badParam (if fld c.pkt 55 52 ≠ 0 then 6 else 7))
  else if x.ctx = 0 ∧ kind = 2 ∨ x.ctx ≠ 0 ∧ kind = 3 then some ⟨0x60, 1, 0⟩
  else if pf ∧ x.fn ≠ 0 ∧ ¬ (op = 0x079 ∧ s.confidential ∧ x.fn = s.tenant) then some ⟨0x60, 2, 0⟩
  else if x.ctx ≠ 0 ∧ c.context ≠ x.ctx then some (noObject 0xFFFF)
  else if x.ctx = 0 ∧ (c.context ≠ 0 ∨ needsContext op (pb c.pkt 8 8)) ∧
    ((named.map (fun y => y.fn != x.fn || y.st == .retiring)).getD true) = true then some (noObject 0xFFFF)
  else if s.bit Reg.rasStatus 0 ∧ x.ctx = 0 ∧ op ≠ 0x021 ∧ op ≠ 0x033 then some ⟨0xF0, s.fieldOf Reg.rasStatus 15 8, 0⟩
  else match named with
    | some y => if y.st = .lost ∧ op ≠ 0x021 ∧ op ≠ 0x033 then some ⟨0x40, (y.fault.map (fun f => f.code)).getD 0, 0⟩ else none
    | none => none

/-! ### Submission and fetch (R401, R402, R413, R424) -/

/-- The reference handles of a packet by opcode: positions of SRC_OBJ, DST_OBJ, OBJECT. -/
def refFields (p : Nat) : List Nat :=
  match fld p 11 0 with
  | 0x041 => [32, 36]
  | 0x042 => [32]
  | 0x043 => [12]
  | _ => []

/-- The launch extension of a packet read at submission (R413): its words, or the failure. -/
def State.readExt (s : State) (c : Context) (ext : Nat) : Except Xfault (Nat × Nat) :=
  match s.engineRead c ext 64 with
  | .error f => .error f
  | .ok (v, po) =>
    if po then .error ⟨0x0B, s.ppaAt c ext⟩
    else
      let n := min 64 (pb v 32 32)
      match s.engineRead c (ext + 64) (4 * n) with
      | .error f => .error f
      | .ok (w, po2) => if po2 then .error ⟨0x0B, s.ppaAt c (ext + 64)⟩ else .ok (v, w)

/-- The first position of an extension that breaks R608: REF_COUNT, then reserved bytes. -/
def badExt (v : Nat) : Option Nat :=
  if 64 < pb v 32 32 then some 32 else ((upTo 31).map (· + 33)).find? (fun b => pb v b b != 0)

/-- The address of the launch extension that a packet has read at its submission (R413): none for one that the checks of R409 turn away. -/
def Cmd.ext? (c : Cmd) : Option Nat :=
  let ext := pb c.pkt 63 56
  if c.opcode ≠ 0x040 ∨ ext = 0 ∨ ext % 64 ≠ 0 ∨ pvaHigh c.pkt 56 then none else some ext

/-- What the hub reads of a launch extension at submission: its first 64 bytes, then the handles that REF_COUNT counts. -/
def State.extRuns (s : State) (c : Context) (ext : Nat) : List (Nat × Nat) :=
  match s.engineRead c ext 64 with
  | .ok (v, _) => [(ext, 64), (ext + 64, 4 * min 64 (pb v 32 32))]
  | .error _ => [(ext, 64)]

/-- References of a command taken at its submission, once steps 1 to 5 of R409 pass; a stale handle is answered NO_OBJECT later and no reference is
taken. The extension of a launch stays with the command, its handles after its first 64 bytes.
(DEDUCED: log entry 63.) -/
def State.takeRefs (s : State) (q i : Nat) (x : Queue) (c : Cmd) : State :=
  match s.startCheck x c, s.ctxOf c.context with
  | none, some y =>
    let hs : Except Xfault (List (Nat × Nat) × Option Nat) :=
      match c.ext? with
      | none => .ok ((((refFields c.pkt).map (fun o => (pb c.pkt (o + 3) o, o))).filter (fun h => h.1 != 0)), none)
      | some ext =>
        match s.readExt y ext with
        | .error f => .error f
        | .ok (v, w) => if (badExt v).isSome then .ok ([], some v)
          else .ok (((upTo (pb v 32 32)).map (fun j => (pb w (4 * j + 3) (4 * j), 2 ^ 28 + 64 + 4 * j))).filter (fun h => h.1 != 0), some (v + w * 2 ^ 512))
    let s := match c.ext? with
      | some ext => (s.extRuns y ext).foldl (fun s r => s.engineAsk y r.1 r.2) s
      | none => s
    match hs with
    | .error f => s.engineLoss (c.context % 4096) ⟨f.code, 5, c.ext?.getD 0, f.ppa, 0xFFFFFFFF⟩
    | .ok (l, e) =>
      match l.find? (fun h => s.rsvLost (objOff (h.1 % 2 ^ 20))) with
      | some h => s.parcelError 0x06 y.parcel (s.rsv (objOff (h.1 % 2 ^ 20))) 0 0 0
      | none =>
      match l.find? (fun h => (s.objOf h.1 y.parcel).isNone) with
      | some (_, pos) => s.modCmd q i (fun c => { c with early := some (noObject pos), ext := e })
      | none =>
        let ns := l.map (fun h => h.1 % 2 ^ 20)
        (ns.foldl State.devRef s).modCmd q i (fun c => { c with refs := ns, ext := e })
  | _, _ => s

/-- The reads of a launch extension wait as an engine's do (R302, R384, R389), and the command with them. -/
def State.whenExt (s : State) (x : Queue) (c : Cmd) (k : State) : State :=
  match s.startCheck x c, c.ext?, s.ctxOf c.context with
  | none, some ext, some y => s.whenOpen y (s.extRuns y ext) k
  | _, _, _ => k

/-- The order of the doorbell write that submitted an index. -/
def Queue.subOf (x : Queue) : Nat :=
  ((x.subs.find? (fun e => decide (0 < (e.1 + 2 ^ 32 - x.fetch) % 2 ^ 32) && decide ((e.1 + 2 ^ 32 - x.fetch) % 2 ^ 32 < 2 ^ 31))).map Prod.snd).getD 0

/-- The packet that a fetch from a context's ring reads, as the host returns it for a ring in host memory; or the failure. -/
def State.ringRead (s : State) (c : Context) (at_ pkt : Nat) : Except Xfault Nat :=
  match s.engineRead c at_ 64 with
  | .error f => .error f
  | .ok (v, po) => if po then .error ⟨0x0B, s.ppaAt c at_⟩ else .ok (if inHost at_ then pkt % 2 ^ 512 else v)

/-- A fetch whose read is answered: the command at the fetch index taken in, and its references (R401, R402). -/
def State.fetched (s : State) (q : Nat) (x : Queue) (p : Nat) : State :=
  let c : Cmd := ⟨packetMask p, x.ordinal + 1, [], .fetched, x.subOf, 0, none, none⟩
  let i := x.fetch
  let nx := (x.fetch + 1) % 2 ^ 32
  let y : Queue := { x with fetch := nx, ordinal := x.ordinal + 1, cmds := x.cmds.set i c }
  s.whenExt x c ((s.setQueue q { y with subs := x.subs.filter (fun e => e.1 != nx) }).takeRefs q i x c)

/-- COMMAND_FETCH: the packet at the fetch index, which the host returns for a ring in host memory, asked for on the link (R42), and the hub reads itself
for one in device memory.
(DEDUCED: log entry 63.) -/
def execCommandFetch (q pkt : Nat) (s : State) : Host.Outcome State Fault Refusal :=
  .next (match s.queues.get? q with
    | none => s
    | some x =>
      if (x.dead && x.ctx == 0) || x.fetch == x.tail || x.cmds.has (x.fetch) ||
        ((x.ctx == 0 || inHost x.ring) && !s.hostOpen x.fn) then s
      else
        let at_ := x.ring + 64 * (x.fetch % 2 ^ x.log2)
        if x.ctx = 0 then (s.emit (.hostRead x.fn none at_ 64 noAcc)).fetched q x (pkt % 2 ^ 512)
        else match s.ctxOf x.ctx with
          | none => s.ringFail q 0x01 at_ 0 true
          | some c =>
            s.whenOpen c [(at_, 64)] (match s.ringRead c at_ pkt with
              | .error f => (s.engineAsk c at_ 64).ringFail q f.code at_ f.ppa true
              | .ok p => (s.engineAsk c at_ 64).fetched q x p))

/-- RING_FETCH_FAIL: a ring fetch takes an access fault or a completion timeout; a timeout has code HOST_ERROR.
(DEDUCED: log entry 64.) -/
def execRingFetchFail (q : Nat) (s : State) : Host.Outcome State Fault Refusal :=
  .next (match s.queues.get? q with
    | none => s
    | some x => if (x.dead && x.ctx == 0) || x.fetch == x.tail then s else s.ringFail q 0x09 (x.ring + 64 * (x.fetch % 2 ^ x.log2)) 0 true)

/-! ### Start (R405, R409) -/

/-- Commands that have not completed. -/
def Cmd.open_ (c : Cmd) : Bool :=
  match c.st with
  | .done _ => false
  | .replied => false
  | _ => true

/-- Whether a WORK has been sent to its engine (R433). -/
def Cmd.sent (c : Cmd) : Bool := match c.st with | .serving d => d.getD 2 0 == 1 | .done _ => true | .replied => true | _ => false

/-- The oldest fetched command of a queue that has not started. -/
def Queue.next? (x : Queue) : Option (Nat × Cmd) :=
  (x.cmds.filter (fun e => e.2.st == .fetched)).foldl (fun b e => match b with
    | some (_, c) => if e.2.ordinal < c.ordinal then some e else b
    | none => some e) none

/-- Whether commands of a queue have still to be fetched, so that the references of later ones come after theirs (R402): not once a fetch has failed.
(DEDUCED: log entry 63.) -/
def Queue.fetches (x : Queue) : Bool := !x.dead && x.fetch != x.tail

/-- The sequence commands, which take effect in the order of their queue (R184). -/
def seqOpcode (op : Nat) : Bool := decide (0x050 ≤ op) && decide (op ≤ 0x053)

/-- Whether the conditions of R402 and R405 let a command start; a sequence command waits for the earlier ones of its queue (R184). -/
def State.mayStart (s : State) (x : Queue) (c : Cmd) : Bool :=
  let before := x.cmds.filter (fun e => decide (e.2.ordinal < c.ordinal))
  (if barrierOpcode c.opcode || c.pkt.testBit 49 then before.all (fun e => !e.2.open_)
   else before.all (fun e => !(e.2.open_ && (e.2.opcode == 0x003 || (seqOpcode c.opcode && seqOpcode e.2.opcode) || (e.2.opcode == 0x043 && !e.2.sent))))) &&
  s.queues.all (fun e => !e.2.fetches || decide (c.order ≤ e.2.subOf))

/-- The records of the context that a command acts through and of its queue, read as it starts: on a FAILED channel that is an uncorrectable control
error of the context's parcel (R298, R611).
(DESIGN CHOICE: log entry 101.) -/
def State.recordRead (s : State) (q : Nat) (c : Cmd) (k : State) : State :=
  match s.ctxOf c.context, [ctxOff (c.context % 4096), queueOff q].find? s.recordLost with
  | some y, some off => s.parcelError 0x06 y.parcel (s.rsv off) 0 0 0
  | _, _ => k

/-- COMMAND_START: the next command of a queue starts, or completes with the first status that applies.
(DEDUCED: log entry 63.) -/
def execCommandStart (q : Nat) (s : State) : Host.Outcome State Fault Refusal :=
  .next (match s.queues.get? q with
    | none => s
    | some x =>
      match x.next? with
      | none => s
      | some (i, c) =>
        if x.st != .running || !s.mayStart x c || (x.ctx != 0 && !s.hostOpen x.fn) then s
        else match s.startCheck x c with
          | some a => s.answer q i a
          | none => s.recordRead q c (s.modCmd q i (fun c => { c with st := .started })))

/-! ### Replies and queue fences (R404, R406, R387) -/

/-- The queue fence raised to the highest ordinal whose command, and every earlier one, has completed. -/
def State.raiseQueueFence (s : State) (q : Nat) : State :=
  match s.queues.get? q with
  | none => s
  | some x =>
    let low := (x.cmds.filter (fun e => e.2.open_ || (match e.2.st with | .done _ => true | _ => false))).foldl
      (fun b e => min b e.2.ordinal) (x.ordinal + 1)
    let ready := x.signals.filter (fun o => decide (o < low))
    let s1 := s.setQueue q { x with signals := x.signals.filter (fun o => !decide (o < low)) }
    if ready.isEmpty then s1
    else match s1.fenceOf x.fence with
      | some (_, f) => s1.signalWord f.word (ready.foldl max 0)
      | none => s1

/-- The poison rule of a queue fence (R610): a command without TOLERATE whose fence word is poisoned loses the context. -/
def State.queueFencePoison (s : State) (x : Queue) (c : Cmd) : State :=
  match s.fenceOf x.fence with
  | some (_, f) =>
    if s.poisoned f.word && !c.tolerates then
      (match s.ctxOf x.ctx with
       | some y => if y.st = .live then s.loseCtx (x.ctx % 4096) ⟨0x0B, 4, f.pva, f.ppa, 0xFFFFFFFF⟩ else s
       | none => s)
    else s
  | none => s

/-- The first OK on the PF's function queue after a start-up that set DEGRADED is OK_DEGRADED with the DEGRADE bits (R542). -/
def State.degradedAnswer (s : State) (x : Queue) (a : Answer) : Answer × State :=
  if s.degraded && x.fn == 0 && x.ctx == 0 && a.status == 0 then
    ({ a with status := 1, detail := s.fieldOf Reg.glbCapacity 35 32 }, { s with degraded := false })
  else (a, s)

/-- Whether a command that completes with a status raises its queue's fence (R406). -/
def Cmd.raises (c : Cmd) (x : Queue) (a : Answer) : Bool := c.signalled && (a.status == 0 || a.status == 1 || a.status == 0x50) && x.fence != 0

/-- The reply of a command that has completed is written; its references drop, its fence and interrupt follow. -/
def State.writeReply (s : State) (q i : Nat) (x : Queue) (c : Cmd) (a : Answer) : State :=
  let raise := c.raises x a
  let s2 := (s.putReply q i c.seq a).modQueue q (fun y => { y with cmds := y.cmds.erase i, signals := if raise then y.signals ++ [c.ordinal] else y.signals })
  let s3 := if raise then s2.queueFencePoison x c else s2
  let s4 := (c.refs.foldl State.devDrop s3).raiseQueueFence q
  if c.interrupts then (if x.ctx = 0 then s4.interrupt x.fn 0 else if x.vector = 0xFFFF then s4 else s4.interrupt x.fn x.vector) else s4

/-- STATUS_REPLY: the reply of a completed command is written. -/
def execStatusReply (q i : Nat) (s : State) : Host.Outcome State Fault Refusal :=
  .next (match s.queues.get? q with
    | none => s
    | some x =>
      match x.cmds.get? i with
      | none => s
      | some c =>
        match c.st with
        | .done b => (s.degradedAnswer x b).2.writeReply q i x c (s.degradedAnswer x b).1
        | _ => s)

/-! ### NOP and fences -/

/-- NOP: parameters reserved; completes OK. -/
def execNop (q i : Nat) (s : State) : Host.Outcome State Fault Refusal :=
  .next (s.serve q i 0x001 (fun r => s.reply r (match packetCheck r.pkt [] [] [] with | some p => badParam p | none => okAnswer)))

/-- FENCE_SIGNAL (R417). -/
def execFenceSignal (q i : Nat) (s : State) : Host.Outcome State Fault Refusal :=
  .next (s.serve q i 0x002 (fun r => s.withCtx r (fun n c =>
    match packetCheck r.pkt [(8, 11), (16, 23)] [] [] with
    | some p => s.reply r (badParam p)
    | none =>
      s.tableRead (fenceOff (pb r.pkt 11 8 % 2 ^ 20)) c.parcel (match s.fenceOf (pb r.pkt 11 8) with
      | some (_, f) =>
        if f.parcel ≠ c.parcel then s.reply r (noObject 8)
        else if s.poisoned f.word then
          (if r.pkt.testBit 51 then s.reply r ⟨0x50, 1, 0⟩ else s.loseCtx n ⟨0x0B, 4, f.pva, f.ppa, 0xFFFFFFFF⟩)
        else (s.raiseWord f.word (pb r.pkt 23 16)).reply r okAnswer
      | none => s.reply r (noObject 8)))))

/-- FENCE_WAIT: checked, then waits (R417). -/
def execFenceWait (q i : Nat) (s : State) : Host.Outcome State Fault Refusal :=
  .next (s.serve q i 0x003 (fun r => s.withCtx r (fun _ c =>
    match packetCheck r.pkt [(8, 11), (16, 23)] [] [] with
    | some p => s.reply r (badParam p)
    | none =>
      s.tableRead (fenceOff (pb r.pkt 11 8 % 2 ^ 20)) c.parcel (match s.fenceOf (pb r.pkt 11 8) with
      | some (_, f) => if f.parcel ≠ c.parcel then s.reply r (noObject 8) else s.keepServing r [f.word, f.pva, f.ppa]
      | none => s.reply r (noObject 8)))))

/-- FENCE_WAIT_SATISFIED: the word has reached TARGET; the RESULT holds the abandon flag. -/
def execFenceWaitSatisfied (q i : Nat) (s : State) : Host.Outcome State Fault Refusal :=
  .next (s.serving q i 0x003 (fun r d => s.withCtx r (fun n _ =>
    let word := d.headD 0
    let tol := r.pkt.testBit 51
    if s.poisoned word && !tol then s.loseCtx n ⟨0x0B, 4, d.getD 1 0, d.getD 2 0, 0xFFFFFFFF⟩
    else if pb r.pkt 23 16 ≤ (if s.poisoned word then 0 else s.cohRead word 8) then
      s.reply r (if s.poisoned word then ⟨0x50, 1, 0⟩ else okResult (b2n (s.abandoned word)))
    else s)))

/-! ### Function queues and groups (R399, R421, R423) -/

/-- A queue with nothing fetched. -/
def Queue.blank (ctx fn group slot log2 ring reply : Nat) : Queue :=
  { ctx := ctx, fn := fn, group := group, slot := slot, log2 := log2, ring := ring, reply := reply, vector := 0xFFFF, prio := 0,
    fence := 0, fetch := 0, tail := 0, ordinal := 0, st := .running, grade := 0, dead := false, cmds := [], signals := [], subs := [] }

/-- The group of a function at a doorbell page. -/
def State.groupAt (s : State) (fn page : Nat) : Option Nat := (s.groups.find? (fun e => e.2.fn == fn && e.2.page == page)).map Prod.fst

/-- The queue in a slot of a group. -/
def State.queueAt (s : State) (g slot : Nat) : Option Nat := (s.queues.find? (fun e => e.2.group == g && e.2.slot == slot)).map Prod.fst

/-- FQ_CREATE: a VF's group 0 and function queue. -/
def execFqCreate (q i : Nat) (s : State) : Host.Outcome State Fault Refusal :=
  .next (s.serve q i 0x010 (fun r =>
    let p := r.pkt
    let n := pb p 8 8
    let ev := pb p 39 32
    match packetCheck p [(8, 8), (16, 41)] []
      [(n == 0 || decide (63 < n), 8), (pb p 23 16 % 4096 != 0, 16), (pb p 31 24 % 4096 != 0, 24), (ev % 4096 != 0, 32),
       (decide (pb p 40 40 < 4) || decide (15 < pb p 40 40), 40), (ev != 0 && (decide (pb p 41 41 < 4) || decide (16 < pb p 41 41)), 41)] with
    | some o => s.reply r (badParam o)
    | none =>
      if !s.vfBound n then s.reply r (noObject 8)
      else if s.queues.any (fun e => e.2.ctx == 0 && e.2.fn == n) then s.reply r (status 0x21)
      else if s.vfGroups n = 0 ∨ 4096 ≤ s.groups.length ∨ 16384 ≤ s.queues.length then s.reply r (status 0x30)
      else
        let g := s.groups.freeKey 4096
        let k := s.queues.freeKey 16384
        let s1 := { s with
          groups := s.groups.set g ⟨n, 0⟩
          queues := s.queues.set k (Queue.blank 0 n g 0 (pb p 40 40) (pb p 23 16) (pb p 31 24))
          fnEvents := if ev = 0 then s.fnEvents.erase n else s.fnEvents.set n ⟨ev, pb p 41 41, 0⟩ }
        s1.reply r okAnswer))

/-- GROUP_CREATE; a VF that is not bound creates none (R380).
(DESIGN CHOICE: log entry 109.) -/
def execGroupCreate (q i : Nat) (s : State) : Host.Outcome State Fault Refusal :=
  .next (s.serve q i 0x011 (fun r =>
    match packetCheck r.pkt [] [] [] with
    | some o => s.reply r (badParam o)
    | none =>
      let mine := (s.groups.filter (fun e => e.2.fn == r.fn)).length
      if r.fn ≠ 0 ∧ !s.vfBound r.fn then s.reply r (noObject 0)
      else if 4096 ≤ s.groups.length ∨ (r.fn ≠ 0 ∧ s.vfGroups r.fn ≤ mine) then s.reply r (status 0x30)
      else
        let g := (s.groups.freeFrom? 1 4096).getD 0
        let page := if r.fn = 0 then g else ((upTo 16).find? (fun k => (s.groupAt r.fn k).isNone)).getD 0
        ({ s with groups := s.groups.set g ⟨r.fn, page⟩ }).reply r (okResult (g + page * 2 ^ 16))))

/-- GROUP_DESTROY: group 0 of the function, and groups of another, are no object. -/
def execGroupDestroy (q i : Nat) (s : State) : Host.Outcome State Fault Refusal :=
  .next (s.serve q i 0x012 (fun r =>
    let g := pb r.pkt 9 8
    match packetCheck r.pkt [(8, 9)] [] [] with
    | some o => s.reply r (badParam o)
    | none =>
      match s.groups.get? g with
      | none => s.reply r (noObject 8)
      | some x =>
        if x.fn ≠ r.fn ∨ x.page = 0 then s.reply r (noObject 8)
        else if s.queues.any (fun e => e.2.group == g) then s.reply r (status 0x21)
        else ({ s with groups := s.groups.erase g }).reply r okAnswer))

/-- QUEUE_CREATE (R422). -/
def execQueueCreate (q i : Nat) (s : State) : Host.Outcome State Fault Refusal :=
  .next (s.serve q i 0x013 (fun r => s.withCtx r (fun n c =>
    let p := r.pkt
    let g := pb p 9 8
    let slot := pb p 10 10
    let v := pb p 13 12
    let f := pb p 35 32
    match packetCheck p [(8, 14), (16, 35)] [(pvaHigh p 16, 16), (pvaHigh p 24, 24)]
      [(decide (4095 < g), 8), (decide (15 < slot) || (r.fn == 0 && g == 0 && slot == 0), 10), (decide (pb p 11 11 < 4) || decide (15 < pb p 11 11), 11),
       (v != 0xFFFF && (v == 0 || decide ((if r.fn = 0 then 2047 else 63) < v)), 12), (decide (3 < pb p 14 14), 14),
       (pb p 23 16 % 4096 != 0, 16), (pb p 31 24 % 4096 != 0, 24)] with
    | some o => s.reply r (badParam o)
    | none =>
      s.fenceRead f c.parcel (if f ≠ 0 ∧ !s.fenceOk f c.parcel then s.reply r (noObject 32)
      else match s.groups.get? g with
        | none => s.reply r (noObject 8)
        | some x =>
          if x.fn ≠ r.fn then s.reply r (noObject 8)
          else if x.page = 0 ∧ slot = 0 then s.reply r (badParam 10)
          else if (s.queueAt g slot).isSome then s.reply r (status 0x21)
          else if 16384 ≤ s.queues.length ∨ (r.fn ≠ 0 ∧
              s.vfMaxQueues r.fn ≤ (s.queues.filter (fun e => e.2.fn == r.fn && e.2.ctx != 0)).length) then s.reply r (status 0x30)
          else
            let k := s.queues.freeKey 16384
            (s.setQueue k { Queue.blank (ctxHandle n c) r.fn g slot (pb p 11 11) (pb p 23 16) (pb p 31 24) with
              vector := v, prio := pb p 14 14, fence := f }).reply r (okResult k)))))

/-- The launches of a queue dropped with what was saved of them. -/
def State.dropQueueWork (s : State) (q : Nat) : State :=
  (s.launches.filter (fun e => e.2.queue == q)).foldl (fun s e => { (s.dropLaunch e.1) with launches := s.launches.erase e.1 }) s

/-- The WORK of a queue goes on at its engines with no command left to complete. -/
def State.orphanWorks (s : State) (q : Nat) : State :=
  { s with sites := s.sites.mapV (fun _ x => { x with works := x.works.mapV (fun _ w => if w.queue = q then { w with queue := 16384 } else w) }) }

/-- Every uncompleted command of a queue completes with an answer, and the reply of every command is written at once; those that completed before
raise the queue's fence (R406). -/
def State.flushQueue (s0 : State) (q : Nat) (a : Answer) : State :=
  let s := s0.orphanWorks q
  match s.queues.get? q with
  | none => s
  | some x => x.cmds.foldl (fun s e => s.writeReply q e.1 x e.2 (match e.2.st with | .done b => b | _ => a)) (s.dropQueueWork q)

/-- QUEUE_DESTROY (R423). -/
def execQueueDestroy (q i : Nat) (s : State) : Host.Outcome State Fault Refusal :=
  .next (s.serve q i 0x014 (fun r =>
    let k := pb r.pkt 9 8
    match packetCheck r.pkt [(8, 9)] [] [(decide (16383 < k), 8)] with
    | some o => s.reply r (badParam o)
    | none =>
      match s.queues.get? k with
      | none => s.reply r (noObject 8)
      | some x =>
        if x.fn ≠ r.fn ∨ x.ctx = 0 then s.reply r (noObject 8)
        else if x.st ≠ .stopped ∧ (x.cmds.any (fun e => e.2.open_) ∨ x.st = .stopping) then s.reply r (status 0x21)
        else
          let s1 := s.flushQueue k ⟨0x41, 0, 0⟩
          ({ s1 with queues := s1.queues.erase k }).reply r okAnswer))

/-! ### Contexts -/

/-- CTX_CREATE (R419); denied on the PF while confidential mode is on (Table 17-6). A VF that is not bound creates none (R380).
(DESIGN CHOICE: log entry 109.) -/
def execCtxCreate (q i : Nat) (s : State) : Host.Outcome State Fault Refusal :=
  .next (s.serve q i 0x020 (fun r =>
    let p := r.pkt
    let ev := pb p 39 32
    let parcel := if r.fn = 0 then pb p 8 8 else s.vfParcel r.fn
    let pasid := fld p 115 96
    match packetCheck p [(8, 8), (12, 40)] [(fld p 119 116 != 0, 12), (pb p 15 15 != 0, 15), (pvaHigh p 32, 32)]
      [(pb p 23 16 % 65536 != 0 || decide (2 ^ 48 ≤ pb p 23 16), 16), (pb p 31 24 % 4096 != 0, 24), (ev % 4096 != 0, 32),
       (ev != 0 && (decide (pb p 40 40 < 4) || decide (16 < pb p 40 40)), 40)] with
    | some o => s.reply r (badParam o)
    | none =>
      let mine := s.ctxs.filter (fun e => e.2.fn == r.fn)
      if s.confidential ∧ r.fn = 0 then s.reply r ⟨0x60, 0x10, 0⟩
      else if r.fn ≠ 0 ∧ !s.vfBound r.fn then s.reply r (noObject 8)
      else if 4096 ≤ s.ctxs.length ∨ (r.fn ≠ 0 ∧ s.vfMaxCtx r.fn ≤ mine.length) then s.reply r (status 0x30)
      else if !s.parcels.has parcel then s.reply r (noObject 8)
      else if mine.any (fun e => e.2.pasid == pasid) then s.reply r (status 0x21)
      else
        let n := s.ctxs.freeKey 4096
        let g := nextGen (s.gens.getD (genKey 0 n) 0) 15
        let c : Context := ⟨g, parcel, r.fn, pasid, pb p 23 16, pb p 31 24, if ev = 0 then none else some ⟨ev, pb p 40 40, 0⟩,
          .live, none, 0, [], 0⟩
        ({ (s.setCtx n c) with gens := s.gens.set (genKey 0 n) g }).reply r (okResult (ctxHandle n c))))

/-- XINV sent to every UP site of a context's parcel (R360).
(DEDUCED: log entries 46, 65.) -/
def State.sendXinv (s : State) (n : Nat) (c : Context) : State :=
  let sites := (((s.parcels.get? c.parcel).map (fun p => p.sites)).getD []).filter (fun k => s.fieldOf (Reg.siteStat k) 2 0 == 4)
  let s1 := sites.foldl (fun s k => (s.modSite k (fun x => { x with xinv := x.xinv.set n (x.xinv.getD n 0 + 1) })).txSend 680 k
    (txPacket 0x2E 1 (s.parcelTag k) 680 0 n 0 n [])) s
  s1.modCtx n (fun c => { c with xinv := c.xinv + sites.length })

/-- A context's cached translations removed from its parcel's townships (R51). -/
def State.dropTlb (s : State) (n : Nat) : State :=
  { s with ships := s.ships.mapV (fun _ x =>
    { x with tlb := x.tlb.filter (fun e => e.ctx != n), micro := x.micro.mapV (fun _ l => l.filter (fun e => e.ctx != n)) }) }

/-- Whether a CTX_INVALIDATE of a context that remembers the accesses made before it may complete: every XINVACK has come, and none of
those accesses, which may have used an old translation, is under way. -/
def State.invalidated (s : State) (n : Nat) (ids : List Nat) : Bool :=
  (s.ctxs.get? n).any (fun c => c.xinv == 0) && (s.stillOpen ids).isEmpty

/-- CTX_INVALIDATE: the caches are cleared; it completes once every XINVACK has come and the accesses already translated are complete
(R51). The event on a command that waits for them completes it. -/
def execCtxInvalidate (q i : Nat) (s : State) : Host.Outcome State Fault Refusal :=
  .next ((s.serving q i 0x022 (fun r d => if s.invalidated (d.headD 4096) (d.drop 1) then s.reply r okAnswer else s)).serve q i 0x022 (fun r =>
    s.withCtx r (fun n c =>
    match packetCheck r.pkt [] [] [] with
    | some o => s.reply r (badParam o)
    | none =>
      let ids := s.openIds (fun a => a.ctx % 4096 == n)
      let s1 := (s.dropTlb n).sendXinv n c
      if s1.invalidated n ids then s1.reply r okAnswer else s1.keepServing r (n :: ids))))

/-- Step 5 of Table 14-8: the fence objects a context owns abandoned, signalled and freed; how many. -/
def State.abandonFences (s : State) (n : Nat) : State :=
  (s.fences.filter (fun e => e.2.ctx == n)).foldl (fun s e =>
    let s1 := if s.poisoned e.2.word then s
      else (s.cohWrite (e.2.word + 8) (bytesOf 8 (s.cohRead (e.2.word + 8) 8 ||| 1))).raiseWord e.2.word (2 ^ 64 - 1)
    { s1 with fences := s1.fences.erase e.1 }) s

/-- Step 6: host references of a context dropped. -/
def State.dropHolds (s : State) (n : Nat) : State :=
  match s.ctxs.get? n with
  | none => s
  | some c => c.holds.foldl (fun s e =>
      ({ s with objs := s.objs.modify e.1 (fun o => { o with host := o.host - e.2 }) }).releaseIfFree e.1) (s.setCtx n { c with holds := [] })

/-- The queues of a context. -/
def State.ctxQueues (s : State) (h : Nat) : List Nat := (s.queues.filter (fun e => e.2.ctx == h)).map Prod.fst

/-- How many commands of a queue have not completed, fetched or not; a function queue that stopped at a ring failure will fetch none of
the rest (R407). -/
def Queue.uncompleted (x : Queue) : Nat :=
  (x.cmds.filter (fun e => e.2.open_)).length + (if x.dead && x.ctx == 0 then 0 else (x.tail + 2 ^ 32 - x.fetch) % 2 ^ 32)

/-- Replies ABORTED for commands that were never fetched: the hub reads each header for its SEQ and its INTERRUPT flag, which it cannot where the ring
lies in the host window while Bus Master Enable is 0 (R384). -/
def State.abortUnfetched (s : State) (q : Nat) : State :=
  match s.queues.get? q with
  | none => s
  | some x =>
    (upTo ((x.tail + 2 ^ 32 - x.fetch) % 2 ^ 32)).foldl (fun s k =>
      let i := (x.fetch + k) % 2 ^ 32
      let at_ := x.ring + 64 * (i % 2 ^ x.log2)
      match s.ctxOf x.ctx with
      | some c =>
        if inHost at_ && !s.hostOpen x.fn then s
        else match s.engineRead c at_ 8 with
          | .ok (h, _) => (s.engineAsk c at_ 8).writeReply q i x ⟨packetMask h, 0, [], .fetched, 0, 0, none, none⟩ ⟨0x42, 0, 0⟩
          | .error _ => s
      | none => s) (s.setQueue q { x with fetch := x.tail, subs := [] })

/-- WORK of a context outstanding at the sites: (site, key, work). -/
def State.worksOf (s : State) (n : Nat) : List (Nat × Nat × WorkOut) :=
  (s.sites.map (fun e => (e.2.works.filter (fun w => w.2.ctx == n)).map (fun w => (e.1, w.1, w.2)))).flatten

/-- A WORK that keeps running takes over the device references of its command (step 6 of Table 14-8). -/
def State.leaveRefs (s : State) (n k : Nat) (w : WorkOut) : State :=
  let refs := ((s.cmd? w.queue w.idx).map (fun c => c.refs)).getD []
  (s.modCmd w.queue w.idx (fun c => { c with refs := [] })).modSite n (fun x => { x with works := x.works.modify k (fun o => { o with refs := refs }) })

/-- Steps 1 to 3 of Table 14-8 for a context; a WORK is cancelled where its site advertises CANCEL (BLK_CAPS bit 13), and otherwise
keeps running. -/
def State.retireStop (s : State) (n : Nat) (c : Context) : State :=
  let h := ctxHandle n c
  let s1 := s.setCtx n { c with st := .retiring }
  let ls := (s1.launches.filter (fun e => e.2.ctx == h)).map Prod.fst
  let s2 := ls.foldl (fun s l => { (s.dropLaunch l) with launches := s.launches.erase l }) s1
  let s3 := (s2.worksOf n).foldl (fun s w =>
    if ((s.site w.1).sb.getD 8 0).toNat.testBit 13 then
      (s.modSite w.1 (fun x => { x with works := x.works.modify w.2.1 (fun o => { o with cancel := true }) })).txSend 680 w.1
        { txPacket 0x2A 1 (s.parcelTag w.1) 680 w.2.2.engine w.2.1 0 0 [] with who := 672 + w.1 }
    else s.leaveRefs w.1 w.2.1 w.2.2) s2
  (s3.ctxQueues h).foldl (fun s q => (s.abortUnfetched q).flushQueue q ⟨0x42, 0, 0⟩) s3

/-- Sequences of a context retired (R198): left to the cadastre. -/
def State.retireFinish (s : State) (n : Nat) : State :=
  match s.ctxs.get? n with
  | none => s
  | some c =>
    let h := ctxHandle n c
    let s1 := (s.abandonFences n).dropHolds n
    { s1 with queues := s1.queues.keep (fun _ x => x.ctx != h), ctxs := s1.ctxs.erase n }

/-! ### Memory objects (R424, R425) -/

/-- Host references of a context to an object changed. -/
def State.holdAdd (s : State) (n k cnt : Nat) : State :=
  ({ s with objs := s.objs.modify k (fun o => { o with host := o.host + cnt }) }).modCtx n (fun c =>
    { c with holds := c.holds.set k (c.holds.getD k 0 + cnt) })

/-- MEM_CREATE. -/
def execMemCreate (q i : Nat) (s : State) : Host.Outcome State Fault Refusal :=
  .next (s.serve q i 0x030 (fun r => s.withCtx r (fun n c =>
    let p := r.pkt
    let base := pb p 15 8
    let size := pb p 23 16
    let f := pb p 27 24
    match packetCheck p [(8, 27), (32, 39)] [] [(base % 4096 != 0, 8), (size == 0 || size % 4096 != 0, 16)] with
    | some o => s.reply r (badParam o)
    | none =>
      s.fenceRead f c.parcel (if f ≠ 0 ∧ !s.fenceOk f c.parcel then s.reply r (noObject 24)
      else if 2 ^ 20 ≤ s.objs.length then s.reply r (status 0x30)
      else if 2 ^ 48 < base + size ∨ !((upTo ((base + size - 1) / 2 ^ 30 + 1 - base / 2 ^ 30)).all (fun g =>
          (s.platEntry c.parcel (base / 2 ^ 30 + g) none).testBit 0)) then s.reply r (badParam 8)
      else if 16384 ≤ c.holds.length then s.reply r (status 0x30)
      else
        let k := s.objs.freeKey (2 ^ 20)
        let g := nextGen (s.gens.getD (genKey 1 k) 0) 4095
        let s1 := { s with objs := s.objs.set k ⟨g, c.parcel, base, size, 0, 0, f, pb p 39 32, none⟩, gens := s.gens.set (genKey 1 k) g }
        (s1.holdAdd n k 1).reply r (okResult (k + g * 2 ^ 20))))))

/-- MEM_HOLD. -/
def execMemHold (q i : Nat) (s : State) : Host.Outcome State Fault Refusal :=
  .next (s.serve q i 0x031 (fun r => s.withCtx r (fun n c =>
    let cnt := pb r.pkt 15 12
    match packetCheck r.pkt [(8, 15)] [] [] with
    | some o => s.reply r (badParam o)
    | none =>
      s.tableRead (objOff (pb r.pkt 11 8 % 2 ^ 20)) c.parcel (match s.objOf (pb r.pkt 11 8) c.parcel with
      | none => s.reply r (noObject 8)
      | some (k, o) =>
        let s := s.touchSets [k]
        if cnt = 0 then s.reply r okAnswer
        else if 2 ^ 32 ≤ o.host + cnt then s.reply r (badParam 12)
        else if !c.holds.has k && decide (16384 ≤ c.holds.length) then s.reply r (status 0x30)
        else (s.holdAdd n k cnt).reply r okAnswer))))

/-- MEM_FREE. -/
def execMemFree (q i : Nat) (s : State) : Host.Outcome State Fault Refusal :=
  .next (s.serve q i 0x032 (fun r => s.withCtx r (fun n c =>
    let cnt := pb r.pkt 15 12
    match packetCheck r.pkt [(8, 15)] [] [] with
    | some o => s.reply r (badParam o)
    | none =>
      s.tableRead (objOff (pb r.pkt 11 8 % 2 ^ 20)) c.parcel (match s.objOf (pb r.pkt 11 8) c.parcel with
      | none => s.reply r (noObject 8)
      | some (k, _) =>
        let s := s.touchSets [k]
        let have_ := c.holds.getD k 0
        if have_ < cnt then s.reply r (badParam 12)
        else
          let s1 := s.modCtx n (fun c => { c with holds := if have_ = cnt then c.holds.erase k else c.holds.set k (have_ - cnt) })
          (({ s1 with objs := s1.objs.modify k (fun o => { o with host := o.host - cnt }) }).releaseIfFree k).reply r okAnswer))))

/-- MEM_QUERY. -/
def execMemQuery (q i : Nat) (s : State) : Host.Outcome State Fault Refusal :=
  .next (s.serve q i 0x033 (fun r => s.withCtx r (fun _ c =>
    match packetCheck r.pkt [(8, 11)] [] [] with
    | some o => s.reply r (badParam o)
    | none =>
      s.tableRead (objOff (pb r.pkt 11 8 % 2 ^ 20)) c.parcel (match s.objOf (pb r.pkt 11 8) c.parcel with
      | none => s.reply r (noObject 8)
      | some (k, o) => (s.touchSets [k]).reply r (okResult (o.host % 2 ^ 32 + o.dev % 2 ^ 32 * 2 ^ 32))))))

/-! ### Fence objects (R426, R428) -/

/-- FENCE_CREATE. -/
def execFenceCreate (q i : Nat) (s : State) : Host.Outcome State Fault Refusal :=
  .next (s.serve q i 0x034 (fun r => s.withCtx r (fun n c =>
    let pva := pb r.pkt 15 8
    match packetCheck r.pkt [(8, 23)] [(pvaHigh r.pkt 8, 8)] [(pva % 16 != 0, 8)] with
    | some o => s.reply r (badParam o)
    | none =>
      match s.fenceWord c none pva 4 with
      | .error f => s.reply r ⟨0x11, f.code, 0⟩
      | .ok dpa =>
        if 2 ^ 20 ≤ s.fences.length then s.reply r (status 0x30)
        else
          let k := s.fences.freeKey (2 ^ 20)
          let g := nextGen (s.gens.getD (genKey 2 k) 0) 4095
          let s1 := s.cohWrite dpa (bytesOf 8 (pb r.pkt 23 16) ++ bytesOf 8 0)
          ({ s1 with fences := s1.fences.set k ⟨g, n, c.parcel, pva, s.ppaAt c pva, dpa⟩, gens := s1.gens.set (genKey 2 k) g }).reply r
            (okResult (k + g * 2 ^ 20)))))

/-- FENCE_FREE: the object leaves its owner and neither word is written. -/
def execFenceFree (q i : Nat) (s : State) : Host.Outcome State Fault Refusal :=
  .next (s.serve q i 0x035 (fun r => s.withCtx r (fun n c =>
    match packetCheck r.pkt [(8, 11)] [] [] with
    | some o => s.reply r (badParam o)
    | none =>
      s.tableRead (fenceOff (pb r.pkt 11 8 % 2 ^ 20)) c.parcel (match s.fenceOf (pb r.pkt 11 8) with
      | some (k, f) => if f.ctx ≠ n then s.reply r (noObject 8) else ({ s with fences := s.fences.erase k }).reply r okAnswer
      | none => s.reply r (noObject 8)))))

end Sys2Proof.Machine
end

