-- ==== Sys2Proof/Machine/Cadastre.lean ====
section
/-! DEFINITION. Sequences, the cadastre and the gather engine (chapter 06), and the retirement of a context (R420). -/

namespace Sys2Proof.Machine

/-! ### A parcel's cadastre configuration -/

/-- Page size in bytes (R177). -/
def State.pageSize (s : State) (p : Nat) : Nat := 32768 * 2 ^ s.fieldOf (Reg.cadPCtrl p) 2 0
def State.poolPpa (s : State) (p : Nat) : Nat := s.fieldOf (Reg.cadPPool p) 47 0
def State.frameCount (s : State) (p : Nat) : Nat := s.fieldOf (Reg.cadPFrames p) 24 0
def State.growthFloor (s : State) (p : Nat) : Nat := s.fieldOf (Reg.cadPFrames p) 56 32
def State.entryBase (s : State) (p : Nat) : Nat := s.fieldOf (Reg.cadPEntries p) 21 0
def State.entryCount (s : State) (p : Nat) : Nat := s.fieldOf (Reg.cadPEntries p) 54 32
def State.seqBase (s : State) (p : Nat) : Nat := s.fieldOf (Reg.cadPSeqs p) 13 0
def State.seqCount (s : State) (p : Nat) : Nat := s.fieldOf (Reg.cadPSeqs p) 46 32

/-- Tokens per page of a token size (R179). -/
def State.tpp (s : State) (p shift : Nat) : Nat := s.pageSize p / 2 ^ shift

/-- The gather streams that have not ended: those that run, and those of saved townships. -/
def Township.running (x : Township) : List Stream :=
  (x.streams.map Prod.snd ++ ((x.image.map (fun im => im.streams.map Prod.snd)).getD [])).filter (fun y => !y.ended)
def State.streamIds (s : State) : List Nat := (s.ships.map (fun e => e.2.running.map (fun y => y.id))).flatten

/-- Frames in use: attached to a sequence, or still read by a stream that started before the release (R197). -/
def State.usedFrames (s : State) (p : Nat) : List Nat :=
  (s.cad.filterMap (fun e => match s.seqs.get? e.2.seq with
    | some q => if q.parcel = p then e.2.frame else none
    | none => none)) ++
  (s.freeing.filter (fun f => f.parcel == p && f.streams.any (fun i => s.streamIds.contains i))).map (fun f => f.frame)

/-- Free frames of a parcel's pool. -/
def State.freeFrames (s : State) (p : Nat) : List Nat := (upTo (s.frameCount p)).filter (fun f => !(s.usedFrames p).contains f)

/-- n frames out of a list, which ones being open, and the free values used.
(DESIGN CHOICE: log entry 31.) -/
def pickFrames : Nat → Nat → List Nat → List Nat
  | 0, _, _ => []
  | n + 1, k, fs =>
    match fs[Config.freeNat k % fs.length]? with
    | some f => f :: pickFrames n (k + 1) (fs.eraseIdx (Config.freeNat k % fs.length))
    | none => []

/-- DESIGN CHOICE: log entry 31. -/
def State.takeFrames (s : State) (n : Nat) (fs : List Nat) : List Nat × State :=
  (pickFrames n s.free fs, { s with free := s.free + n })

/-- Frames attached to the entries of a sequence from a logical page on. -/
def State.attach (s : State) (n : Nat) (steps page : Nat) (fs : List Nat) : State :=
  match s.seqs.get? n with
  | none => s
  | some q =>
    { s with
      cad := (fs.zipIdx).foldl (fun c (x : Nat × Nat) => c.set (q.cbase + page + x.2) ⟨n, some x.1, steps % 2 ^ 32⟩) s.cad
      seqs := s.seqs.set n { q with backed := page + fs.length } }

/-! ### The townships' cadastre caches (R207, R208) -/

/-- Cached lines that hold a changed entry dropped in every township of a parcel. -/
def State.cadInvalidate (s : State) (p : Nat) (entries : List Nat) : State :=
  let lines := (entries.map (fun e => e / 8)).eraseDups
  (((s.parcels.get? p).map (fun x => x.ships)).getD []).foldl (fun s t =>
    let hit := (s.ship t).cad.filter (fun e => lines.contains e.1)
    (s.modShip t (fun x => { x with cad := x.cad.keep (fun l _ => !lines.contains l) })).transit (Reg.cadCnt t 3) hit.length) s

/-- A line put into a township's cache: eight ways in each of eight sets, the least recently used making room. -/
def State.cadFill (s : State) (t line : Nat) : State :=
  let (k, s1) := s.stamp
  s1.modShip t (fun x =>
    let same := x.cad.filter (fun e => e.1 % 8 == line % 8 && e.1 != line)
    let old := same.foldl (fun (b : Option (Nat × Nat)) e => match b with
      | some y => if e.2 < y.2 then some e else b
      | none => some e) none
    let c := if same.length < 8 then x.cad else (match old with | some o => x.cad.erase o.1 | none => x.cad)
    { x with cad := c.set line k })

/-- A line of entries fetched: one HBM read of 128 bytes. On a FAILED channel the read is an uncorrectable control error of the parcel (R182, R298). -/
def State.cadFetch (s : State) (t p line : Nat) : State :=
  if s.rsvLost (cadOff (8 * line)) then s.parcelError 0x06 p (s.rsv (cadOff (8 * line))) 0 0 0
  else (s.countRead t (s.rsv (cadOff (8 * line))) 128).cadFill t line

/-- A lookup of an entry: a hit or a miss; in the last entry of a line the next line of the run is fetched too. -/
def State.cadLookup (s : State) (t p entry last : Nat) : State :=
  let line := entry / 8
  let s1 := if (s.ship t).cad.has line then (s.transit (Reg.cadCnt t 0) 1).cadFill t line else (s.transit (Reg.cadCnt t 1) 1).cadFetch t p line
  if entry % 8 = 7 ∧ line + 1 ≤ last / 8 ∧ (s1.ship t).cad.has line ∧ !(s1.ship t).cad.has (line + 1) then
    (s1.transit (Reg.cadCnt t 2) 1).cadFetch t p (line + 1)
  else s1

/-- A command of the hardware queue engine that reads table entries at these offsets: on a FAILED channel a read is an uncorrectable control error of
the parcel (R182, R298). -/
def State.tableReads (s : State) (offs : List Nat) (p : Nat) (k : State) : State :=
  match offs.find? s.rsvLost with
  | some off => s.parcelError 0x06 p (s.rsv off) 0 0 0
  | none => k

/-! ### Release (R196 to R198) -/

/-- What the release of a sequence reads: its table entry, and the entries of its backed pages for their frames.
(DESIGN CHOICE: log entry 113.) -/
def State.seqReads (s : State) (n : Nat) : List Nat :=
  match s.seqs.get? n with
  | some q => seqOff n :: (upTo q.backed).map (fun k => cadOff (q.cbase + k))
  | none => [seqOff n]

/-- A sequence released: its entries and table entry free, its frames free once no earlier stream reads them.
(DESIGN CHOICE: log entry 116.) -/
def State.releaseSeq (s : State) (n : Nat) : State :=
  match s.seqs.get? n with
  | none => s
  | some q =>
    let run := ceilDiv q.max (s.tpp q.parcel q.shift)
    let es := (upTo run).map (fun k => q.cbase + k)
    let fs := es.filterMap (fun e => (s.cad.get? e).bind (fun x => x.frame))
    let held := fs.map (fun f => (⟨q.parcel, f,
      ((s.ships.map (fun e => (e.2.running.filter (fun y => y.frames.contains f && y.seq == n)).map (fun y => y.id))).flatten)⟩ : Freeing))
    ({ s with cad := s.cad.keep (fun e _ => !es.contains e), seqs := s.seqs.erase n,
              freeing := s.freeing ++ held.filter (fun (f : Freeing) => !f.streams.isEmpty) }).cadInvalidate q.parcel es

def batchKey (p b : Nat) : Nat := p * 256 + b
def State.batch (s : State) (p b : Nat) : Batch := s.batches.getD (batchKey p b) ⟨false, 0⟩

/-- A live sequence retired: at once, or at the step closure of its batch's open step. -/
def State.retireSeq (s : State) (n : Nat) : State :=
  match s.seqs.get? n with
  | none => s
  | some q =>
    match q.st with
    | .leaving => s
    | .joining => s.releaseSeq n
    | .running => if (s.batch q.parcel q.batch).open_ then { s with seqs := s.seqs.set n { q with st := .leaving } } else s.releaseSeq n

/-- What the retirement of a sequence reads: its release, where it is released at once.
(DESIGN CHOICE: log entry 113.) -/
def State.retireReads (s : State) (n : Nat) : List Nat :=
  match s.seqs.get? n with
  | some q => if q.st = .joining ∨ (q.st = .running ∧ !(s.batch q.parcel q.batch).open_) then s.seqReads n else [seqOff n]
  | none => [seqOff n]

/-! ### SEQ_ADMIT and SEQ_RETIRE -/

/-- The lowest entry at which a run of n free entries starts. -/
def State.entryRun (s : State) (p n : Nat) : Option Nat :=
  ((upTo (s.entryCount p + 1 - n)).map (fun k => s.entryBase p + k)).find? (fun b => !(s.cad.any (fun e => decide (b ≤ e.1) && decide (e.1 < b + n))))

/-- The lowest free sequence number of a parcel. -/
def State.freeSeq (s : State) (p : Nat) : Option Nat := s.seqs.freeFrom? (s.seqBase p) (s.seqBase p + s.seqCount p)

/-- SEQ_ADMIT (R185 to R187).
(DESIGN CHOICE: log entry 113.) -/
def execSeqAdmit (q i : Nat) (s : State) : Host.Outcome State Fault Refusal :=
  .next (s.serve q i 0x050 (fun r => s.withCtx r (fun n c =>
    let p := r.pkt
    let mx := pb p 11 8
    let prompt := pb p 15 12
    let sh := pb p 21 21
    match packetCheck p [(8, 21), (24, 27)] [] [(mx == 0 || decide (mx < prompt), 8), (decide (sh < 6) || decide (19 < sh), 21)] with
    | some o => s.reply r (badParam o)
    | none =>
      if s.pageSize c.parcel < 2 ^ sh then s.reply r (badParam 21)
      else
        let tpp := s.tpp c.parcel sh
        let need := ceilDiv mx tpp
        let f := min (ceilDiv (prompt + pb p 19 16) tpp) need
        let free := s.freeFrames c.parcel
        let avail := free.length - s.growthFloor c.parcel
        match s.freeSeq c.parcel, s.entryRun c.parcel need with
        | some sn, some cb =>
          if avail < f then s.reply r ⟨0x31, 1 + min (f - avail) (2 ^ 24 - 1) * 256, 0⟩
          else s.tableReads (seqOff sn :: (upTo need).map (fun k => cadOff (cb + k))) c.parcel (
            let ord := s.orders.getD c.parcel 0
            let q : Seq := ⟨.joining, pb p 20 20, sh, c.parcel, cb, mx, 0, 0, prompt, 0, ord, pb p 27 24, ctxHandle n c⟩
            let (fs, s1) := s.takeFrames f free
            let s2 := { s1 with
              seqs := s1.seqs.set sn q
              orders := s1.orders.set c.parcel ((ord + 1) % 2 ^ 32)
              cad := (upTo need).foldl (fun c k => c.set (cb + k) ⟨sn, none, 0⟩) s1.cad }
            let s3 := s2.attach sn (s2.batch c.parcel q.batch).steps 0 fs
            (s3.cadInvalidate c.parcel ((upTo need).map (fun k => cb + k))).reply r (okResult (sn + ord * 2 ^ 32)))
        | sn, cb => s.reply r ⟨0x31, b2n (decide (avail < f)) + 2 * b2n cb.isNone + 4 * b2n sn.isNone +
            min (f - avail) (2 ^ 24 - 1) * 256, 0⟩)))

/-- SEQ_RETIRE (R195, R196). -/
def execSeqRetire (q i : Nat) (s : State) : Host.Outcome State Fault Refusal :=
  .next (s.serve q i 0x051 (fun r => s.withCtx r (fun _ c =>
    match packetCheck r.pkt [(8, 9)] [(fld r.pkt 79 78 != 0, 9)] [] with
    | some o => s.reply r (badParam o)
    | none =>
      let n := fld r.pkt 77 64
      s.tableReads (s.retireReads n) c.parcel (match s.seqs.get? n with
      | some x => if x.parcel ≠ c.parcel then s.reply r (noObject 8) else (s.retireSeq n).reply r okAnswer
      | none => s.reply r (noObject 8)))))

/-! ### Steps (R189 to R194) -/

/-- A sequence put at its place in ascending ORDER. -/
def orderInsert (e : Nat × Seq) : List (Nat × Seq) → List (Nat × Seq)
  | [] => [e]
  | f :: r => if e.2.order < f.2.order then e :: f :: r else f :: orderInsert e r

/-- The sequences of a batch that a step visits, in ascending ORDER. -/
def State.stepSeqs (s : State) (p b : Nat) : List Nat :=
  let l := s.seqs.filter (fun e => e.2.parcel == p && e.2.batch == b && e.2.st != .leaving)
  (l.foldl (fun r e => orderInsert e r) []).map Prod.fst

/-- The slot list entries of a sequence that appends tokens `lo` to `hi` − 1: page by page (R191).
(DESIGN CHOICE: log entry 32.) -/
def State.slotEntries (s : State) (n : Nat) (q : Seq) (flags lo hi : Nat) : List (List Byte) :=
  let tpp := s.tpp q.parcel q.shift
  ((upTo (ceilDiv hi tpp)).filter (fun k => decide (max lo (k * tpp) < min hi ((k + 1) * tpp)))).map (fun k =>
    let a := max lo (k * tpp)
    let b := min hi ((k + 1) * tpp)
    let f := ((s.cad.get? (q.cbase + k)).bind (fun x => x.frame)).getD 0
    bytesOf 2 n ++ bytesOf 1 flags ++ bytesOf 1 0 ++ bytesOf 4 a ++ bytesOf 2 (b - a) ++
      bytesOf 6 (f * s.pageSize q.parcel + a % tpp * 2 ^ q.shift))

/-- What STEP_OPEN has done so far: the state, the list entries, the stalled and the appending sequences, and the changed
cadastre entries. -/
structure StepAcc where
  s       : State
  slots   : List (List Byte)
  stalled : Nat
  appends : Nat
  changed : List Nat
  deriving DecidableEq, Repr

/-- One sequence of a step (R189, R190).
(DESIGN CHOICE: log entry 32.) -/
def stepSeq (p grow : Nat) (a : StepAcc) (n : Nat) : StepAcc :=
  match a.s.seqs.get? n with
  | none => a
  | some q =>
    let tpp := a.s.tpp p q.shift
    let want := if q.st = .joining then q.prompt else min (q.tokens + grow) q.max
    let full := q.st == .running && want == q.max && decide (want < q.tokens + grow)
    let need := ceilDiv want tpp - q.backed
    let free := a.s.freeFrames p
    let joined := b2n (q.st == .joining)
    if free.length < need then
      let tp := q.tokens / tpp
      let (v, s1) := a.s.freshNat
      let off := match (s1.cad.get? (q.cbase + tp)).bind (fun x => x.frame) with
        | some f => f * s1.pageSize p + q.tokens % tpp * 2 ^ q.shift
        | none => v % 2 ^ 48
      let e := bytesOf 2 n ++ bytesOf 1 (2 + 4 * b2n full) ++ bytesOf 1 0 ++ bytesOf 4 q.tokens ++ bytesOf 2 0 ++ bytesOf 6 off
      { a with s := { s1 with seqs := s1.seqs.set n { q with ptokens := q.tokens } }, slots := a.slots ++ [e], stalled := a.stalled + 1 }
    else
      let (fs, s1) := a.s.takeFrames need free
      let s2 := s1.attach n (s1.batch p q.batch).steps q.backed fs
      let q2 := (s2.seqs.get? n).getD q
      let q3 := { q2 with st := .running, ptokens := want }
      let es := s2.slotEntries n q3 (joined + 4 * b2n full) q.tokens want
      { s := { s2 with seqs := s2.seqs.set n q3 }, slots := a.slots ++ es, stalled := a.stalled,
        appends := a.appends + (if es.isEmpty then 0 else 1),
        changed := a.changed ++ (upTo need).map (fun k => q.cbase + q.backed + k) }

/-- The table entries that STEP_OPEN reads: those of the batch's sequences, and of their pages up to the first without a frame.
(DESIGN CHOICE: log entry 113.) -/
def State.stepReads (s : State) (p b : Nat) : List Nat :=
  ((s.stepSeqs p b).map (fun n => match s.seqs.get? n with
    | some q => seqOff n :: (upTo (min (q.backed + 1) (ceilDiv q.max (s.tpp q.parcel q.shift)))).map (fun k => cadOff (q.cbase + k))
    | none => [])).flatten

/-- STEP_OPEN: the whole step is computed first; too long a list changes nothing (R191).
(DEDUCED: log entry 33.) -/
def execStepOpen (q i : Nat) (s : State) : Host.Outcome State Fault Refusal :=
  .next (s.serve q i 0x052 (fun r => s.withCtx r (fun n c =>
    let p := r.pkt
    let b := pb p 8 8
    let list := pb p 23 16
    match packetCheck p [(8, 8), (12, 27)] [(pvaHigh p 16, 16)] [(list % 16 != 0, 16), (pb p 27 24 == 0, 24)] with
    | some o => s.reply r (badParam o)
    | none =>
      if (s.batch c.parcel b).open_ then s.reply r (status 0x21)
      else s.tableReads (s.stepReads c.parcel b) c.parcel (
        let a := (s.stepSeqs c.parcel b).foldl (stepSeq c.parcel (pb p 15 12)) ⟨s, [], 0, 0, []⟩
        if pb p 27 24 < a.slots.length then s.reply r (badParam a.slots.length)
        else
          let s1 := { a.s with batches := a.s.batches.set (batchKey c.parcel b) ⟨true, (a.s.batch c.parcel b).steps⟩ }
          match (if a.slots.isEmpty then .ok s1 else s1.engineWrite c list a.slots.flatten) with
          | .error f => s.engineLoss n ⟨f.code, 1, list, f.ppa, 0xFFFFFFFF⟩
          | .ok s2 => (s2.cadInvalidate c.parcel a.changed).reply r
              (okResult (min a.slots.length (2 ^ 32 - 1) + min a.stalled 65535 * 2 ^ 32 + min a.appends 65535 * 2 ^ 48))))))

/-- STEP_CLOSE: requested, of the step now open; the closure follows once its conditions hold (R193). -/
def execStepClose (q i : Nat) (s : State) : Host.Outcome State Fault Refusal :=
  .next (s.serve q i 0x053 (fun r => s.withCtx r (fun _ c =>
    match packetCheck r.pkt [(8, 8)] [] [] with
    | some o => s.reply r (badParam o)
    | none =>
      let b := s.batch c.parcel (pb r.pkt 8 8)
      if b.open_ then s.keepServing r [b.steps] else s.reply r (noObject 8))))

/-- Whether a launch of a parcel holds a pending speculation, in its townships or in their save images. -/
def State.specPending (s : State) (p : Nat) : Bool :=
  let of_ (ln : Nat) (threads : Tbl Thread) (sections : Tbl SectionSt) (ledger : Tbl Copy) : Bool :=
    threads.any (fun t => t.2.launch == ln && t.2.spec.isSome) || sections.any (fun x => x.2.records.any (fun r => r.launch == ln && r.spec)) ||
    ledger.any (fun y => y.2.launch == ln && y.2.spec)
  s.launches.any (fun l => l.2.parcel == p &&
    (of_ l.1 s.threads s.sections [] || s.ships.any (fun x => of_ l.1 [] [] x.2.ledger ||
      (match x.2.image with | some im => of_ l.1 im.threads im.sections [] | none => false))))

/-- STEP_CLOSURE: tokens become final, leaving sequences are released, and the step count rises (R194). A STEP_CLOSE whose step another queue's has
closed meanwhile names a batch with no such step open.
(DESIGN CHOICE: log entry 113.) -/
def execStepClosure (q i : Nat) (s : State) : Host.Outcome State Fault Refusal :=
  .next (s.serving q i 0x053 (fun r d => s.withCtx r (fun _ c =>
    let b := pb r.pkt 8 8
    let old := s.batch c.parcel b
    if !old.open_ || d.headD 0 != old.steps then s.reply r (noObject 8)
    else if s.specPending c.parcel then s
    else
      let mine := s.seqs.filter (fun e => e.2.parcel == c.parcel && e.2.batch == b)
      s.tableReads (mine.map (fun e => if e.2.st = .leaving then s.seqReads e.1 else [seqOff e.1])).flatten c.parcel (
      let s1 := { s with seqs := s.seqs.mapV (fun _ x =>
        if x.parcel = c.parcel ∧ x.batch = b ∧ x.st = SeqSt.running then { x with tokens := x.ptokens } else x) }
      let s2 := (mine.filter (fun e => e.2.st == .leaving)).foldl (fun s e => s.releaseSeq e.1) s1
      ({ s2 with batches := s2.batches.set (batchKey c.parcel b) ⟨false, old.steps + 1⟩ }).reply r okAnswer))))

/-! ### The gather engine (R199 to R205) -/

/-- The grid index of a section of a launch: t × GRID_S + s. -/
def Launch.gridSection (l : Launch) (ship sec : Nat) : Nat := (l.ships.findIdx (fun x => x == ship)) * l.gs + sec

/-- The launch that runs on a township. -/
def State.launchOn (s : State) (t : Nat) : Option (Nat × Launch) :=
  s.launches.find? (fun e => e.2.ships.contains t && (e.2.st == .placed || e.2.st == .stopping))

/-- The number of rows and the STATUS of a stream at its bound (R201, R202).
(DESIGN CHOICE: log entry 114.) -/
def State.streamBound (s : State) (p item : Nat) : Nat × Nat × Option Seq :=
  let first := pb item 7 4
  let cnt := pb item 11 8
  if !item.testBit 15 || cnt == 0 then (0, 1, none)
  else if pb item 13 12 == 0 then (0, 1 + 2, none)
  else match s.seqs.get? (fld item 13 0) with
    | some q =>
      if q.parcel = p ∧ q.st ≠ .joining then
        let b := if item.testBit 14 then q.ptokens else q.tokens
        let rows := min (first + cnt) b - first
        (rows, 1 + (if rows < cnt then 2 else 0), some q)
      else (0, 1 + 2 + 4, none)
    | none => (0, 1 + 2 + 4, none)

/-- GATHER_STREAM_START: the stream of a section takes its bound, and writes ROWS and then STATUS in its control block, before any chunk (R202). -/
def execGatherStreamStart (ship sec : Nat) (s : State) : Host.Outcome State Fault Refusal :=
  .next (match s.launchOn ship with
    | none => s
    | some (ln, l) =>
      match l.gather with
      | none => s
      | some g =>
        if (s.ship ship).streams.has sec || l.gs ≤ sec || l.st != .placed then s
        else
          let item := g.items.getD (l.gridSection ship sec) 0
          let (rows, st, q) := s.streamBound l.parcel item
          let (id, s1) := s.stamp
          let k := ship * 64 + sec
          let s2 := (s1.padEngine k 1 ln (g.ctrl + 8) 4 rows true).padEngine k 1 ln (g.ctrl + 12) 1 st true
          let y : Stream := match q with
            | some q =>
              let tpp := s.tpp q.parcel q.shift
              let frames := (upTo q.backed).filterMap (fun pg => if pb item 7 4 / tpp ≤ pg ∧ pg * tpp < pb item 7 4 + rows then
                (s.cad.get? (q.cbase + pg)).bind (fun x => x.frame) else none)
              ⟨ln, id, fld item 13 0, pb item 7 4, rows, 0, pb item 13 12, pb item 3 2, 0, frames, q.cbase, ceilDiv q.max tpp, q.shift,
                s.pageSize q.parcel, s.poolPpa q.parcel, st, decide (rows = 0)⟩
            | none => ⟨ln, id, fld item 13 0, pb item 7 4, 0, 0, 0, 0, 0, [], 0, 0, 0, 0, 0, st, true⟩
          s2.modShip ship (fun x => { x with streams := x.streams.set sec y }))

/-- A section's stream, as it stands. -/
def State.stream? (s : State) (ship sec : Nat) : Option Stream := (s.ship ship).streams.get? sec

/-- The PPA of a row of a stream, through the frame of its page. -/
def Stream.rowPpa (x : Stream) (row : Nat) : Nat :=
  let tpp := x.size / 2 ^ x.shift
  let tok := x.first + row
  x.pool + x.frames.getD (tok / tpp - x.first / tpp) 0 * x.size + tok % tpp * 2 ^ x.shift + 64 * x.off

/-- The lookup of the page of a row, where the stream enters it (R206). -/
def State.enterPage (s : State) (ship sec : Nat) (l : Launch) (x : Stream) (row : Nat) : State :=
  let page := (x.first + row) / (x.size / 2 ^ x.shift)
  if x.page ≤ page then (s.cadLookup ship l.parcel (x.cbase + page) (x.cbase + x.run - 1)).modShip ship (fun h =>
    { h with streams := h.streams.modify sec (fun y => { y with page := page + 1 }) })
  else s

/-- One row of a stream given to its section's banks for a local address; a poisoned row is zeros under TOLERATE, and sets POISON (R205).
(DESIGN CHOICE: log entry 115.) -/
def State.gatherRow (s : State) (ship sec : Nat) (l : Launch) (g : GatherDesc) (row loc : Nat) : State :=
  match s.stream? ship sec with
  | none => s
  | some x =>
    let s1 := s.enterPage ship sec l x row
    let ppa := x.rowPpa row
    let k := ship * 64 + sec
    let n := 64 * x.len
    if !(s1.ship ship).streams.has sec then s1
    else match s1.platResolve l.parcel (some ship) ppa false with
      | .error e =>
        let s2 := if e.code = 0x0C then s1.parcelError 0x07 l.parcel 0 0 0 0 else s1
        s2.engineLoss (l.ctx % 4096) ⟨e.code, 0, 0, ppa, 0xFFFFFFFF⟩
      | .ok d =>
        if (upTo (n / 64)).any (fun j => s1.poisoned (d.dpa + 64 * j)) then
          (if l.tol then
            let st := x.status ||| 8
            let s2 := (s1.padEngine k 1 x.launch loc n 0 false).padEngine k 1 x.launch (g.ctrl + 12) 1 st false
            let s3 := s2.modShip ship (fun h => { h with streams := h.streams.modify sec (fun y => { y with status := st }) })
            ((s3.modLaunch x.launch (fun y => { y with poisoned := satAdd 32 y.poisoned 1 })).transit (Reg.cadCnt ship 4) 1).transit (Reg.cadCnt ship 5) 1
           else s1.loseCtx (l.ctx % 4096) ⟨0x0B, 0, 0, ppa, 0xFFFFFFFF⟩)
        else
          ((s1.countSpan ship none false 33 d.dpa n).padEngine k 1 x.launch loc n (s1.cohRead d.dpa n) false).transit (Reg.cadCnt ship 4) 1

/-- Whether a row of a stream waits for a slice of the channel that its data, or its page's entry on a miss, lies on (R302). -/
def State.rowHeld (s : State) (ship : Nat) (l : Launch) (x : Stream) (row : Nat) : Bool :=
  let page := (x.first + row) / (x.size / 2 ^ x.shift)
  let entry := x.cbase + page
  (decide (x.page ≤ page) && !(s.ship ship).cad.has (entry / 8) && s.channelHeld (s.channelOf (s.rsv (cadOff (8 * (entry / 8)))))) ||
  (match s.platResolve l.parcel (some ship) (x.rowPpa row) false with
   | .ok d => s.spanHeld d.dpa (64 * x.len)
   | .error _ => false)

/-- Whether the gather engine has writes left in a section's banks. -/
def SectionSt.gathering (x : SectionSt) : Bool := x.reqs.any (fun r => r.rank == 1)

/-- GATHER_CHUNK: the next chunk of a section's stream goes to the banks while the ring has room, and READY is raised after its last byte (R203). A stream
goes on to its bound although its sequence is released meanwhile (R197, R201). -/
def execGatherChunk (ship sec : Nat) (s : State) : Host.Outcome State Fault Refusal :=
  .next (match s.launchOn ship, s.stream? ship sec with
    | some (ln, l), some x =>
      match l.gather with
      | some g =>
        let k := ship * 64 + sec
        let taken := min (s.spm.readN (spKey k (g.ctrl + 4)) 4) x.chunk
        let per := g.units / x.len
        let c := x.chunk
        if x.ended || x.launch != ln || (s.sect k).gathering || g.chunks ≤ c - taken then s
        else
          let rows := (upTo per).filter (fun j => decide (c * per + j < x.rows))
          if rows.any (fun j => s.rowHeld ship l x (c * per + j)) then s else
          let s1 := rows.foldl (fun s j => s.gatherRow ship sec l g (c * per + j) (g.ring + c % g.chunks * g.units * 64 + j * x.len * 64)) s
          if (s1.stream? ship sec).isNone then s1
          else
            (s1.padEngine k 1 ln g.ctrl 4 (c + 1) true).modShip ship (fun h => { h with streams := h.streams.modify sec (fun y =>
              { y with chunk := c + 1, ended := decide (x.rows ≤ (c + 1) * per) }) })
      | none => s
    | _, _ => s)

/-! ### CTX_RETIRE (Table 14-8) -/

/-- Steps 4 to 7 of a retirement, its XINVs acknowledged, and the RESULT of R420.
(DEDUCED: log entry 65.) -/
def State.retireEnd (s : State) (n : Nat) (r : Req) (d : List Nat) : State :=
  match s.ctxs.get? n with
  | none => s.reply r okAnswer
  | some c =>
    let h := ctxHandle n c
    let s1 := (s.seqs.filter (fun e => e.2.ctx == h)).foldl (fun s e => s.tableReads (s.retireReads e.1) e.2.parcel (s.retireSeq e.1)) s
    let fences := (s1.fences.filter (fun e => e.2.ctx == n)).length
    let refs := (c.holds.map Prod.snd).sum
    let s2 := { s1 with objs := s1.objs.mapV (fun _ o => { o with wset := o.wset.map (fun (w : WeightSet) => if w.sctx = h then { w with source := 0 } else w) }) }
    (s2.retireFinish n).reply r (okResult (min (d.getD 1 0) 65535 + min fences 65535 * 2 ^ 16 + min refs 65535 * 2 ^ 32 +
      min (d.getD 2 0) 65535 * 2 ^ 48))

/-- CTX_RETIRE: steps 1 to 3, then XINV; the rest once every site of the parcel has acknowledged it (R360). -/
def execCtxRetire (q i : Nat) (s : State) : Host.Outcome State Fault Refusal :=
  .next (s.serve q i 0x021 (fun r => s.withCtx r (fun n c =>
    match packetCheck r.pkt [] [] [] with
    | some o => s.reply r (badParam o)
    | none =>
      let aborted := ((s.ctxQueues (ctxHandle n c)).map (fun k => ((s.queues.get? k).map Queue.uncompleted).getD 0)).sum
      let left := ((s.worksOf n).filter (fun w => !((s.site w.1).sb.getD 8 0).toNat.testBit 13)).length
      let s1 := ((s.retireStop n c).dropTlb n).sendXinv n c
      let d := [n, aborted, left]
      if (s1.ctxs.get? n).any (fun c => c.xinv == 0) then s1.retireEnd n r d else s1.keepServing r d)))

/-- The commands that waited for a context's XINVACKs go on (R360).
(DEDUCED: log entry 65.) -/
def State.xinvDone (s : State) (n : Nat) : State :=
  s.queues.foldl (fun s e => e.2.cmds.foldl (fun s x =>
    match x.2.st with
    | .serving d =>
      if d.headD 4096 = n ∧ x.2.opcode = 0x022 then (if s.invalidated n (d.drop 1) then s.answer e.1 x.1 okAnswer else s)
      else if d.headD 4096 = n ∧ x.2.opcode = 0x021 then s.retireEnd n ⟨e.1, x.1, e.2.fn, none, x.2.pkt⟩ d
      else s
    | _ => s) s) s

end Sys2Proof.Machine
end

