-- ==== Sys2Proof/Machine/Scheduler.lean ====
section
/-! DEFINITION. Weight sets, launches and their placement, the copy engines, foreign work, and pre-emption (chapter 15, R413 to R416,
R608). -/

namespace Sys2Proof.Machine

/-! ### Weight sets (R450 to R456) -/

/-- Bays of the weight pool that no set holds. -/
def State.freeBays (s : State) : List Nat :=
  s.poolBays.filter (fun b => !(s.objs.any (fun o => match o.2.wset with | some w => w.bays.contains b | none => false)))

/-- A set that a load may evict (R453). -/
def MemObj.evictable (o : MemObj) : Bool :=
  match o.wset with
  | some w => w.resident && !w.loading && w.pins == 0 && o.dev == 0
  | none => false

/-- A resident set evicted: the easement's granules become absent, then its bays are free; a reload in progress is abandoned. -/
def State.evictSet (s : State) (n : Nat) : State :=
  match s.wset? n with
  | none => s
  | some w =>
    let s1 := { s with eases := s.eases.modify w.ease (fun e => { e with map := [] }),
                       poison := s.poison.mapV (fun p v => if w.bays.contains (p / 16384) then 0 else v) }
    (if w.resident then s1.addWrap Reg.cmdWpoolStat 63 48 1 else s1).modWset n (fun w => { w with bays := [], resident := false })

/-- Sets evicted in order of least recent use until n bays are free. -/
def State.makeBays (s : State) (need : Nat) : Nat → State
  | 0 => s
  | k + 1 =>
    if need ≤ s.freeBays.length then s
    else
      match (s.objs.filter (fun o => o.2.evictable)).foldl (fun (b : Option (Nat × Nat)) o =>
          let u := (o.2.wset.map (fun (w : WeightSet) => w.use)).getD 0
          match b with
          | some x => if u < x.2 then some (o.1, u) else b
          | none => some (o.1, u)) none with
      | some (n, _) => (s.evictSet n).makeBays need k
      | none => s

/-- The reads of a set's SOURCE over the host link, with the PASID of the context that registered it (R451); a sealed one holds 65,600 bytes for each
page (R506). -/
def State.readSource (s : State) (w : WeightSet) : State :=
  match s.ctxOf w.sctx with
  | some c =>
    let n := if w.sealed then w.size / 65536 * 65600 else w.size
    s.hostGet c.fn c.pasid (n / 4096 + 2) (hostAddr c w.source) n
  | none => s

/-- Whether a read of a set's SOURCE still waits for its translation. -/
def State.sourceWaits (s : State) (w : WeightSet) : Bool := (s.ctxOf w.sctx).any (fun c => s.readWaits c.fn c.pasid)

/-- A load of an absent set begun (R451, R453, R456): the bays taken and the reads of its source sent, or why not. -/
def State.loadSet (s : State) (n : Nat) : Except Answer State :=
  match s.wset? n with
  | none => .error (noObject 8)
  | some w =>
    if w.source = 0 then .error (noObject 8)
    else
      let need := ceilDiv w.size (2 ^ 30)
      let evict := ((s.objs.filter (fun o => o.2.evictable)).map (fun o => ((o.2.wset.map (fun (w : WeightSet) => w.bays)).getD []).length)).sum
      let have_ := s.freeBays.length + evict
      if have_ < need then .error ⟨0x30, need - have_, 0⟩
      else
        let s1 := s.makeBays need (s.objs.length + 1)
        .ok ((s1.modWset n (fun w => { w with bays := s1.freeBays.take need, loading := true })).readSource w)

/-- The references of a request. -/
def State.refsOf (s : State) (r : Req) : List Nat := ((s.cmd? r.q r.i).map (fun c => c.refs)).getD []

/-- The position of the handle by which a request names an object (Table 14-10). -/
def State.handlePos (s : State) (r : Req) (n : Nat) : Nat :=
  let words := (refFields r.pkt).map (fun o => (pb r.pkt (o + 3) o, o)) ++ (match (s.cmd? r.q r.i).bind (fun c => c.ext) with
    | some v => (upTo (min 64 (pb v 32 32))).map (fun j => (pb v (67 + 4 * j) (64 + 4 * j), 2 ^ 28 + 64 + 4 * j))
    | none => [])
  ((words.find? (fun h => h.1 != 0 && h.1 % 2 ^ 20 == n)).map Prod.snd).getD 8

/-- A command goes on once every set it names is resident: else the first absent one is loaded, and the command waits (R455).
What its rule fixed at submission is answered first. -/
def State.withSets (s : State) (r : Req) (f : State → State) : State :=
  match (s.cmd? r.q r.i).bind (fun c => c.early) with
  | some a => s.reply r a
  | none =>
    let ns := s.refsOf r
    let s1 := s.touchSets ns
    match ns.find? (fun n => match s1.wset? n with | some w => !w.resident | none => false) with
    | none => f s1
    | some n =>
      match s1.wset? n with
      | some w =>
        if w.loading then s1.keepServing r [0xF002, n]
        else match s1.loadSet n with
          | .ok s2 => s2.keepServing r [0xF002, n]
          | .error a => s1.reply r (if a.status = 0x20 then noObject (s.handlePos r n) else a)
      | none => f s1

/-- WSET_REGISTER. -/
def execWsetRegister (q i : Nat) (s : State) : Host.Outcome State Fault Refusal :=
  .next (s.serve q i 0x060 (fun r => s.withCtx r (fun n c =>
    let p := r.pkt
    let src := pb p 15 8
    let size := pb p 23 16
    let e := pb p 25 24
    match packetCheck p [(8, 26)] [(pvaHigh p 8, 8)]
      [(src % 65536 != 0 || !inHost src, 8), (size == 0 || size % 65536 != 0, 16), (decide (255 < e), 24), (decide (1 < pb p 26 26), 26)] with
    | some o => s.reply r (badParam o)
    | none =>
      let mapped := (match s.parcels.get? c.parcel with | some x => x.eases.any (fun y => y.2 == e) | none => false)
      match (if mapped then s.eases.get? e else none) with
      | none => s.reply r (noObject 24)
      | some x =>
        if x.size * 2 ^ 30 < size then s.reply r (badParam 16)
        else if x.wset ≠ 0 then s.reply r (status 0x21)
        else if 2 ^ 20 ≤ s.objs.length ∨ 16384 ≤ c.holds.length then s.reply r (status 0x30)
        else
          let k := s.objs.freeKey (2 ^ 20)
          let g := nextGen (s.gens.getD (genKey 1 k) 0) 4095
          let h := k + g * 2 ^ 20
          let w : WeightSet := ⟨src, ctxHandle n c, size, e, pb p 26 26 == 1, [], false, false, 0, 0⟩
          let s1 := { s with objs := s.objs.set k ⟨g, c.parcel, 0, size, 0, 0, 0, 0, some w⟩, gens := s.gens.set (genKey 1 k) g,
                             eases := s.eases.set e { x with wset := h } }
          (s1.holdAdd n k 1).reply r (okResult h))))

/-- A command on a weight-set handle. -/
def State.onWset (s : State) (q i op : Nat) (f : Req → Nat → MemObj → WeightSet → State) : State :=
  s.serve q i op (fun r => s.withCtx r (fun _ c =>
    match packetCheck r.pkt [(8, 11)] [] [] with
    | some o => s.reply r (badParam o)
    | none =>
      s.tableRead (objOff (pb r.pkt 11 8 % 2 ^ 20)) c.parcel (match s.objOf (pb r.pkt 11 8) c.parcel with
      | some (k, o) =>
        match o.wset with
        | some w => f r k o w
        | none => s.reply r (noObject 8)
      | none => s.reply r (noObject 8))))

/-- WSET_LOAD: an absent set takes bays and is read; RESULT holds the bays used. -/
def execWsetLoad (q i : Nat) (s : State) : Host.Outcome State Fault Refusal :=
  .next (s.onWset q i 0x061 (fun r k _ w =>
    let s1 := s.touchSets [k]
    if w.resident then s1.reply r (okResult w.bays.length)
    else if w.loading then s1.keepServing r [0xF001, k]
    else match s1.loadSet k with
      | .ok s2 => s2.keepServing r [0xF001, k]
      | .error a => s1.reply r a))

/-- WSET_PIN: loads an absent set first; the count goes up to 255 (R452).
(DEDUCED: log entry 123.) -/
def execWsetPin (q i : Nat) (s : State) : Host.Outcome State Fault Refusal :=
  .next (s.onWset q i 0x062 (fun r k _ w =>
    let s1 := s.touchSets [k]
    if w.resident then (s1.modWset k (fun w => { w with pins := satAdd 8 w.pins 1 })).reply r okAnswer
    else if w.loading then s1.keepServing r [0xF001, k]
    else match s1.loadSet k with
      | .ok s2 => s2.keepServing r [0xF001, k]
      | .error a => s1.reply r a))

/-- WSET_UNPIN. -/
def execWsetUnpin (q i : Nat) (s : State) : Host.Outcome State Fault Refusal :=
  .next (s.onWset q i 0x063 (fun r k _ w =>
    let s1 := s.touchSets [k]
    if w.pins = 0 then s1.reply r (badParam 8) else (s1.modWset k (fun w => { w with pins := w.pins - 1 })).reply r okAnswer))

/-- WSET_EVICT. -/
def execWsetEvict (q i : Nat) (s : State) : Host.Outcome State Fault Refusal :=
  .next (s.onWset q i 0x064 (fun r k o w =>
    let s1 := s.touchSets [k]
    if !w.resident && !w.loading then s1.reply r okAnswer
    else if !o.evictable then s1.reply r (status 0x21)
    else (s1.evictSet k).reply r okAnswer))

/-- Writes of every line of a granule that FAILED channels discard and count (R298). -/
def State.discards (s : State) (g : Nat) : State :=
  let failed := (upTo 384).filter (fun c => s.fieldOf (Reg.memCh c) 2 0 == 3)
  if failed.isEmpty then s
  else ((upTo s.healthy).filter (fun k => failed.contains (s.channelOf (4096 * k)))).foldl (fun s k =>
    let blocks := ((g + 1) * 262144 + s.healthy - 1 - k) / s.healthy - (g * 262144 + s.healthy - 1 - k) / s.healthy
    s.transit (Reg.memCnt (s.channelOf (4096 * k)) 5) (32 * blocks)) s

/-- A granule whose bytes come from outside: their contents are those of a fresh epoch, and no burst of it is bad.
(DESIGN CHOICE: log entry 42.) -/
def State.loadGranule (s : State) (g : Nat) : State :=
  let (k, s1) := (s.discards g).stamp
  ({ s1 with mem := s1.mem.setEpoch g (k + 2 ^ 32), badBursts := s1.badBursts.filter (fun b => b / 16777216 != g) }).poisonDropGranule g

/-- Whether a line lies in one of some granules of 1 GiB. -/
def inGranules (gs : List Nat) (line : Nat) : Bool := gs.contains (line / 8388608)

/-- Whether the keys that a sealed set's record needs may be held: one of the easement's slots is full (R511). -/
def State.sealOk (s : State) (w : WeightSet) : Bool :=
  !w.sealed || ((s.keys.get? w.ease).any (fun k => k.cur.any (fun x => !x.conf || s.confidential) || k.prev.any (fun x => !x.conf || s.confidential)))

/-- A command that waits for the load of a set (R451, R455), and for which. -/
def Cmd.loads? (c : Cmd) : Option Nat :=
  match c.st with
  | .serving [a, n] => if a = 0xF001 ∨ a = 0xF002 then some n else none
  | _ => none

/-- A sealed load that fails at a page (R507): the bays are free again, the set stays absent, and what waited for it completes.
(DEDUCED: log entry 75.) -/
def State.loadFail (s : State) (n page cause : Nat) : State :=
  let s1 := s.modWset n (fun w => { w with bays := [], loading := false })
  s1.queues.foldl (fun (s : State) e => e.2.cmds.foldl (fun (s : State) c =>
    if c.2.loads? = some n then s.answer e.1 c.1 ⟨0x61, cause * 2 ^ 28 + page % 2 ^ 24, 0⟩ else s) s) s1

/-- The commands that waited for the load of a set start again. -/
def State.loadsOver (s : State) (n : Nat) : State :=
  { s with queues := s.queues.mapV (fun _ q => { q with cmds := q.cmds.mapV (fun _ c => if c.loads? = some n then { c with st := .started } else c) }) }

/-- WSET_LOAD_DONE: every byte of a set, whose reads have all been sent, is in HBM: the easement's granules name its bays, and the commands that waited go on. The holders of the
bays' lines are invalidated first (R258), and the load ends once no line is held. `bad` is the
page of a sealed set that failed, and why: 1 a failed tag or a wrong PAGE, 2 an unknown epoch. A set released meanwhile holds nothing, and the
commands that waited for it meet its stale handle. -/
def execWsetLoadDone (wset : Nat) (bad : Option (Nat × Nat)) (s : State) : Host.Outcome State Fault Refusal :=
  .next (match s.wset? wset with
    | none => s.loadsOver wset
    | some w =>
      if !w.loading || s.sourceWaits w then s
      else if w.sealed && bad.isSome then (match bad with
        | some (page, cause) => if page < w.size / 65536 ∧ (cause = 1 ∨ cause = 2) then s.loadFail wset page cause else s
        | none => s)
      else if !s.sealOk w then s
      else if s.linesHeld (inGranules w.bays) then s.evictLines (inGranules w.bays)
      else
        let s1 := w.bays.foldl State.loadGranule s
        let s2 := { s1 with eases := s1.eases.modify w.ease (fun e => { e with map := (w.bays.zipIdx).foldl (fun m (x : Nat × Nat) => m.set x.2 x.1) [] }) }
        let s3 := (s2.addWrap Reg.cmdWpoolStat 47 32 1).modWset wset (fun w => { w with loading := false, resident := true })
        s3.loadsOver wset)

/-! ### Launch checks (R33, R145, R200, R608, R609) -/

/-- A failed check: an answer, or a structure that cannot be read. -/
inductive LaunchBad where
  | answer (a : Answer)
  | fault (code access pva ppa : Nat)
  deriving DecidableEq, Repr

def bpAt (st pos : Nat) : LaunchBad := .answer (badParam (st * 2 ^ 28 + pos))

/-- The first non-zero byte of reserved bytes lo to hi. -/
def firstByte (v lo hi : Nat) : Nat := ((upTo (hi + 1 - lo)).map (· + lo)).find? (fun b => pb v b b != 0) |>.getD lo

/-- A structure of a launch read whole. -/
def State.readStruct (s : State) (c : Context) (pva n : Nat) : Except LaunchBad Nat :=
  match s.engineRead c pva n with
  | .error f => .error (.fault f.code 0 pva f.ppa)
  | .ok (v, po) => if po then .error (.fault 0x0B 0 pva (s.ppaAt c pva)) else .ok v

/-- The dispatch descriptor (Table 05-1). -/
def dispOf (v : Nat) : Except LaunchBad DispDesc :=
  match firstBad [(fld v 7 3 != 0, 0), (pb v 7 7 != 0, 7), (fld v 191 180 != 0, 16), (pb v 31 28 != 0, firstByte v 28 31), (fld v 319 308 != 0, 32), (pb v 63 40 != 0, firstByte v 40 63),
      (fld v 1 0 == 3, 0), (pb v 1 1 == 0 || decide (8 < pb v 1 1), 1), (decide (8 < pb v 2 2), 2), (decide (8 < pb v 3 3), 3),
      (decide (pb v 15 12 < pb v 11 8), 12), (pb v 23 16 % 64 != 0, 16), (pb v 27 24 % 64 != 0, 24), (pb v 39 32 % 8 != 0, 32)] with
  | some p => .error (bpAt 2 p)
  | none => .ok ⟨fld v 1 0, v.testBit 2, pb v 1 1, pb v 2 2, pb v 3 3, pb v 5 4, pb v 6 6, pb v 11 8, pb v 15 12, pb v 23 16, pb v 27 24, pb v 39 32⟩

/-- The gather descriptor (Table 06-5) without its items.
(DESIGN CHOICE: log entry 102.) -/
def gatherOf (v inbox : Nat) : Except LaunchBad GatherDesc :=
  let ring := pb v 11 10
  let size := pb v 12 12 * pb v 15 14 * 64
  let ctrl := pb v 17 16 + 0x10000
  match firstBad [(fld v 63 52 != 0, 0), (pb v 13 13 != 0, 13), (pb v 63 18 != 0, firstByte v 18 63), (pb v 12 12 == 0 || decide (16 < pb v 12 12), 12),
      (pb v 15 14 == 0 || decide (256 < pb v 15 14), 14), (fld v 51 0 % 16 != 0, 0), (ring % 64 != 0, 10), (ctrl % 64 != 0, 16),
      (decide (0x10000 < ring + size), 10), (decide (0x12000 - inbox * 1024 < ctrl + 64) || decide (0x11FC0 < ctrl), 16)] with
  | some p => .error (bpAt 3 p)
  | none => .ok ⟨pb v 9 8, ring, pb v 12 12, pb v 15 14, ctrl, []⟩

/-- One gather list item of a section (Table 06-6): unchecked with VALID 0.
(DESIGN CHOICE: log entry 102.) -/
def State.itemBad (s : State) (p units i v : Nat) : Option LaunchBad :=
  if !v.testBit 15 then none
  else
    let sh := (s.seqs.get? (fld v 13 0)).map (fun q => (q.parcel, q.shift))
    let tok := match sh with | some (pp, k) => if pp = p then 2 ^ k / 64 else 2 ^ 16 | none => 2 ^ 16
    match firstBad [(pb v 15 14 != 0, 14), (decide (tok < pb v 3 2 + pb v 13 12), 2), (decide (units < pb v 13 12), 12)] with
    | some o => some (bpAt 4 (i * 16 + o))
    | none => none

/-- The gather list items of the grid's sections, in ascending order. -/
def State.readItems (s : State) (c : Context) (list units : Nat) (acc : Tbl Nat) : List Nat → Except LaunchBad (Tbl Nat)
  | [] => .ok acc
  | i :: r =>
    match s.readStruct c ((list + 16 * i) % 2 ^ 52) 16 with
    | .error e => .error e
    | .ok v =>
      match s.itemBad c.parcel units i v with
      | some b => .error b
      | none => State.readItems s c list units (acc.set i v) r

/-- Townships of a parcel that are present, in ascending order. -/
def State.presentShips (s : State) (p : Nat) : List Nat :=
  let l := (((s.parcels.get? p).map (fun x => x.ships)).getD []).filter (fun t => !(s.ship t).absent)
  (upTo 256).filter (fun t => l.contains t)

/-- The extension's checks: its own fields, then TSHIP_MASK against GRID_T and the parcel. -/
def State.extCheck (s : State) (p gt : Nat) (v : Nat) : Option LaunchBad :=
  match badExt v with
  | some o => some (bpAt 1 o)
  | none =>
    let mask := v % 2 ^ 256
    if mask = 0 then none
    else
      let set := (upTo 256).filter (fun t => mask.testBit t)
      match set.find? (fun t => !(s.presentShips p).contains t) with
      | some t => some (bpAt 1 (t / 8))
      | none => if set.length = gt then none else some (bpAt 1 0)

/-- What R608 checks before it reads a structure: the packet's fields, the townships and the extension; then what submission fixed. -/
def State.launchFields (s : State) (r : Req) (c : Context) (cmd : Cmd) : Option LaunchBad :=
  let p := r.pkt
  let gt := pb p 25 24
  match packetCheck p [(8, 28), (32, 35), (40, 63)] [(pvaHigh p 8, 8), (pvaHigh p 16, 16), (pvaHigh p 40, 40), (pvaHigh p 48, 48), (pvaHigh p 56, 56)]
    [(pb p 15 8 % 4 != 0, 8), (decide (256 < gt), 24), (decide (64 < pb p 26 26), 26), (decide (64 < pb p 27 27), 27),
     (decide (4 < pb p 28 28), 28), (pb p 63 56 % 64 != 0, 56)] with
  | some o => some (bpAt 0 o)
  | none =>
    if (s.presentShips c.parcel).length < gt then some (bpAt 0 24)
    else match cmd.ext.bind (fun v => s.extCheck c.parcel gt v) with
      | some b => some b
      | none => cmd.early.map .answer

/-- The dispatch descriptor of a launch, where its packet names one. -/
def State.launchDisp (s : State) (c : Context) (p : Nat) : Except LaunchBad (Option DispDesc) :=
  if pb p 47 40 = 0 then .ok none
  else match s.readStruct c (pb p 47 40) 64 with
    | .error e => .error e
    | .ok v => (match dispOf v with | .error e => .error e | .ok d => .ok (some d))

/-- The gather descriptor of a launch without its items, where its packet names one, and its list's PVA. -/
def State.launchGather (s : State) (c : Context) (p : Nat) (d : Option DispDesc) : Except LaunchBad (Option (GatherDesc × Nat)) :=
  if pb p 55 48 = 0 then .ok none
  else match s.readStruct c (pb p 55 48) 64 with
    | .error e => .error e
    | .ok v => (match gatherOf v ((d.map (fun x => x.inboxKib)).getD 0) with | .error e => .error e | .ok g => .ok (some (g, fld v 51 0)))

/-- The numbers of the list items that a grid uses: one for each of its sections, up to COUNT. -/
def itemsUsed (p : Nat) (g : GatherDesc) : List Nat :=
  let secs := pb p 25 24 * pb p 26 26
  if secs * pb p 27 27 * pb p 28 28 = 0 then [] else upTo (min secs g.count)

/-- Everything R608 checks, in its order: the structures of a launch, or the first failure. -/
def State.launchCheck (s : State) (r : Req) (c : Context) (cmd : Cmd) : Except LaunchBad (Option DispDesc × Option GatherDesc) :=
  match s.launchFields r c cmd with
  | some b => .error b
  | none =>
    match s.launchDisp c r.pkt with
    | .error e => .error e
    | .ok d =>
      match s.launchGather c r.pkt d with
      | .error e => .error e
      | .ok none => .ok (d, none)
      | .ok (some (g, list)) =>
        match s.readItems c list g.units [] (itemsUsed r.pkt g) with
        | .error e => .error e
        | .ok items => .ok (d, some { g with items := items })

/-- The structures that the check of a launch reads, in order: address and length. -/
def State.launchReads (s : State) (r : Req) (c : Context) (cmd : Cmd) : List (Nat × Nat) :=
  let at_ (pva : Nat) : List (Nat × Nat) := if pva = 0 then [] else [(pva, 64)]
  if (s.launchFields r c cmd).isSome then []
  else at_ (pb r.pkt 47 40) ++ (match s.launchDisp c r.pkt with
    | .error _ => []
    | .ok d => at_ (pb r.pkt 55 48) ++ (match s.launchGather c r.pkt d with
      | .ok (some (g, list)) => (itemsUsed r.pkt g).map (fun i => ((list + 16 * i) % 2 ^ 52, 16))
      | _ => []))

/-- The requests that those reads send outside the hub. -/
def State.launchAsk (s : State) (r : Req) (c : Context) (cmd : Cmd) : State :=
  (s.launchReads r c cmd).foldl (fun s a => s.engineAsk c a.1 a.2) s

/-! ### LAUNCH and placement (R430 to R432) -/

/-- LAUNCH: its structures are read and checked; a grid without threads completes at once; else the launch waits for townships.
(DESIGN CHOICE: log entry 4.) -/
def execLaunch (q i : Nat) (s : State) : Host.Outcome State Fault Refusal :=
  .next (s.serve q i 0x040 (fun r => s.withCtx r (fun n c =>
    match s.cmd? q i with
    | none => s
    | some cmd =>
      s.whenOpen c (s.launchReads r c cmd) (
      let s0 := s.launchAsk r c cmd
      match s.launchCheck r c cmd with
      | .error (.answer a) => s0.reply r a
      | .error (.fault code acc pva ppa) => s0.engineLoss n ⟨code, acc, pva, ppa, 0xFFFFFFFF⟩
      | .ok (d, g) => s0.withSets r (fun s =>
          let p := r.pkt
          let (gt, gs, gc, gh) := (pb p 25 24, pb p 26 26, pb p 27 27, pb p 28 28)
          if gt * gs * gc * gh = 0 then s.reply r okAnswer
          else
            let (ord, s1) := s.stamp
            let id := s1.launches.nextKey
            let m := match cmd.ext with
              | some v => if v % 2 ^ 256 = 0 then none else some ((upTo 256).filter (fun t => v.testBit t))
              | none => none
            let l : Launch :=
              { queue := q, idx := i, ctx := ctxHandle n c, parcel := c.parcel, prio := ((s1.queues.get? q).map (fun x => x.prio)).getD 0,
                order := ord, gt := gt, gs := gs, gc := gc, gh := gh, mask := m, entry := pb p 15 8, args := pb p 23 16,
                seed := BitVec.ofNat 32 (pb p 35 32), seq := cmd.seq, tol := cmd.tolerates, disp := d, gather := g, st := .waiting,
                ships := [], start := 0, ended := [], closedTo := 0, signalled := 0, dropped := 0, spilled := 0,
                poisoned := 0, starved := false }
            (s1.setLaunch id l).keepServing r [id])))))

/-- Townships that hold a launch now. -/
def State.busyShips (s : State) : List Nat :=
  (s.launches.map (fun e => if e.2.st == .placed || e.2.st == .stopping then e.2.ships else [])).flatten

/-- Townships that an ARRAY_TEST is still to take: no launch is placed on them (R229).
(DEDUCED: log entry 34.) -/
def State.wantedShips (s : State) : List Nat :=
  s.queues.flatMap (fun e => e.2.cmds.flatMap (fun c => match c.2.st with
    | .serving d => if d.headD 0 = 0xF030 ∧ c.2.opcode = 0x080 then (d.drop 3).take (d.getD 1 0) else []
    | _ => []))

/-- The townships on which a waiting launch fits now; a saved launch needs its own. -/
def State.fits (s : State) (l : Launch) : Option (List Nat) :=
  let ok := (s.presentShips l.parcel).filter (fun t => !(s.busyShips).contains t && !(s.wantedShips).contains t && (s.ship t).test.isNone && !(s.ship t).leaving)
  if l.st = .restoring then
    (if l.ships.all (fun t => !(s.busyShips).contains t && !(s.wantedShips).contains t && (s.ship t).test.isNone) then some l.ships else none)
  else match l.mask with
    | some m => if m.all (fun t => ok.contains t) then some m else none
    | none => if l.gt ≤ ok.length then some (ok.take l.gt) else none

/-- Launches of a parcel that wait, ahead of one in the order of R431. -/
def State.aheadOf (s : State) (id : Nat) (l : Launch) : List (Nat × Launch) :=
  s.launches.filter (fun e => e.1 != id && e.2.parcel == l.parcel && (e.2.st == .waiting || e.2.st == .restoring) &&
    (decide (l.prio < e.2.prio) || (e.2.prio == l.prio && decide (e.2.order < l.order))))

/-- Whether another waiting launch of a parcel starves at a launch's own priority, so that this one is held back unless it starves itself (R432). -/
def State.starvedBeside (s : State) (id : Nat) (l : Launch) : Bool :=
  s.launches.any (fun e => e.1 != id && e.2.parcel == l.parcel && (e.2.st == .waiting || e.2.st == .restoring) && e.2.prio == l.prio && e.2.starved)

/-- Whether a queue is being stopped at instruction grade: what of it waits for placement goes back to not started (Table 15-3). -/
def State.queueHalts (s : State) (q : Nat) : Bool := (s.queues.get? q).any (fun x => x.st == .stopping && x.grade != 0)

/-- Whether the scheduler may place a launch now: no launch ahead of it fits, none starves at its priority or above, and its queue is not being
stopped at instruction grade.
(DESIGN CHOICE: log entry 2.) -/
def State.mayPlace (s : State) (id : Nat) (l : Launch) : Bool :=
  (s.aheadOf id l).all (fun e => (s.fits e.2).isNone && !e.2.starved) && (l.starved || !s.starvedBeside id l) && !s.queueHalts l.queue &&
    !s.parcelHalted l.parcel

/-- A thread at the start of its launch (Table 02-2). -/
def startThread (ln : Nat) (l : Launch) (t : Nat) : Thread :=
  let w (n : Nat) : W32 := BitVec.ofNat 32 n
  let ti := l.ships.findIdx (fun x => x == shipOf t)
  { launch := ln, ctx := l.ctx,
    s := [0, w (l.rank t), w l.size, w l.args, w (fld l.args 51 32), w t, w (ti + l.gs * 2 ^ 8 + l.gc * 2 ^ 16 + l.gh * 2 ^ 24)] ++ List.replicate 9 0,
    v := List.replicate 4 VReg.zero, a := List.replicate 16 0, prods := [], p := 1, pc := BitVec.ofNat 52 l.entry,
    gen := genSeed l.seed (l.rank t), spec := none, wait := .none, pend := [] }

/-- Where a launch fails when it is considered after a resize: its mask names a township that is leaving or gone, or its GRID_T
exceeds the parcel's remaining townships (R470).
(DEDUCED: log entry 67.) -/
def State.cannotFit (s : State) (l : Launch) : Option Nat :=
  let left := (s.presentShips l.parcel).filter (fun t => !(s.ship t).leaving)
  match l.mask with
  | some m => (m.find? (fun t => !left.contains t)).map (fun t => 2 ^ 28 + t / 8)
  | none => if left.length < l.gt then some 24 else none

/-- LAUNCH_PLACED: the scheduler places a waiting launch; its control blocks are zeroed and its threads start.
(DESIGN CHOICE: log entry 4.) -/
def execLaunchPlaced (launch : Nat) (s : State) : Host.Outcome State Fault Refusal :=
  .next (match s.launches.get? launch with
    | none => s
    | some l =>
      match (if l.st = .waiting && s.mayPlace launch l then s.fits l else none) with
      | none =>
        (match (if l.st = .waiting then s.cannotFit l else none) with
         | some pos => ({ s with launches := s.launches.erase launch }).answer l.queue l.idx (badParam pos)
         | none => s)
      | some ts =>
        let l2 := { l with st := .placed, ships := ts, start := s.code.length }
        let s1 := s.setLaunch launch l2
        let secs := (ts.map (fun t => (upTo l.gs).map (fun x => t * 64 + x))).flatten
        let s2 := secs.foldl (fun s k => { s with
          spm := (match l.gather with | some g => s.spm.writeN (spKey k g.ctrl) 64 0 | none => s.spm)
          sections := s.sections.set k { SectionSt.empty with won := (s.sect k).won } }) s1
        let s3 := (upTo l2.size).foldl (fun s r => s.setThread (l2.threadAt r) (startThread launch l2 (l2.threadAt r))) s2
        s3.trace 1 0 (ts.headD 0) l2.traceBytes)

/-- STARVE: the first waiting launch has waited STARVE_US, and launches at or below its priority are held back.
(DESIGN CHOICE: log entry 12.) -/
def execStarve (launch : Nat) (s : State) : Host.Outcome State Fault Refusal :=
  .next (match s.launches.get? launch with
    | none => s
    | some l =>
      if (l.st == .waiting || l.st == .restoring) && (s.aheadOf launch l).isEmpty then s.setLaunch launch { l with starved := true } else s)

/-! ### COPY and FILL (R415, R434) -/

/-- Whether two ranges overlap. -/
def overlaps (a b n : Nat) : Bool := decide (0 < n) && decide (a < b + n) && decide (b < a + n)

/-- COPY: checked, then done in pieces.
(DEDUCED: log entry 62.) -/
def execCopy (q i : Nat) (s : State) : Host.Outcome State Fault Refusal :=
  .next (s.serve q i 0x041 (fun r =>
    let p := r.pkt
    let n := pb p 31 24
    match packetCheck p [(8, 39)] [(pvaHigh p 8, 8), (pvaHigh p 16, 16)]
      [(decide (n ≤ 2 ^ 40) && overlaps (pb p 15 8) (pb p 23 16) n, 16), (decide (2 ^ 40 < n), 24)] with
    | some o => s.reply r (badParam o)
    | none => s.withSets r (fun s => if n = 0 then s.reply r okAnswer else s.keepServing r [0])))

/-- FILL. -/
def execFill (q i : Nat) (s : State) : Host.Outcome State Fault Refusal :=
  .next (s.serve q i 0x042 (fun r =>
    let p := r.pkt
    let n := pb p 23 16
    match packetCheck p [(8, 35)] [(pvaHigh p 8, 8)] [(decide (2 ^ 40 < n), 16)] with
    | some o => s.reply r (badParam o)
    | none => s.withSets r (fun s => if n = 0 then s.reply r okAnswer else s.keepServing r [0])))

/-- A run of bytes copied inside 4 KiB blocks of both sides; the poisoned reads it met, or the fault that lost the context.
(DEDUCED: log entry 123.) -/
def State.copyRun (s : State) (c : Context) (tol : Bool) (prio : Nat) (src dst n : Nat) : Except (Nat × Nat × Nat) (State × Nat) :=
  match s.engineRead c src n with
  | .error f => .error (f.code, src, f.ppa)
  | .ok (v, po) =>
    if po && !tol then .error (0x0B, src, s.ppaAt c src)
    else
      let s1 : State := { s.engineAsk c src n with free := s.free + 1 }
      match s1.engineWrite c dst (bytesOf n (if po then 0 else v)) (some 6) (c.parcel, prio) with
      | .error f => .error (f.code, dst, f.ppa)
      | .ok s2 => .ok (s2, b2n po)

/-- The runs of a piece: source and destination cut at 4 KiB boundaries. -/
def State.copyRuns (s : State) (c : Context) (tol : Bool) (prio : Nat) : Nat → Nat → Nat → Nat → Except (Nat × Nat × Nat) (State × Nat)
  | 0, _, _, _ => .ok (s, 0)
  | k + 1, src, dst, n =>
    if n = 0 then .ok (s, 0)
    else
      let m := min n (min (4096 - src % 4096) (4096 - dst % 4096))
      match s.copyRun c tol prio src dst m with
      | .error e => .error e
      | .ok (s1, a) =>
        match s1.copyRuns c tol prio k (src + m) (dst + m) (n - m) with
        | .error e => .error e
        | .ok (s2, b) => .ok (s2, a + b)

/-- The bytes of FILL: byte (DST + k) takes byte (DST + k) mod 8 of PATTERN. -/
def fillBytes (pattern dst n : Nat) : List Byte := (upTo n).map (fun k => BitVec.ofNat 8 (pattern >>> (8 * ((dst + k) % 8))))

/-- Whether an engine's access at an address waits for Bus Master Enable. -/
def State.linkHeld (s : State) (c : Context) (pva : Nat) : Bool := inHost pva && !s.hostOpen c.fn

/-- A fill's piece, cut at 4 KiB boundaries.
(DESIGN CHOICE: log entry 66; DEDUCED: log entry 123.) -/
def State.fillRuns (s : State) (c : Context) (prio pattern : Nat) : Nat → Nat → Nat → Except (Nat × Nat × Nat) State
  | 0, _, _ => .ok s
  | k + 1, dst, n =>
    if n = 0 then .ok s
    else
      let m := min n (4096 - dst % 4096)
      match s.engineWrite c dst (fillBytes pattern dst m) (some 6) (c.parcel, prio) with
      | .error f => .error (f.code, dst, f.ppa)
      | .ok s1 => s1.fillRuns c prio pattern k (dst + m) (n - m)

/-- The township whose copy engine moves a piece: the parcel's copy engines take the pieces in rotation (R415, R434).
(DESIGN CHOICE: log entry 38.) -/
def State.copyShip (s : State) (parcel off : Nat) : Nat :=
  let l := (s.parcels.get? parcel).elim [] Parcel.ships
  l.getD (off / 4096 % l.length) 0

/-- COPY_PIECE: a copy engine finishes one 4 KiB piece of a COPY or FILL; the last one completes the command, or, where a byte written is not yet
visible everywhere, the event on the finished command does once all are (R415).
(DESIGN CHOICE: log entry 66.) -/
def execCopyPiece (q i : Nat) (s : State) : Host.Outcome State Fault Refusal :=
  .next (match s.queues.get? q with
    | none => s
    | some x =>
      if x.st = .stopped then s
      else match s.cmd? q i with
        | none => s
        | some cmd =>
          let done (s : State) (r : Req) (off n : Nat) (bad : Nat) : State :=
            let s1 := s.modCmd q i (fun c => { c with poison := satAdd 32 c.poison bad })
            if n ≤ off + 4096 && !s1.writesOpen r.fn then
              let k := satAdd 32 cmd.poison bad
              s1.reply r (if k = 0 then okAnswer else ⟨0x50, k, 0⟩)
            else s1.keepServing r [off + 4096]
          if cmd.opcode = 0x041 then
            s.serving q i 0x041 (fun r d => s.withCtx r (fun cn c =>
              let off := d.headD 0
              let n := pb r.pkt 31 24
              let src := pb r.pkt 15 8 + off
              let dst := pb r.pkt 23 16 + off
              let m := min 4096 (n - off)
              if d.length = 2 || s.linkHeld c dst then s
              else if n ≤ off then (if s.writesOpen r.fn then s else done s r off n 0)
              else s.whenOpen c [(src, m)] (match s.copyRuns c cmd.tolerates x.prio 4 src dst m with
                | .error (code, pva, ppa) => s.engineLoss cn ⟨code, 6, pva, ppa, 0xFFFFFFFF⟩
                | .ok (s1, bad) =>
                  let ep := s.copyShip c.parcel off
                  done ((s1.countRuns c ep false 3 src m).countRuns c ep true 3 dst m) r off n bad)))
          else
            s.serving q i 0x042 (fun r d => s.withCtx r (fun cn c =>
              let off := d.headD 0
              let n := pb r.pkt 23 16
              let dst := pb r.pkt 15 8 + off
              if d.length = 2 || s.linkHeld c dst then s
              else if n ≤ off then (if s.writesOpen r.fn then s else done s r off n 0)
              else match s.fillRuns c x.prio (pb r.pkt 31 24) 3 dst (min 4096 (n - off)) with
                | .error (code, pva, ppa) => s.engineLoss cn ⟨code, 6, pva, ppa, 0xFFFFFFFF⟩
                | .ok s1 => done (s1.countRuns c (s.copyShip c.parcel off) true 3 dst (min 4096 (n - off))) r off n 0)))

/-! ### WORK (R416, R433) -/

/-- WORK: checked, then the sets that it names are loaded (R455), and it waits for room at its engine. -/
def execWork (q i : Nat) (s : State) : Host.Outcome State Fault Refusal :=
  .next (s.serve q i 0x043 (fun r => s.withCtx r (fun _ c =>
    let p := r.pkt
    let n := pb p 8 8
    let e := pb p 9 9
    match packetCheck p [(8, 9), (12, 63)] [] [(decide (7 < n), 8), (decide (63 < e), 9)] with
    | some o => s.reply r (badParam o)
    | none =>
      match (s.cmd? q i).bind (fun c => c.early) with
      | some a => s.reply r a
      | none =>
        if s.parcelOfSite n ≠ some c.parcel then s.reply r (badParam 8)
        else if fld ((s.site n).sb.getD 8 0).toNat 9 3 ≤ e then s.reply r (badParam 9)
        else if s.fieldOf (Reg.siteStat n) 2 0 ≠ 4 then s.reply r ⟨0x80, n, 0⟩
        else s.withSets r (fun s =>
          let (k, s1) := s.stamp
          s1.keepServing r [n, e, 0, k]))))

/-- WORK commands that wait for an engine, ahead of one: by priority, then by start order. -/
def State.workAhead (s : State) (q n e k : Nat) : Bool :=
  let prio (x : Nat) : Nat := ((s.queues.get? x).map (fun y => y.prio)).getD 0
  s.queues.any (fun x => x.2.cmds.any (fun c => match c.2.st with
    | .serving d => c.2.opcode == 0x043 && d.headD 8 == n && d.getD 1 64 == e && d.getD 2 1 == 0 &&
        (decide (prio q < prio x.1) || (prio q == prio x.1 && decide (d.getD 3 0 < k)))
    | _ => false))

/-- WORK_SENT: the engine has room, and the packet goes as a WORK message (R433).
A WORK whose site has left its context's parcel meanwhile is answered as one that names such a site (R27).
(DEDUCED: log entry 46.) -/
def execWorkSent (q i : Nat) (s : State) : Host.Outcome State Fault Refusal :=
  .next (s.serving q i 0x043 (fun r d =>
    let n := d.headD 0
    let e := d.getD 1 0
    if d.getD 2 1 = 0 ∧ s.parcelOfSite n ≠ r.ctx.map (fun c => c.2.parcel) then s.reply r (badParam 8)
    else if d.getD 2 1 ≠ 0 ∨ s.engDepth n e ≤ (s.site n).atEngine e ∨ 4096 ≤ (s.site n).works.length ∨ s.workAhead q n e (d.getD 3 0) then s
    else
      let id := (s.site n).works.freeKey 4096
      let cn := (r.ctx.map Prod.fst).getD 0
      let s1 := s.modSite n (fun x => { x with works := x.works.set id ⟨q, i, cn, e, false, []⟩ })
      (s1.txSend 680 n (txPacket 0x28 0 (s1.parcelTag n) 680 e id 0 cn [r.pkt % 2 ^ 256, r.pkt / 2 ^ 256])).keepServing r [n, e, 1, id]))

/-! ### Pre-emption (R435 to R449) -/

/-- The queues that a QUEUE_STOP or QUEUE_RESUME names, or why it fails. -/
def State.scopeQueues (s : State) (r : Req) : Except Answer (List Nat) :=
  let p := r.pkt
  match pb p 8 8 with
  | 0 =>
    (match s.queues.get? (pb p 11 10) with
     | some x => if x.ctx = 0 ∨ x.fn ≠ r.fn then .error (noObject 10) else .ok [pb p 11 10]
     | none => .error (noObject 10))
  | 1 =>
    (match r.ctx with
     | some (n, c) => .ok (s.ctxQueues (ctxHandle n c))
     | none => .error (noObject 0xFFFF))
  | _ =>
    if r.fn ≠ 0 then .error ⟨0x60, 2, 0⟩
    else if !s.parcels.has (pb p 12 12) then .error (noObject 12)
    else
      let qs := s.queues.filter (fun e => match s.ctxOf e.2.ctx with | some c => c.parcel == pb p 12 12 | none => false)
      if qs.any (fun e => e.2.fn != r.fn) then .error (noObject 12) else .ok (qs.map Prod.fst)

/-- The launches of a queue that an instruction-grade stop saves: those placed on townships whose frames are empty (R443). -/
def State.savable (s : State) (l : Launch) : Bool := l.ships.all (fun t => (s.ship t).image.isNone)

/-- What of a queue goes back to not started under instruction pre-emption (Table 15-3): launches that wait for placement, fence waits and step closures
that wait; a saved launch that waits to be restored stays saved. -/
def State.returnWork (s : State) (q : Nat) : State :=
  let s1 := (s.launches.filter (fun e => e.2.queue == q)).foldl (fun s e =>
    match e.2.st with
    | .waiting => ({ s with launches := s.launches.erase e.1 }).modCmd q e.2.idx (fun c => { c with st := .fetched })
    | .restoring => s.setLaunch e.1 { e.2 with st := .saved }
    | _ => s) s
  s1.modQueue q (fun y => { y with cmds := y.cmds.mapV (fun _ c =>
    if (c.opcode = 0x003 ∨ c.opcode = 0x053) ∧ c.inProgress ∨ c.opcode = 0x040 ∧ c.st = .started then { c with st := .fetched } else c) })

/-- One running queue made stopping under a grade (R436): at instruction grade its launches stop issuing, and what has not taken effect returns to
not started (Table 15-3).
(DEDUCED: log entry 123.) -/
def State.stopQueue (s : State) (q grade : Nat) : State :=
  match s.queues.get? q with
  | none => s
  | some x =>
    if x.st ≠ .running then s
    else
      let s1 := s.setQueue q { x with st := .stopping, grade := grade }
      if grade = 0 then s1
      else
        ((s1.launches.filter (fun e => e.2.queue == q && e.2.st == .placed && s1.savable e.2)).foldl (fun s e =>
          s.setLaunch e.1 { e.2 with st := .stopping }) s1).returnWork q

/-- QUEUE_STOP. -/
def execQueueStop (q i : Nat) (s : State) : Host.Outcome State Fault Refusal :=
  .next (s.serve q i 0x015 (fun r =>
    match packetCheck r.pkt [(8, 12)] [] [(decide (2 < pb r.pkt 8 8), 8), (decide (1 < pb r.pkt 9 9), 9)] with
    | some o => s.reply r (badParam o)
    | none =>
      match s.scopeQueues r with
      | .error a => s.reply r a
      | .ok qs =>
        let g := pb r.pkt 9 9
        let runs (e : Nat × Launch) : Bool := qs.contains e.2.queue && e.2.st == .placed && (s.queues.get? e.2.queue).any (fun x => x.st == .running)
        let refused := g == 1 && s.launches.any (fun e => runs e && !s.savable e.2)
        let saving := if g = 0 then 0 else (s.launches.filter (fun e => runs e && s.savable e.2)).length
        (qs.foldl (fun s k => s.stopQueue k g) s).keepServing r (b2n refused :: saving :: qs)))

/-- The image of one township of a launch taken: threads, sections, scratchpad bytes, dispatch state and streams; what the copies still out
bring back finds the township's ledger, which keeps their entries too. Requests without an answer are recorded under their TXID, with CANCEL for window requests where the site advertises it (R446, R447). -/
def State.saveShip (s : State) (ln : Nat) (l : Launch) (t : Nat) : State :=
  let x := s.ship t
  let lo := spKey (t * 64) 0
  let hi := spKey (t * 64 + 64) 0
  let mine (a : Acc) : Bool := a.launch == ln && a.ship == t
  let ret := (x.misses.filter (fun m => match s.accs.get? m.2.acc with | some a => mine a | none => false)).foldl (fun r m =>
    match s.accs.get? m.2.acc with
    | some a => r.set m.1 (⟨m.2.acc, a.thread, (match a.part? with | some p => p.via == .window | none => false), none, false⟩ : Returned)
    | none => r) x.returns
  let im : SaveImage :=
    { launch := ln, ctx := l.ctx, threads := s.threads.keep (fun k th => th.launch == ln && shipOf k == t),
      sections := s.sections.keep (fun k _ => k / 64 == t), spm := s.spm.cells.filter (fun c => decide (lo ≤ c.1) && decide (c.1 < hi)),
      ledger := x.ledger.keep (fun _ c => c.launch == ln), streams := x.streams, hints := x.hints, sentTok := x.sentTok }
  let s1 := { s with
    threads := s.threads.keep (fun k th => !(th.launch == ln && shipOf k == t))
    sections := s.sections.keep (fun k _ => k / 64 != t) }
  let s2 := s1.setShip t { x with image := some im, returns := ret, streams := [], hints := [], sentTok := [] }
  ret.foldl (fun s e =>
    match (s.accs.get? e.2.acc).bind Acc.part? with
    | some p =>
      let n := (windowSite? p.dpa).getD 8
      if e.2.window && ((s.site n).sb.getD 8 0).toNat.testBit 13 then s.txSend t n (txPacket 0x2A 1 (s.parcelTag n) t 0 e.1 0 0 []) else s
    | none => s) s2

/-- The runs of a township's save frame that an image of it fills, by offset and length in the reserved range (Tables 10-8, 15-4). -/
def saveRuns (t : Nat) (im : SaveImage) (ledger : List Nat) : List (Nat × Nat) :=
  let at_ := saveOff t
  (im.threads.map (fun e => (at_ + sectOf e.1 % 64 * 131072 + e.1 % 256 * 512, 512))) ++
  ((im.sections.map (fun e => (at_ + 0x800000 + e.1 % 64 * 73728, 73728)))) ++
  ((im.sections.map (fun e => ((e.2.slots.zipIdx.filter (fun x => x.1.isSome)).map (fun x => (at_ + 0xC80000 + e.1 % 64 * 4096 + x.2 * 1024, 1024))))).flatten) ++
  (ledger.map (fun k => (at_ + 0xCC0000 + k * 144, 144))) ++ [(at_ + 0xD50000, 131072)]

/-- The 4 KiB blocks that runs of the reserved range touch, each with its address and length: a run lies on one channel block by block. -/
def State.rsvPieces (s : State) (l : List (Nat × Nat)) : List (Nat × Nat) :=
  l.flatMap (fun r => (upTo ((r.1 + r.2 + 4095) / 4096 - r.1 / 4096)).map (fun i =>
    let lo := max r.1 (r.1 / 4096 * 4096 + 4096 * i)
    (s.rsv lo, min (r.1 + r.2) (r.1 / 4096 * 4096 + 4096 * i + 4096) - lo)))

/-- The bursts by which an image is written to its frame or read from it, counted (R307, R308); on a FAILED channel a write is discarded and counted
(R298). -/
def State.saveBursts (s : State) (write : Bool) (l : List (Nat × Nat)) : State :=
  (s.rsvPieces l).foldl (fun s p =>
    if write && s.failedAt p.1 then s.transit (Reg.memCnt (s.channelOf p.1) 5) (ceilDiv p.2 128) else s.burst p.1 p.2 write) s

/-- What is saved or to be restored of a township: the runs of its frame. -/
def State.frameRuns (s : State) (t : Nat) : List (Nat × Nat) :=
  match (s.ship t).image with
  | some im => saveRuns t im ((s.ship t).returns.map Prod.fst)
  | none => []

/-- Whether a channel of the map is in a slice, so that a save or a restore takes longer (R307). -/
def State.slicing (s : State) : Bool := (upTo 384).any s.channelHeld

/-- A township of a launch saved, its image written to its frame (R441, R307). -/
def State.saveImage (s : State) (ln : Nat) (l : Launch) (t : Nat) : State :=
  let s1 := s.saveShip ln l t
  s1.saveBursts true (s1.frameRuns t)

/-- Whether a stopping launch has drained: no issued scratchpad request and no token packet of its townships is under way. -/
def State.drained (s : State) (l : Launch) : Bool :=
  !(s.sections.any (fun e => l.ships.contains (e.1 / 64) && !e.2.reqs.isEmpty)) &&
  !(s.toks.any (fun m => (match m.dst with | .agent t => l.ships.contains t | _ => false)))

/-- Whether a started command lets its queue stop at instruction grade (Table 15-3): it has ended, it goes back to not started, it is a copy or a WORK
that waits for no load, or a launch that is not running. -/
def State.letsStop (s : State) (q i : Nat) (c : Cmd) : Bool :=
  !c.inProgress || ((c.opcode == 0x041 || c.opcode == 0x042 || c.opcode == 0x043) && c.loads?.isNone) || c.opcode == 0x003 || c.opcode == 0x053 ||
    (c.opcode == 0x040 && (c.st == .started || s.launches.any (fun l => l.2.queue == q && l.2.idx == i && l.2.st != .placed)))

/-- Whether a stopping queue can become stopped: at boundary grade once its started commands have completed; at instruction grade
once its launches are drained and nothing else of Table 15-3 runs. -/
def State.stopReady (s : State) (q : Nat) : Bool :=
  match s.queues.get? q with
  | none => true
  | some x =>
    if x.st = .stopped then true
    else if x.grade = 0 then x.cmds.all (fun e => !e.2.inProgress)
    else
      x.cmds.all (fun e => s.letsStop q e.1 e.2) &&
      s.launches.all (fun l => l.2.queue != q || (match l.2.st with | .stopping => s.drained l.2 | .placed => false | _ => true))

/-- A named queue stopped: at instruction grade what still waits goes back to not started. -/
def State.stopped (s : State) (q : Nat) : State :=
  let s1 := if s.queueHalts q then s.returnWork q else s
  s1.modQueue q (fun x => { x with st := .stopped })

/-- QUEUE_STOPPED: the last named queue becomes stopped: launches are saved, their images written to the frames once no slice is in progress (R307),
and their townships freed, and QUEUE_STOP completes. -/
def execQueueStopped (q i : Nat) (s : State) : Host.Outcome State Fault Refusal :=
  .next (s.serving q i 0x015 (fun r d =>
    let qs := d.drop 2
    if !(qs.all (fun k => s.stopReady k)) || s.launches.any (fun l => qs.contains l.2.queue && s.parcelHalted l.2.parcel) then s
    else
      let ls := s.launches.filter (fun e => qs.contains e.2.queue && e.2.st == .stopping)
      if !ls.isEmpty && s.slicing then s
      else
      let s1 := ls.foldl (fun s e => (e.2.ships.foldl (fun s t => s.saveImage e.1 e.2 t) s).setLaunch e.1 { e.2 with st := .saved }) s
      (qs.foldl State.stopped s1).reply r
        ⟨0, d.headD 0, qs.length % 65536 + d.getD 1 0 % 65536 * 2 ^ 16⟩))

/-- What a restore of a launch meets in its frames: a block on a FAILED channel, which is an uncorrectable control error of the parcel (R298).
(DESIGN CHOICE: log entry 101.) -/
def State.frameLost (s : State) (l : Launch) : Option Nat :=
  ((l.ships.flatMap (fun t => s.rsvPieces (s.frameRuns t))).find? (fun p => s.failedAt p.1)).map Prod.fst

/-- QUEUE_RESUME: stopped queues run again; their saved launches wait for their townships. -/
def execQueueResume (q i : Nat) (s : State) : Host.Outcome State Fault Refusal :=
  .next (s.serve q i 0x016 (fun r =>
    match packetCheck r.pkt [(8, 12)] [] [(decide (2 < pb r.pkt 8 8), 8), (pb r.pkt 9 9 != 0, 9)] with
    | some o => s.reply r (badParam o)
    | none =>
      match s.scopeQueues r with
      | .error a => s.reply r a
      | .ok qs =>
        if qs.any (fun k => ((s.queues.get? k).map (fun x => x.st == .stopping)).getD false) then s.reply r (status 0x21)
        else
          let ls := s.launches.filter (fun e => qs.contains e.2.queue && e.2.st == .saved)
          let s1 := ls.foldl (fun s e => s.setLaunch e.1 { e.2 with st := .restoring }) s
          (qs.foldl (fun s k => s.modQueue k (fun x => { x with st := .running, grade := 0 })) s1).reply r (okResult ls.length)))

/-- A ledger entry applied at restore: an answer goes to its register; a cancelled window request is sent again with a fresh TXID;
one without an answer stays (R449). -/
def State.applyReturn (s : State) (t tx : Nat) (e : Returned) : State :=
  if e.cancelled then
    let s1 := s.modShip t (fun x => { x with returns := x.returns.erase tx, misses := x.misses.erase tx })
    s1.sendUncached e.acc
  else match e.answer with
    | some _ => (s.modShip t (fun x => { x with returns := x.returns.erase tx })).returnAcc e.acc
    | none => s.modShip t (fun x => { x with returns := x.returns.erase tx })

/-- The image of one township of a launch put back. -/
def State.restoreShip (s : State) (t : Nat) : State :=
  match (s.ship t).image with
  | none => s
  | some im =>
    let lo := spKey (t * 64) 0
    let hi := spKey (t * 64 + 64) 0
    let m := im.spm.foldl (fun m c => m.write c.1 c.2) (s.spm.dropRange lo hi)
    let s1 := { s with
      threads := im.threads.foldl (fun x (e : Nat × Thread) => x.set e.1 e.2) s.threads
      sections := im.sections.foldl (fun x (e : Nat × SectionSt) => x.set e.1 e.2) (s.sections.keep (fun k _ => k / 64 != t))
      spm := m }
    s1.modShip t (fun x => { x with image := none, streams := im.streams, hints := im.hints, sentTok := im.sentTok })

/-- Closure messages recorded with saved slots, applied before their threads issue (R175). -/
def State.applyClosures (s : State) (ln : Nat) : State :=
  (s.threads.filter (fun e => e.2.launch == ln)).foldl (fun s e =>
    match e.2.spec with
    | some sp =>
      (match sp.closure with
       | some (some w) => s.confirmThread e.1 sp w
       | some none =>
         let s1 := s.refuteThread e.1 sp
         (match (s1.sect sp.section_).records.find? (fun r => r.addr == sp.record) with
          | some r => s1.releaseRecord (sp.section_ / 64) (sp.section_ % 64) r
          | none => s1)
       | none => s)
    | none => s) s

/-- RESTORE: a saved launch whose townships are free is placed on them again, its images read from the frames once no slice is in progress (R307), and
its ledger entries applied. -/
def execRestore (launch : Nat) (s : State) : Host.Outcome State Fault Refusal :=
  .next (match s.launches.get? launch with
    | none => s
    | some l =>
      if l.st = .restoring && s.mayPlace launch l && (s.fits l).isSome && !s.slicing then
        match s.frameLost l with
        | some a => s.parcelError 0x06 l.parcel a 0 0 0
        | none =>
        let s1 := (l.ships.foldl (fun s t => (s.saveBursts false (s.frameRuns t)).restoreShip t) s).setLaunch launch { l with st := .placed, starved := false }
        let s2 := l.ships.foldl (fun s t => ((s.ship t).returns.filter (fun e => match s.accs.get? e.2.acc with
          | some a => a.launch == launch
          | none => true)).foldl (fun s e => s.applyReturn t e.1 e.2) s) s1
        s2.applyClosures launch
      else s)

/-- LEDGER_ANSWER: the answer of a recorded request is written into its ledger entry (R448).
(DESIGN CHOICE: log entry 48.) -/
def execLedgerAnswer (ship tx : Nat) (s : State) : Host.Outcome State Fault Refusal :=
  .next (match (s.ship ship).returns.get? tx with
    | none => s
    | some e =>
      let v := match s.accs.get? e.acc with
        | some a => if a.st = .done then some a.value else none
        | none => some 0
      match v with
      | some d => if e.answer.isSome then s else s.modShip ship (fun x => { x with returns := x.returns.set tx { e with answer := some d } })
      | none => s)

end Sys2Proof.Machine
end

