-- ==== Sys2Proof/Machine/Parcels.lean ====
section
/-! DEFINITION. Parcels, plats, easements, shares and expert routes (chapter 16, R146, R147), and array tests (chapter 07). -/

namespace Sys2Proof.Machine

/-! ### Holdings -/

/-- The free granules, ascending. -/
def State.freeGrans (s : State) : List Nat := (upTo (2 * s.healthy - 8)).filter (fun g => s.granOwner g == 0x10)

/-- Whether a township may join a parcel (Table 16-5, kind 1). -/
def State.shipFree (s : State) (t : Nat) : Bool :=
  !(s.ship t).absent && !s.bit (Reg.nocCoord t) 12 && (s.parcelOfShip t).isNone && (s.ship t).image.isNone

/-- The numbers below n whose bit is set. -/
def bitsOf (n m : Nat) : List Nat := (upTo n).filter (fun i => m.testBit i)

/-- A DETAIL of Table 16-5. -/
def busyKind (k v : Nat) : Answer := ⟨0x21, k * 2 ^ 28 + v % 2 ^ 24, 0⟩

/-- Whether a parcel command is being served: the field cores serve one at a time (R459). -/
def State.parcelBusy (s : State) : Bool :=
  s.queues.any (fun e => e.2.cmds.any (fun c => match c.2.st with
    | .serving _ => decide (0x070 ≤ c.2.opcode) && decide (c.2.opcode ≤ 0x078)
    | _ => false))

/-- Whether the parcel that a parcel command names has a township under a debug halt (R583). -/
def State.haltedFor (s : State) (q i op : Nat) : Bool :=
  op != 0x074 && op != 0x077 && (match s.cmd? q i with | some c => s.parcelHalted (pb c.pkt 8 8) | none => false)

/-- A parcel command served when no other one is. -/
def State.parcelServe (s : State) (q i op : Nat) (f : Req → State) : State :=
  if s.parcelBusy || s.haltedFor q i op then s else s.serve q i op f

/-- Requests through the gate that a command made: how many a command makes is not stated and is free (R488).
(DESIGN CHOICE: log entry 69.) -/
def State.gate (s : State) : State :=
  let (k, s1) := s.freshNat
  s1.addWrap Reg.secGateCnt 31 0 (1 + k)

/-- The commands that confidential mode refuses (Table 17-6).
(DEDUCED: log entry 68.) -/
def denyConf : Answer := ⟨0x60, 0x10, 0⟩

/-! ### Plats (R462 to R464) -/

/-- The key of the COMMIT state of a parcel's plat, a parcel's expert routes, and an interface's bearing table. -/
def platCommit (p : Nat) : Nat := 0x600000000 + p
def erouteCommit (p : Nat) : Nat := 0x600000100 + p
def bearCommit (ni : Nat) : Nat := 0x600001000 + ni

def State.commitOf (s : State) (k : Nat) : Commit := s.commits.getD k Commit.empty
def State.setCommit (s : State) (k : Nat) (c : Commit) : State := { s with commits := s.commits.set k c }
/-- A set applied: GENERATION counts it.
(DEDUCED: log entry 58.) -/
def State.applied (s : State) (k : Nat) : State :=
  s.setCommit k { (s.commitOf k) with generation := ((s.commitOf k).generation + 1) % 2 ^ 32 }

/-- Words written into the active set of a staged group, its shadow taking them (R12). -/
def State.putActive (s : State) (l : List (Nat × Nat)) : State :=
  { s with
    regs := l.foldl (fun r (e : Nat × Nat) => r.set e.1 (BitVec.ofNat 64 e.2)) s.regs
    shadow := s.shadow.keep (fun k _ => !(l.any (fun (e : Nat × Nat) => e.1 == k))) }

/-- Plat entries changed: townships of the parcel may use the old ones until the change completes (R464). -/
def State.platPut (s : State) (p : Nat) (l : List (Nat × Nat)) : State :=
  let old := l.map (fun e => (e.1, (s.regs.getD (platKey p e.1) 0).toNat))
  let ships := ((s.parcels.get? p).map (fun x => x.ships)).getD []
  let s1 := { s with ships := ships.foldl (fun t n =>
    t.set n (let x := t.getD n Township.empty; { x with plat := old.foldl (fun m (e : Nat × Nat) => if m.has e.1 then m else m.set e.1 e.2) x.plat })) s.ships }
  ((s1.putActive (l.map (fun e => (platKey p e.1, e.2)))).applied (platCommit p)).gate

/-- XINV to the sites of a parcel for every context of it (R464). -/
def State.platXinv (s : State) (p : Nat) : State :=
  (s.ctxs.filter (fun e => e.2.parcel == p)).foldl (fun s e => s.sendXinv e.1 e.2) s

/-- Whether a parcel's contexts await no XINVACK. -/
def State.xinvIdle (s : State) (p : Nat) : Bool := s.ctxs.all (fun e => e.2.parcel != p || e.2.xinv == 0)

/-- Translations of some contexts dropped from a township's caches and its sections' micro caches, with its plat entries. -/
def Township.forget (x : Township) (mine : Nat → Bool) : Township :=
  let keep (l : List Tlb) : List Tlb := l.filter (fun e => !mine e.ctx)
  { x with plat := [], tlb := keep x.tlb, micro := x.micro.mapV (fun _ l => keep l) }

/-- A change of a plat completed: no cached translation or plat entry of the parcel is left. -/
def State.platDone (s : State) (p : Nat) : State :=
  let mine (n : Nat) : Bool := match s.ctxs.get? n with | some c => c.parcel == p | none => true
  { s with ships := s.ships.mapV (fun t x =>
      if s.parcelOfShip t = some p then x.forget mine else x) }

/-- Every XINVACK of a plat change has come: the caches are cleared, and the command completes once the accesses that may have used an
old entry are complete. -/
def State.platTail (s : State) (r : Req) (p : Nat) : State :=
  let s1 := s.platDone p
  let ids := s1.openIds (fun a => a.tag == p)
  if ids.isEmpty then s1.reply r okAnswer else s1.keepServing r (0xF011 :: p :: ids)

/-- A command whose plat change is made: it goes on at once where no XINVACK is awaited. -/
def State.platFinish (s : State) (r : Req) (p : Nat) : State :=
  let s1 := s.platXinv p
  if s1.xinvIdle p then s1.platTail r p else s1.keepServing r [0xF010, p]

/-- A plat command that waits for accesses completes once none of them is under way. -/
def State.platWait (s : State) (q i op : Nat) : State :=
  s.serving q i op (fun r d => if d.headD 0 = 0xF011 ∧ (s.stillOpen (d.drop 2)).isEmpty then s.reply r okAnswer else s)

/-- Whether a plat cannot change now: accesses that its entries admitted are under way (R11), or a captured set of it is pending. -/
def State.platHeld (s : State) (p : Nat) : Bool :=
  !(s.openIds (fun a => a.tag == p)).isEmpty || (s.commitOf (platCommit p)).pending.isSome

/-- The commands that waited for XINVACKs go on: those of one context, and the plat changes of its parcel (R360, R464), after which no old entry is held. -/
def State.xinvEnd (s : State) (n : Nat) : State :=
  let p := ((s.ctxs.get? n).map (fun c => c.parcel)).getD 16
  let s1 := if (s.ctxs.get? n).any (fun c => c.xinv == 0) then s.xinvDone n else s
  if !s1.xinvIdle p then s1
  else
    let s2 := if s1.ships.any (fun e => !e.2.plat.isEmpty && s1.parcelOfShip e.1 == some p) then s1.platDone p else s1
    s2.queues.foldl (fun s e => e.2.cmds.foldl (fun s x => match x.2.st with
      | .serving d => if d.headD 0 = 0xF010 ∧ d.getD 1 16 = p ∧ 0x070 ≤ x.2.opcode ∧ x.2.opcode ≤ 0x078 then s.platTail ⟨e.1, x.1, e.2.fn, none, x.2.pkt⟩ p else s
      | _ => s) s) s2

/-- The KIND, easement and OFFSET of an entry. -/
def platEase (e off : Nat) : Nat := 1 + 2 + e * 2 ^ 28 + off * 2 ^ 36
def platMap (kind dpa : Nat) : Nat := 1 + kind * 2 + dpa * 8

/-- Whether a run of PPA granules meets the parcel's cadastre pool while a sequence is not FREE (REASON 0x06). -/
def State.poolBusy (s : State) (p first count : Nat) : Bool :=
  let lo := s.poolPpa p
  let hi := lo + s.frameCount p * s.pageSize p
  s.seqs.any (fun e => e.2.parcel == p) && decide (lo < hi) && decide (first * 2 ^ 30 < hi) && decide (lo < (first + count) * 2 ^ 30)

/-- The reason a valid plat entry of a parcel breaks R463 (Table 16-10), if it does. -/
def State.platBad (s : State) (p e : Nat) : Option Nat :=
  if !e.testBit 0 then none
  else
    let k := fld e 2 1
    let g := fld e 20 3
    if k = 3 ∨ fld e 27 21 ≠ 0 ∨ fld e 55 46 ≠ 0 then some 1
    else if k = 0 then (if s.granOwner g = p then none else some 2)
    else if k = 2 then
      (match windowSite? (g * 2 ^ 30) with
       | some n => if s.parcelOfSite n = some p then none else some 3
       | none => some 3)
    else match s.eases.get? (fld e 35 28) with
      | some x => if (s.easeParcels (fld e 35 28)).contains p ∧ fld e 45 36 < x.size then none else some 4
      | none => some 4

/-- PLAT_EDIT (R466). -/
def execPlatEdit (q i : Nat) (s : State) : Host.Outcome State Fault Refusal :=
  .next ((s.platWait q i 0x073).parcelServe q i 0x073 (fun r =>
    let k := r.pkt
    let p := pb k 8 8
    let op := pb k 9 9
    let first := pb k 19 16
    let cnt := pb k 23 20
    let dpa := pb k 27 24
    match packetCheck k [(8, 9), (16, 27)] [(decide (2 ^ 18 ≤ first), 16), (decide (2 ^ 18 ≤ dpa), 24)]
      [(decide (15 < p), 8), (decide (2 < op), 9), (decide (2 ^ 18 < first + cnt) && cnt != 0, 20)] with
    | some o => s.reply r (badParam o)
    | none =>
      if s.confidential then s.reply r denyConf
      else if !s.parcels.has p then s.reply r (noObject 8)
      else if cnt = 0 then s.reply r okAnswer
      else
        let new := (upTo cnt).map (fun j => (first + j, if op = 0 then 0 else platMap (if op = 1 then 0 else 2) (dpa + j)))
        match (new.filterMap (fun e => s.platBad p e.2)).head? with
        | some reason => s.reply r ⟨0x11, 0x80000000 + reason, 0⟩
        | none =>
          if new.any (fun e => let o := s.platEntry p e.1 none; o.testBit 0 && fld o 2 1 == 1) then s.reply r ⟨0x21, 5, 0⟩
          else if s.poolBusy p first cnt then s.reply r ⟨0x21, 6, 0⟩
          else if s.platHeld p then s
          else (s.platPut p new).platFinish r p))

/-! ### Townships and sites that change parcel (R38, R162, R208, R256, R468) -/

/-- A caching agent taken out of an entry that is not busy: a township's Modified data goes home, and an entry without a holder goes free, so that
requests that waited for its set go on. -/
def State.dropHolder (s : State) (a line : Nat) (e : DirEntry) : State :=
  let s1 : State := match (s.ship a).way? line with
    | some (_, w) => if e.st = .X ∧ w.st = .M then ((s.note line).memWrite (line * 128) 128 w.data).burst (line * 128) 128 true else s
    | none => s
  let v := BitVec.ofNat 288 (e.vec.toNat - (e.vec.toNat &&& 2 ^ a))
  ({ s1 with dir := if v = 0 then s1.dir.erase line else s1.dir.set line { e with vec := v } }).serveSet line

/-- A caching agent taken out of every entry that names it. -/
def State.dropAgent (s : State) (a : Nat) : State :=
  (s.dir.filter (fun e => e.2.st != .B && e.2.vec.getLsbD a)).foldl (fun s e => s.dropHolder a e.1 e.2) s

/-- Whether nothing of a township is under way: no request or writeback of it, and no transaction that names it. -/
def State.shipQuiet (s : State) (t : Nat) : Bool :=
  (s.ship t).misses.isEmpty && (s.ship t).evb.isEmpty &&
  !s.dir.any (fun e => e.2.st == .B && (e.2.vec.getLsbD t ||
    (match e.2.txn with | some x => x.req.src == .agent t || x.nextVec.getLsbD t | none => false)))

/-- Every M line of a township written back, every line invalidated, and its bit cleared in every directory entry (R256). -/
def State.writeBackShip (s : State) (t : Nat) : State := (s.dropAgent t).modShip t (fun x => { x with sets := [] })

/-- A township that joins a parcel: scratchpads zero, expert predictor and cadastre cache invalid, translation caches empty; the cadastre lines it
loses count as invalidated (R209). -/
def State.joinShip (s : State) (t : Nat) : State :=
  let n := (s.ship t).cad.length
  let s1 := { s with
    spm := s.spm.dropRange (spKey (t * 64) 0) (spKey (t * 64 + 64) 0)
    sections := s.sections.keep (fun k _ => k / 64 != t) }
  (s1.modShip t (fun x => { x with pred := [], cad := [], tlb := [], micro := [], plat := [], leaving := false })).transit (Reg.cadCnt t 3) n

/-- FLUSH of a site cleared, and with it FLUSH_DONE (R352). -/
def State.flushOff (s : State) (n : Nat) : State :=
  (s.setFlush n false).modSite n (fun x => { x with sb := x.sb.set 0x38 (BitVec.ofNat 64 (putFld (s.sbRead n 0x38) 0 0 0)) })

/-- A site that joins a parcel has FLUSH cleared, and one that leaves its parcel and is UP has it set (R468). -/
def State.joinSite (s : State) (n : Nat) : State := if s.fieldOf (Reg.siteStat n) 2 0 = 4 then s.flushOff n else s
def State.leaveSite (s : State) (n : Nat) : State := if s.fieldOf (Reg.siteStat n) 2 0 = 4 then s.setFlush n true else s

/-- Whether a directory entry names an agent of a site, or a transaction of one is under way: the site is not flushed (R352). -/
def State.siteHolds (s : State) (n : Nat) : Bool :=
  s.dir.any (fun e => (upTo 4).any (fun k => e.2.vec.getLsbD (256 + 4 * n + k) ||
    (match e.2.txn with | some x => x.req.src == .agent (256 + 4 * n + k) || x.nextVec.getLsbD (256 + 4 * n + k) | none => false)))

/-- A site's agents removed from every directory entry. -/
def State.clearAgents (s : State) (n : Nat) : State := (upTo 4).foldl (fun s k => s.dropAgent (256 + 4 * n + k)) s

/-- Granules written with zeros (R461): no line of them is held any more, and they leave the poison list. -/
def State.zeroGran (s : State) (g : Nat) : State :=
  let s := s.discards g
  ({ s with mem := s.mem.zeroGranule g, badBursts := s.badBursts.filter (fun b => b / 16777216 != g) }).poisonDropGranule g

/-! ### Shares (R482 to R485) -/

/-- The total of the slot guarantees of the existing parcels, and a parcel's total of way guarantees. -/
def State.slotSum (s : State) : Nat :=
  (s.parcels.map (fun e => ((upTo 4).map (fun c => s.fieldOf (Reg.shrMCfg (4 * e.1 + c)) 24 16)).sum)).sum
def State.waySum (s : State) (p : Nat) : Nat := ((upTo 4).map (fun c => s.fieldOf (Reg.shrMCfg (4 * p + c)) 56 48)).sum

/-- SUM, F and the applied values computed again (R484, R481). -/
def State.reShare (s : State) : State :=
  let sum := s.slotSum
  let f := if 256 < sum then 65536 / sum else 256
  let s1 := s.setReg Reg.shrGlobal (BitVec.ofNat 64 (sum % 2 ^ 15 + b2n (decide (256 < sum)) * 2 ^ 15 + f * 2 ^ 16))
  s1.parcels.foldl (fun s e =>
    let w := s.waySum e.1
    let fw := if 256 < w then 65536 / w else 256
    (upTo 4).foldl (fun s c =>
      let m := 4 * e.1 + c
      s.setReg (Reg.shrMApplied m) (BitVec.ofNat 64
        (s.fieldOf (Reg.shrMCfg m) 24 16 * f / 256 + s.fieldOf (Reg.shrMCfg m) 56 48 * fw / 256 * 15 / 256 * 2 ^ 16))) s) s1

/-- Whether requests of a parcel that its shares have admitted are on their way to a home slice or wait there.
(DEDUCED: log entry 94.) -/
def State.shareBusy (s : State) (p : Nat) : Bool :=
  s.net.any (fun m => m.tag == p && m.kind.cls == 0) || s.waitq.any (fun e => e.2.any (fun m => m.tag == p))

/-- SHARE_SET (R482, R483): it takes effect once no request that the old shares admitted is under way (R11) and no captured set is pending. -/
def execShareSet (q i : Nat) (s : State) : Host.Outcome State Fault Refusal :=
  .next (s.parcelServe q i 0x078 (fun r =>
    let k := r.pkt
    let p := pb k 8 8
    let at_ (c o : Nat) : Nat := 16 + 10 * c + o
    let v (c o : Nat) : Nat := pb k (at_ c o + 1) (at_ c o)
    let rng (c : Nat) : List (Bool × Nat) :=
      [(decide (256 < v c 0), at_ c 0), (decide (v c 0 < v c 2), at_ c 2), (decide (256 < v c 4), at_ c 4), (decide (v c 4 < v c 6), at_ c 6)]
    match packetCheck k [(8, 9), (16, 55)]
      ((decide (1 < pb k 9 9), 9) :: (upTo 4).map (fun c => (decide (0x3FF < v c 8), at_ c 8)))
      ((decide (15 < p), 8) :: ((upTo 4).map rng).flatten) with
    | some o => s.reply r (badParam o)
    | none =>
      if !s.parcels.has p then s.reply r (noObject 8)
      else
        let force := pb k 9 9 % 2
        let l := ((upTo 4).map (fun c =>
          [(Reg.shrMCfg (4 * p + c), v c 0 + v c 2 * 2 ^ 16 + v c 4 * 2 ^ 32 + v c 6 * 2 ^ 48), (Reg.shrMSlack (4 * p + c), v c 8)])).flatten
        let s1 := s.putActive ((Reg.shrPFlags p, force) :: l)
        let sum := s1.slotSum
        let w := s1.waySum p
        if force = 0 ∧ (256 < sum ∨ 256 < w) then
          s.reply r ⟨0x70, if 256 < sum then 65536 / sum else 65536 / w + 2 ^ 16, 0⟩
        else if s.shareBusy p || (s.commitOf (Reg.shrPCommit p)).pending.isSome then s
        else ((s1.applied (Reg.shrPCommit p)).reShare).reply r okAnswer))

/-! ### PARCEL_CREATE, PARCEL_RESIZE, PARCEL_DESTROY -/

/-- What the datum controller's records refuse of a holding that a parcel takes on (Table 17-1): a township or a site that is not free, or granules that
are not. -/
def State.holdBusy (s : State) (ships sites grans : List Nat) : Option Answer :=
  match ships.find? (fun t => !s.shipFree t), sites.find? (fun n => (s.parcelOfSite n).isSome) with
  | some t, _ => some (busyKind 1 t)
  | none, some n => some (busyKind 2 n)
  | none, none =>
    let k := (grans.filter (fun g => s.granOwner g != 0x10)).length
    if k = 0 then none else some (busyKind 3 k)

/-- A holding made, unless the datum controller refuses it: a request through the gate may have taken a part of it meanwhile (R488). -/
def State.holdMake (s : State) (r : Req) (ships sites grans : List Nat) (k : State) : State :=
  match s.holdBusy ships sites grans with
  | some a => s.gate.reply r a
  | none => k.reply r okAnswer

/-- The holding of a new parcel made visible: granules mapped at PPA 0 upward, townships and sites joined (R467, R468). -/
def State.parcelMake (s : State) (p : Nat) (ships sites grans : List Nat) : State :=
  let s1 := grans.foldl State.zeroGran s
  let s2 := { s1 with parcels := s1.parcels.set p ⟨ships, sites, grans, [], false⟩ }
  let s3 := s2.putActive (grans.zipIdx.map (fun (e : Nat × Nat) => (platKey p e.2, platMap 0 e.1)))
  let s4 := sites.foldl State.joinSite (ships.foldl State.joinShip s3)
  { ((s4.applied (platCommit p)).gate.reShare) with attest := none }

/-- PARCEL_CREATE: checked, then the granules are zeroed (R461, R467). -/
def execParcelCreate (q i : Nat) (s : State) : Host.Outcome State Fault Refusal :=
  .next (s.parcelServe q i 0x070 (fun r =>
    let k := r.pkt
    let p := pb k 8 8
    let hbm := pb k 11 10
    let ships := bitsOf 256 (pb k 47 16)
    let sites := bitsOf 8 (pb k 9 9)
    match packetCheck k [(8, 11), (16, 47)] [] [(decide (15 < p), 8), (decide (768 < hbm), 10)] with
    | some o => s.reply r (badParam o)
    | none =>
      if s.confidential then s.reply r denyConf
      else if s.parcels.has p then s.reply r (busyKind 4 p)
      else match ships.find? (fun t => !s.shipFree t) with
        | some t => s.reply r (busyKind 1 t)
        | none =>
          match sites.find? (fun n => (s.parcelOfSite n).isSome) with
          | some n => s.reply r (busyKind 2 n)
          | none =>
            let free := s.freeGrans
            if free.length < hbm then s.reply r ⟨0x30, hbm - free.length, 0⟩
            else if hbm = 0 then (s.parcelMake p ships sites []).reply r okAnswer
            else s.keepServing r (0xF020 :: p :: free.take hbm)))

/-- The granules of a parcel that no plat entry names, highest DPA first. -/
def State.unmapped (s : State) (p : Nat) (x : Parcel) : List Nat :=
  let named := (s.regs.filter (fun e => decide (platKey p 0 ≤ e.1) && decide (e.1 < platKey p 0 + 2 ^ 18) &&
    e.2.toNat.testBit 0 && fld e.2.toNat 2 1 == 0)).map (fun e => fld e.2.toNat 20 3)
  ((x.grans.filter (fun g => !named.contains g)).mergeSort (fun a b => decide (b ≤ a)))

/-- Whether a plat entry of a parcel names a site's window. -/
def State.windowMapped (s : State) (p n : Nat) : Bool :=
  s.regs.any (fun e => decide (platKey p 0 ≤ e.1) && decide (e.1 < platKey p 0 + 2 ^ 18) && e.2.toNat.testBit 0 &&
    fld e.2.toNat 2 1 == 2 && windowSite? (fld e.2.toNat 20 3 * 2 ^ 30) == some n)

/-- What a resize changes once its checks have passed: townships, sites, granules to add and to remove. -/
structure Resize where
  ships : List Nat
  sites : List Nat
  add   : List Nat
  drop  : List Nat
  deriving DecidableEq, Repr

/-- The checks of R469 in its order. -/
def State.resizeCheck (s : State) (p : Nat) (x : Parcel) (ships sites : List Nat) (hbm : Nat) : Except Answer Resize :=
  match ships.find? (fun t => !x.ships.contains t && !s.shipFree t) with
  | some t => .error (busyKind 1 t)
  | none =>
    match sites.find? (fun n => !x.sites.contains n && (s.parcelOfSite n).isSome) with
    | some n => .error (busyKind 2 n)
    | none =>
      match (x.sites.filter (fun n => !sites.contains n)).find? (fun n => !(s.site n).works.isEmpty || s.windowMapped p n) with
      | some n => .error (busyKind 2 n)
      | none =>
        let un := s.unmapped p x
        let free := s.freeGrans
        if hbm + un.length < x.grans.length then .error (busyKind 3 (x.grans.length - hbm - un.length))
        else if x.grans.length + free.length < hbm then .error ⟨0x30, hbm - x.grans.length - free.length, 0⟩
        else .ok ⟨ships, sites, free.take (hbm - x.grans.length), un.take (x.grans.length - hbm)⟩

/-- A resize made: granules, townships and sites change at one instant (R470); departing townships are leaving. -/
def State.resizeMake (s : State) (p : Nat) (z : Resize) : State :=
  match s.parcels.get? p with
  | none => s
  | some x =>
    let s1 := z.add.foldl State.zeroGran s
    let newT := z.ships.filter (fun t => !x.ships.contains t)
    let newS := z.sites.filter (fun n => !x.sites.contains n)
    let s2 := { s1 with parcels := s1.parcels.set p { x with
      ships := (upTo 256).filter (fun t => x.ships.contains t || newT.contains t), sites := z.sites,
      grans := (x.grans.filter (fun g => !z.drop.contains g)) ++ z.add } }
    let s3 := (x.sites.filter (fun n => !z.sites.contains n)).foldl State.leaveSite (newS.foldl State.joinSite (newT.foldl State.joinShip s2))
    (x.ships.foldl (fun s t => s.modShip t (fun h => { h with leaving := !z.ships.contains t })) s3).gate

/-- A site to be flushed before it leaves its parcel (R352): the hub sets FLUSH once no WORK is outstanding there. -/
def State.flushSite (s : State) (n : Nat) : State := if s.fieldOf (Reg.siteStat n) 2 0 = 4 then s.modSite n (fun x => { x with ask := true }) else s

/-- Whether the flush of a site still runs. -/
def State.flushing (s : State) (n : Nat) : Bool := s.fieldOf (Reg.siteStat n) 2 0 == 4 && ((s.site n).ask || (s.site n).flush)

/-- The parts of a resize kept while it is served. -/
def Resize.words (z : Resize) : List Nat :=
  [z.ships.length, z.sites.length, z.add.length] ++ z.ships ++ z.sites ++ z.add ++ z.drop
def resizeOf (d : List Nat) : Resize :=
  let a := d.headD 0
  let b := d.getD 1 0
  let c := d.getD 2 0
  let r := d.drop 3
  ⟨r.take a, (r.drop a).take b, (r.drop (a + b)).take c, r.drop (a + b + c)⟩

/-- The sites of a list whose agents still hold lines after their flush: they are flushed again before they leave (R352). -/
def State.reflush (s : State) (l : List Nat) : List Nat := l.filter (fun n => s.fieldOf (Reg.siteStat n) 2 0 == 4 && s.siteHolds n)

/-- A resize completes once its granules are zeroed and its departing sites flushed. -/
def State.resizeEnd (s : State) (r : Req) (p : Nat) (zeroed : Bool) (z : Resize) : State :=
  let old : Parcel := (s.parcels.get? p).getD ⟨[], [], [], [], false⟩
  let leaving := old.sites.filter (fun n => !z.sites.contains n)
  let again := s.reflush leaving
  if !zeroed ∨ leaving.any s.flushing then s.keepServing r (0xF021 :: p :: b2n zeroed :: z.words)
  else if !again.isEmpty then (again.foldl State.flushSite s).keepServing r (0xF021 :: p :: b2n zeroed :: z.words)
  else s.holdMake r (z.ships.filter (fun t => !old.ships.contains t)) (z.sites.filter (fun n => !old.sites.contains n)) z.add (s.resizeMake p z)

/-- PARCEL_RESIZE (R469, R470). -/
def execParcelResize (q i : Nat) (s : State) : Host.Outcome State Fault Refusal :=
  .next (s.parcelServe q i 0x071 (fun r =>
    let k := r.pkt
    let p := pb k 8 8
    let hbm := pb k 11 10
    match packetCheck k [(8, 11), (16, 47)] [] [(decide (15 < p), 8), (decide (768 < hbm), 10)] with
    | some o => s.reply r (badParam o)
    | none =>
      if s.confidential then s.reply r denyConf
      else match s.parcels.get? p with
        | none => s.reply r (noObject 8)
        | some x =>
          match s.resizeCheck p x (bitsOf 256 (pb k 47 16)) (bitsOf 8 (pb k 9 9)) hbm with
          | .error a => s.reply r a
          | .ok z =>
            let s1 := (x.sites.filter (fun n => !z.sites.contains n)).foldl State.flushSite s
            s1.resizeEnd r p z.add.isEmpty z))

/-- The parcel reset of Table 00-3: the registers marked parcel of parcel p, its townships and its masters.
(DEDUCED: log entry 82.) -/
def State.parcelReset (s : State) (p : Nat) (ships sites : List Nat) : State :=
  let mine (off : Nat) : Bool := match regAt? off with
    | some (r, idx) => r.kind == .parcel && (match r.name with
      | .dspPredCtrl | .dspStatus | .dspCnt | .cadCnt | .cohAtomCtrl | .cohCnt | .rasArrConflict => ships.contains (idx.headD 256)
      | .shrSite => sites.contains (idx.headD 8)
      | .shrMCfg | .shrMSlack | .shrMApplied | .shrMCnt => idx.headD 64 / 4 == p
      | _ => idx.headD 16 == p)
    | none => false
  { s with
    orders := s.orders.erase p
    regs := s.regs.keep (fun k _ => !mine k)
    shadow := s.shadow.keep (fun k _ => !(mine k || (decide (platKey p 0 ≤ k) && decide (k < platKey p 0 + 2 ^ 18))))
    commits := s.commits.keep (fun k _ => !(mine k || k == platCommit p)) }

/-- The easements unmapped, the plat cleared, the holding freed, sequences and shares gone, and the parcel reset (R471). -/
def State.parcelFree (s : State) (p : Nat) : State :=
  match s.parcels.get? p with
  | none => s
  | some x =>
    let s1 := x.ships.foldl State.writeBackShip s
    let s2 := { s1 with
      parcels := s1.parcels.erase p
      regs := s1.regs.keep (fun k _ => !(decide (platKey p 0 ≤ k) && decide (k < platKey p 0 + 2 ^ 18)))
      seqs := s1.seqs.keep (fun _ e => e.parcel != p)
      cad := s1.cad.keep (fun _ e => match s1.seqs.get? e.seq with | some y => y.parcel != p | none => true)
      freeing := s1.freeing.filter (fun f => f.parcel != p)
      batches := s1.batches.keep (fun k _ => k / 256 != p)
      ships := x.ships.foldl (fun t n => t.modify n (fun h => { h.forget (fun _ => true) with leaving := false })) s1.ships }
    ((s2.parcelReset p x.ships x.sites).reShare).gate

/-- PARCEL_DESTROY goes on once no site of the parcel is being flushed and nothing of its townships is under way; `down` has a bit for each site that went down meanwhile. -/
def State.destroyEnd (s : State) (r : Req) (p : Nat) (sites : List Nat) : State :=
  match s.parcels.get? p with
  | none => s
  | some x =>
    if x.down ∨ sites.any s.flushing ∨ x.ships.any (fun t => !s.shipQuiet t) then s.keepServing r (0xF022 :: p :: sites)
    else if !(s.reflush x.sites).isEmpty then ((s.reflush x.sites).foldl State.flushSite s).keepServing r (0xF022 :: p :: sites)
    else
      let lost := sites.filter (fun n => s.fieldOf (Reg.siteStat n) 2 0 != 4)
      let s1 := x.sites.foldl State.leaveSite (s.parcelFree p)
      s1.reply r (if lost.isEmpty then okAnswer else ⟨1, (lost.map (fun n => 2 ^ n)).sum, 0⟩)

/-- PARCEL_DESTROY: begun, or gone on with. -/
def execParcelDestroy (q i : Nat) (s : State) : Host.Outcome State Fault Refusal :=
  .next ((s.serving q i 0x072 (fun r d => if d.headD 0 = 0xF022 then s.destroyEnd r (d.getD 1 16) (d.drop 2) else s)).parcelServe q i 0x072 (fun r =>
    let p := pb r.pkt 8 8
    match packetCheck r.pkt [(8, 8)] [] [(decide (15 < p), 8)] with
    | some o => s.reply r (badParam o)
    | none =>
      if s.confidential then s.reply r denyConf
      else match s.parcels.get? p with
        | none => s.reply r (noObject 8)
        | some x =>
          let cs := (s.ctxs.filter (fun e => e.2.parcel == p)).length
          let vs := ((upTo 64).filter (fun n => decide (1 ≤ n) && s.vfBound n && s.vfParcel n == p)).length
          if cs ≠ 0 then s.reply r (busyKind 5 cs)
          else if vs ≠ 0 then s.reply r (busyKind 6 vs)
          else
            let up := x.sites.filter (fun n => s.fieldOf (Reg.siteStat n) 2 0 == 4)
            (up.foldl State.flushSite s).destroyEnd r p up))

/-- The parcel commands that wait for a site's flush go on. -/
def State.flushEnd (s : State) : State :=
  s.queues.foldl (fun s e => e.2.cmds.foldl (fun s c => match c.2.st with
    | .serving d =>
      let r : Req := ⟨e.1, c.1, e.2.fn, none, c.2.pkt⟩
      if d.headD 0 = 0xF021 ∧ c.2.opcode = 0x071 then s.resizeEnd r (d.getD 1 16) (d.getD 2 0 == 1) (resizeOf (d.drop 3))
      else if d.headD 0 = 0xF022 ∧ c.2.opcode = 0x072 then s.destroyEnd r (d.getD 1 16) (d.drop 2)
      else s
    | _ => s) s) s

/-- GRANULE_ZEROED: the last granule of a parcel command is zeroed, and the holding changes at one instant (R461). Lines of the granules that are
still held are given up first. -/
def execGranuleZeroed (q i : Nat) (s : State) : Host.Outcome State Fault Refusal :=
  .next (match s.cmd? q i with
    | none => s
    | some c => match c.st with
    | .serving d =>
      let k := c.pkt
      let r : Req := ⟨q, i, ((s.queues.get? q).map (fun x => x.fn)).getD 0, none, k⟩
      let gs := if c.opcode = 0x070 then d.drop 2 else (resizeOf (d.drop 3)).add
      if s.linesHeld (inGranules gs) then s.evictLines (inGranules gs)
      else if d.headD 0 = 0xF020 ∧ c.opcode = 0x070 then
        s.holdMake r (bitsOf 256 (pb k 47 16)) (bitsOf 8 (pb k 9 9)) (d.drop 2)
          (s.parcelMake (d.getD 1 16) (bitsOf 256 (pb k 47 16)) (bitsOf 8 (pb k 9 9)) (d.drop 2))
      else if d.headD 0 = 0xF021 ∧ d.getD 2 1 = 0 ∧ c.opcode = 0x071 then s.resizeEnd r (d.getD 1 16) true (resizeOf (d.drop 3))
      else s
    | _ => s)

/-- TOWNSHIP_LEAVE: a leaving township that no launch holds, with no image and nothing under way, is written back and becomes
free (R256, R470). -/
def execTownshipLeave (ship : Nat) (s : State) : Host.Outcome State Fault Refusal :=
  .next (match s.parcelOfShip ship with
    | none => s
    | some p =>
      let x := s.ship ship
      if !x.leaving || x.image.isSome || s.busyShips.contains ship || x.returns.any (fun e => e.2.answer.isNone) || x.test.isSome || !s.shipQuiet ship then s
      else
        let s1 := s.writeBackShip ship
        let s2 := s1.modShip ship (fun h => { h.forget (fun _ => true) with leaving := false, returns := [] })
        { s2 with parcels := s2.parcels.modify p (fun y => { y with ships := y.ships.filter (fun t => t != ship) }) })

/-! ### Easements -/

/-- EASE_CREATE (R472), through the gate (R411). -/
def execEaseCreate (q i : Nat) (s : State) : Host.Outcome State Fault Refusal :=
  .next (s.parcelServe q i 0x074 (fun r =>
    let z := pb r.pkt 9 8
    match packetCheck r.pkt [(8, 9)] [] [(z == 0 || decide (1024 < z), 8)] with
    | some o => s.reply r (badParam o)
    | none =>
      if s.confidential then s.reply r denyConf
      else if 256 ≤ s.eases.length then s.reply r (status 0x30)
      else
        let e := s.eases.freeKey 256
        ({ s with eases := s.eases.set e ⟨z, [], 0⟩ }).gate.reply r (okResult e)))

/-- EASE_MAP (R473). -/
def execEaseMap (q i : Nat) (s : State) : Host.Outcome State Fault Refusal :=
  .next ((s.platWait q i 0x075).parcelServe q i 0x075 (fun r =>
    let p := pb r.pkt 8 8
    let e := pb r.pkt 9 9
    let first := pb r.pkt 19 16
    match packetCheck r.pkt [(8, 9), (16, 19)] [(decide (2 ^ 18 ≤ first), 16)] [(decide (15 < p), 8)] with
    | some o => s.reply r (badParam o)
    | none =>
      if s.confidential then s.reply r denyConf
      else match s.parcels.get? p, s.eases.get? e with
        | some x, some y =>
          if 2 ^ 18 < first + y.size then s.reply r (badParam 16)
          else if x.eases.any (fun z => z.2 == e) ∨ (upTo y.size).any (fun j => (s.platEntry p (first + j) none).testBit 0) then s.reply r (status 0x21)
          else if s.platHeld p then s
          else
            let s1 := { s with parcels := s.parcels.set p { x with eases := x.eases.set first e } }
            (s1.platPut p ((upTo y.size).map (fun j => (first + j, platEase e j)))).platFinish r p
        | none, _ => s.reply r (noObject 8)
        | _, none => s.reply r (noObject 9)))

/-- EASE_UNMAP (R473). -/
def execEaseUnmap (q i : Nat) (s : State) : Host.Outcome State Fault Refusal :=
  .next ((s.platWait q i 0x076).parcelServe q i 0x076 (fun r =>
    let p := pb r.pkt 8 8
    let e := pb r.pkt 9 9
    match packetCheck r.pkt [(8, 9)] [] [(decide (15 < p), 8)] with
    | some o => s.reply r (badParam o)
    | none =>
      if s.confidential then s.reply r denyConf
      else match s.parcels.get? p, s.eases.get? e with
        | some x, some y =>
          (match x.eases.find? (fun z => z.2 == e) with
           | none => s.reply r (noObject 9)
           | some (first, _) =>
             if s.platHeld p then s
             else
             let s1 := { s with parcels := s.parcels.set p { x with eases := x.eases.erase first } }
             (s1.platPut p ((upTo y.size).map (fun j => (first + j, 0)))).platFinish r p)
        | none, _ => s.reply r (noObject 8)
        | _, none => s.reply r (noObject 9)))

/-- EASE_DESTROY (R474), through the gate (R411).
(DEDUCED: log entry 70.) -/
def execEaseDestroy (q i : Nat) (s : State) : Host.Outcome State Fault Refusal :=
  .next (s.parcelServe q i 0x077 (fun r =>
    let e := pb r.pkt 9 9
    match packetCheck r.pkt [(9, 9)] [] [] with
    | some o => s.reply r (badParam o)
    | none =>
      if s.confidential then s.reply r denyConf
      else match s.eases.get? e with
        | none => s.reply r (noObject 9)
        | some x =>
          let n := (s.easeParcels e).length
          if n ≠ 0 then s.reply r ⟨0x21, n, 0⟩
          else if x.wset ≠ 0 then s.reply r (status 0x21)
          else ({ s with eases := s.eases.erase e }).gate.reply r okAnswer))

/-! ### Expert routes (R146, R147) -/

/-- The reason an expert route entry is rejected (Table 05-6), if it is.
(DEDUCED: log entry 105.) -/
def State.erouteBad (s : State) (p e : Nat) : Option Nat :=
  let tc := fld e 18 10
  let sc := fld e 31 25
  let held := ((s.parcels.get? p).map (fun x => x.ships)).getD []
  if fld e 63 45 ≠ 0 then some 4
  else if !e.testBit 0 then none
  else if !e.testBit 1 then
    (if tc = 0 ∨ sc = 0 ∨ 256 < fld e 9 2 + tc ∨ 64 < fld e 24 19 + sc then some 1
     else if (upTo tc).any (fun k => !held.contains (fld e 9 2 + k) || (s.ship (fld e 9 2 + k)).absent || s.bit (Reg.nocCoord (fld e 9 2 + k)) 12) then some 2
     else none)
  else if fld e 9 5 ≠ 0 ∨ fld e 18 16 ≠ 0 ∨ fld e 31 25 ≠ 0 ∨ e.testBit 44 then some 4
  else
    let n := fld e 4 2
    let c := fld e 24 19 + 1
    if s.parcelOfSite n ≠ some p ∨ fld (s.sbRead n 8) 9 3 < fld e 15 10 + c ∨
      (upTo c).any (fun k => !((s.sbRead n (0x200 + 8 * (fld e 15 10 + k))).testBit 8)) then some 3
    else none

/-! ### Share regulation events (R478 to R480) -/

/-- A miss or an expiry of a master recorded: the status bit, and event 0x8004 on its first one where the mask or forcing asks.
(DEDUCED: log entry 72.) -/
def State.shareEvent (s : State) (m : Nat) (expiry : Bool) : State :=
  let was := s.bit Reg.shrMissStatus m
  let s1 := (s.setBit Reg.shrMissStatus m true).trace 7 3 0 (bytesOf 4 (m + b2n expiry * 2 ^ 31))
  if !was && (s.bit Reg.shrMissMask m || s.bit Reg.shrGlobal 15) then
    (s1.fnEvent 0 0x8004 (m + b2n expiry * 2 ^ 31)).interrupt 0 0
  else s1

/-- SLOT_WINDOW_END: at a channel, the masters that had a request waiting at every slot of the window, with their grants and those
made over budget (R475, R479); the next window of the channel begins.
(DESIGN CHOICE: log entry 73.) -/
def execSlotWindowEnd (channel : Nat) (waited : List Nat) (grants : List (Nat × Nat)) (s : State) : Host.Outcome State Fault Refusal :=
  .next (if 384 ≤ channel then s else
    let s0 := { s with slots := s.slots.keep (fun k _ => k / 64 != channel && k != 24576 + channel) }
    let s1 := (grants.filter (fun e => decide (e.1 < 64))).foldl (fun s e =>
      s.count (Reg.shrMCnt e.1 2) (e.2 - s.fieldOf (Reg.shrMCfg e.1) 8 0)) s0
    (waited.filter (fun m => decide (m < 64))).eraseDups.foldl (fun s m =>
      let got := ((grants.filter (fun e => e.1 == m)).map Prod.snd).sum
      if got < s.fieldOf (Reg.shrMApplied m) 8 0 then (s.count (Reg.shrMCnt m 0) 1).shareEvent m false else s) s1)

/-- SLACK_EXPIRED: the remaining slack of a request that waits at its home reaches 0; it stays in its place (R478).
(DESIGN CHOICE: log entry 12.) -/
def execSlackExpired (m : Msg) (s : State) : Host.Outcome State Fault Refusal :=
  .next (let l := s.waitq.getD (m.dpa / 128) []
    if l.contains m && decide (m.tag < 16) && decide (0 < m.hdr.slack) && m.hdr.slack != 0x3FF then
      let k := 4 * m.tag + m.prio % 4
      let s1 := { s with waitq := s.waitq.set (m.dpa / 128) (l.map (fun x => if x = m then { x with hdr := { x.hdr with slack := 0 } } else x)) }
      (s1.count (Reg.shrMCnt k 1) 1).shareEvent k true
    else s)

/-- SHR_MISS_CLEAR: each 1 clears a miss bit, and the next event of that master reports again (R480). -/
def execShrMissClear (value : W64) (s : State) : Host.Outcome State Fault Refusal :=
  .next (if s.driverRow then s.setReg Reg.shrMissStatus (s.reg Reg.shrMissStatus &&& ~~~ value) else s)

/-! ### Array tests (R228 to R232) -/

/-- Launches of a parcel that run, each as its number × 16 + parcel.
(DEDUCED: log entry 34.) -/
def State.running (s : State) (p : Nat) : List Nat :=
  ((s.launches.filter (fun e => e.2.parcel == p && (e.2.st == .placed || e.2.st == .stopping))).map Prod.fst).map (fun l => l * 16 + p)

/-- Whether a township's parcel has come to a command boundary since some launches ran: none of it runs now, or one of those has ended.
(DEDUCED: log entry 34.) -/
def State.atBoundary (s : State) (since : List Nat) (t : Nat) : Bool :=
  match s.parcelOfShip t with
  | none => true
  | some p =>
    let now := s.running p
    now.isEmpty || since.any (fun l => l % 16 == p && !now.contains l)

/-- Townships of an array test taken at their parcel's command boundary, where no launch and no other test holds them; the others stay wanted
(R229). The command keeps the townships still wanted, all of them, and the launches that ran when it began.
(DEDUCED: log entry 34.) -/
def State.takeTests (s : State) (r : Req) (wanted ts since : List Nat) : State :=
  let free := wanted.filter (fun t => !s.busyShips.contains t && (s.ship t).test.isNone && s.atBoundary since t)
  let rest := wanted.filter (fun t => !free.contains t)
  (free.foldl (fun s t => s.beginTest t 2) s).keepServing r (0xF030 :: rest.length :: ts.length :: rest ++ ts ++ since)

/-- ARRAY_TEST: the named townships are tested; zero in the mask tests none (R17). The hub takes each township at its parcel's next
command boundary: the event on a command that still wants townships takes those that have become free. -/
def execArrayTest (q i : Nat) (s : State) : Host.Outcome State Fault Refusal :=
  .next ((s.serving q i 0x080 (fun r d =>
    let (n, k, l) := (d.getD 1 0, d.getD 2 0, d.drop 3)
    if n = 0 then s else s.takeTests r (l.take n) ((l.drop n).take k) (l.drop (n + k)))).serve q i 0x080 (fun r =>
    match packetCheck r.pkt [(8, 39)] [] [] with
    | some o => s.reply r (badParam o)
    | none =>
      let ts := bitsOf 256 (pb r.pkt 39 8)
      if s.confidential then s.reply r denyConf
      else match ts.find? (fun t => (s.ship t).absent || s.bit (Reg.nocCoord t) 12) with
        | some t => s.reply r (badParam (8 + t / 8))
        | none => if ts.isEmpty then s.reply r okAnswer
          else s.takeTests r ts ts ((ts.filterMap s.parcelOfShip).eraseDups.flatMap s.running)))

/-- Spare columns of an array (Table 07-3). -/
def arraySpares : ArrayId → Nat
  | .regs _ _ => 1
  | .bank _ _ => 2
  | .dual _ => 2
  | .shadow _ => 1
  | .save => 1
  | .data _ => 8
  | .tags => 4

/-- The unit that an array belongs to (R226), by the numbers of a start-up's units: the core, the section or the township. -/
def arrayUnit (phys : Nat) : ArrayId → Nat
  | .regs i c => unitC (66 * (66 * phys + i) + c)
  | .bank i _ => unitS (66 * phys + i)
  | .dual i => unitS (66 * phys + i)
  | .shadow i => unitS (66 * phys + i)
  | _ => unitT phys

/-- The columns of an array that spares replace, by the fuses and the record (R225), and the spares that are left. -/
def State.repaired (s : State) (phys : Nat) (a : ArrayId) : Nat :=
  ((Config.fuseRepairs phys).filter (fun x => x.1 == a)).length + (s.recNow.repairs.filter (fun x => x.ship == phys && x.arr == a)).length
def State.sparesLeft (s : State) (phys : Nat) (a : ArrayId) : Nat := arraySpares a - s.repaired phys a

/-- Failing columns of an array of a physical township: spares take as many as are left, and the map of the record names them. -/
def State.repair (s : State) (phys : Nat) (a : ArrayId) (cols : List Nat) : State :=
  let l := (cols.take (s.sparesLeft phys a)).map (fun c => (⟨phys, a, c⟩ : Repair))
  { s with recNow := { s.recNow with repairs := s.recNow.repairs ++ l } }

/-- A unit added to the learned map of the record (R537). -/
def BmRec.bad (r : BmRec) (u : Nat) : BmRec :=
  if u < 260 then { r with badT := u :: r.badT.erase u }
  else if u < 260 + 17160 then { r with badS := (u - 260) :: r.badS.erase (u - 260) }
  else { r with badC := (u - 17420) :: r.badC.erase (u - 17420) }

/-- The array that a block lies in, by the steps its side has ended: the cache side tests the save buffer, 256 data blocks and 16 tag blocks, a
section its shadow area, 16 banks, two dual-port blocks and 66 register files (Table 07-4).
(DESIGN CHOICE: log entry 98.) -/
def cacheArray (k : Nat) : ArrayId := if k = 0 then .save else if k ≤ 256 then .data ((k - 1) / 32) else .tags
def sectArray (i k : Nat) : ArrayId :=
  if k = 0 then .shadow i else if k ≤ 16 then .bank i (k - 1) else if k ≤ 18 then .dual i else .regs i (k - 19)

/-- The steps of the cache side and of a section.
(DESIGN CHOICE: log entry 98.) -/
def cacheSteps : Nat := 273
def sectSteps : Nat := 85

/-- The block under test: the steps that its side has ended. -/
def TestSt.at_ (y : TestSt) : Option Nat → Nat
  | none => y.cache
  | some i => y.sects.getD i 0

/-- A block's test ended. -/
def TestSt.next (y : TestSt) : Option Nat → TestSt
  | none => { y with cache := y.cache + 1, left := if y.cache = 0 then y.left else y.left - 1 }
  | some i => { y with sects := y.sects.set i (y.sects.getD i 0 + 1) }

/-- Whether every block of a township is tested: those of its cache and of its 66 sections. -/
def TestSt.finished (y : TestSt) : Bool := decide (cacheSteps ≤ y.cache) && (upTo 66).all (fun i => decide (sectSteps ≤ y.sects.getD i 0))

/-- The rows of a scratchpad that a block of a section holds. -/
def blockRows (k : Nat) : List Nat :=
  (upTo 64).map (fun j => if k ≤ 16 then 16 * j + (k - 1) else 1024 + 64 * (k - 17) + j)

/-- Zero written to a block of a section that keeps a failure (R232): rows of the scratchpad, the slots of the shadow area, or the registers of
the threads of a core. -/
def State.zeroBlock (s : State) (ship i k : Nat) : State :=
  match s.sectOfPhys? ship i with
  | none => s
  | some j =>
    let key := ship * 64 + j
    if k = 0 then s.modSect key (fun x => { x with slots := x.slots.map (fun _ => none) })
    else if k ≤ 18 then (blockRows k).foldl (fun (s : State) r => { s with spm := s.spm.dropRange (spKey key (64 * r)) (spKey key (64 * r) + 64) }) s
    else
      let core := (s.physCores (66 * s.physOf ship + i)).findIdx (fun c => c == k - 19)
      { s with threads := s.threads.mapV (fun t x =>
          if core < 64 ∧ coreOf t = key * 64 + core then { x with s := x.s.map (fun _ => 0), v := x.v.map (fun _ => VReg.zero), a := x.a.map (fun _ => 0), prods := [] } else x) }

/-- The lines of a cache block that keeps a failure invalidated: two sets of a data block, 32 of a tag block; an Exclusive line is given up with WB
(R237), and where one of them held Modified data, the parcel loses its domain (R232). -/
def State.dropBlock (s : State) (ship k : Nat) : State :=
  let mine (set : Nat) : Bool := if k ≤ 256 then dataBlockOf set == k - 1 else tagBlockOf set == k - 1
  let dirty := (s.ship ship).sets.any (fun e => mine e.1 && e.2.ways.any (fun w => w.2.st == .M))
  let given := (s.ship ship).sets.foldl (fun (s : State) e => if mine e.1 then
    (e.2.ways.filter (fun w => w.2.st == .E)).foldl (fun s w => s.evictWay ship e.1 w.1) s else s) s
  let s1 := given.modShip ship (fun x => { x with sets := x.sets.mapV (fun set c => if mine set then { c with ways := [] } else c) })
  if k = 0 then s
  else match (if dirty then s1.parcelOfShip ship else none) with
    | some p => s1.parcelError 0x0A p 0 (s.physOf ship) 3 0
    | none => s1

/-- A township withdrawn: absent until the next start-up, at which the unit is bad (R227, R540). -/
def State.withdraw (s : State) (ship unit : Nat) : State :=
  let s1 := (s.setBit (Reg.rasArrStat ship) 1 true).setBit (Reg.nocCoord ship) 12 true
  { (s1.modShip ship (fun x => { x with absent := true })) with recNow := s.recNow.bad unit }

/-- Failing columns that a block's test found, and a comparison that failed: spares are assigned while some are left; what then still fails clears
or invalidates the block and withdraws the township (R227, R232).
(DESIGN CHOICE: log entry 98.) -/
def State.blockFails (s : State) (ship : Nat) (sect : Option Nat) (k : Nat) (cols : List Nat) (mismatch : Bool) : State :=
  let phys := s.physOf ship
  let a := match sect with | none => cacheArray k | some i => sectArray i k
  let n := min cols.length (s.sparesLeft phys a)
  let s1 := ((s.addSat (Reg.rasArrStat ship) 63 48 (cols.length + b2n mismatch)).addSat (Reg.rasArrStat ship) 47 32 n).repair phys a cols
  let s2 := { s1 with recDue := true }
  if n = cols.length && !mismatch then s2
  else
    let s3 := s2.withdraw ship (arrayUnit phys a)
    match sect with
    | none => s3.dropBlock ship k
    | some i => s3.zeroBlock ship i k

/-- ARRAY_TEST_BLOCK: the block under test of a township's cache side (`sect` none) or of a physical section ends its phases with some newly failing
columns, and with its comparison held or failed; it is released, and the next block is taken (R230). A block that is not the one under test
does not end.
(DESIGN CHOICE: log entry 98.) -/
def execArrayTestBlock (ship : Nat) (sect : Option Nat) (block : Nat) (cols : List Nat) (mismatch : Bool) (s : State) : Host.Outcome State Fault Refusal :=
  .next (match (s.ship ship).test with
    | none => s
    | some y =>
      let k := y.at_ sect
      let bad := match sect with
        | none => decide (cacheSteps ≤ k)
        | some i => decide (66 ≤ i) || decide (sectSteps ≤ k)
      if bad || k != block then s
      else
        let s1 := (s.modShip ship (fun x => { x with test := some (y.next sect) })).setField (Reg.rasArrStat ship) 24 16 (y.next sect).left
        if cols.isEmpty && !mismatch then s1 else s1.blockFails ship sect k cols.eraseDups mismatch)

/-- The answer of an ARRAY_TEST: OK, or the townships that were withdrawn. -/
def State.testAnswer (s : State) (ts : List Nat) : Answer :=
  let n := (ts.filter (fun t => s.bit (Reg.rasArrStat t) 1)).length
  if n = 0 then okAnswer else ⟨1, n, 0⟩

/-- ARRAY_TEST_END: a township whose blocks are all tested returns to service, and the command completes with its last one. -/
def execArrayTestEnd (ship : Nat) (s : State) : Host.Outcome State Fault Refusal :=
  .next (match (s.ship ship).test with
    | none => s
    | some y =>
      if !y.finished then s
      else
        let s1 := (s.modShip ship (fun x => { x with test := none })).setBit (Reg.rasArrStat ship) 0 false
        s1.queues.foldl (fun s e => e.2.cmds.foldl (fun s c => match c.2.st with
          | .serving d =>
            let ts := (d.drop 3).take (d.getD 2 0)
            if d.headD 0 = 0xF030 ∧ c.2.opcode = 0x080 ∧ d.getD 1 0 = 0 ∧ ts.contains ship ∧ ts.all (fun t => (s.ship t).test.isNone) then s.answer e.1 c.1 (s.testAnswer ts) else s
          | _ => s) s) s1)

end Sys2Proof.Machine
end

