-- ==== Sys2Proof/Machine/Ring.lean ====
section
/-! DEFINITION. Frames of the traverse ring (Table 20-3) and a station's leaving of the ring (R554, R558, R559). -/

namespace Sys2Proof.Machine

/-- One byte into a CRC-8 of polynomial 0x07, most significant bit first. -/
def crc8Bits : Nat → Nat → Nat
  | 0, c => c
  | n + 1, c => crc8Bits n (if c.testBit 7 then (c * 2 ^^^ 0x07) % 256 else c * 2 % 256)
/-- DEDUCED: log entry 79. -/
def crc8 : List Nat → Nat → Nat
  | [], c => c
  | b :: bs, c => crc8 bs (crc8Bits 8 (c ^^^ b))

/-- Byte i of a frame. -/
def frByte (f i : Nat) : Nat := fld f (8 * i + 7) (8 * i)
/-- The CRC of a frame: over its bytes 1 to 14.
(DEDUCED: log entry 79.) -/
def frCrc (f : Nat) : Nat := crc8 ((upTo 14).map (fun i => frByte f (i + 1))) 0
/-- A frame with its CRC. -/
def frSeal (f : Nat) : Nat := putFld (f % 2 ^ 128) 127 120 (frCrc f)
/-- A frame built from its fields: SYNC, TYPE, ORIGIN, HOPS 0, SEQ and the payload from byte 6. -/
def frNew (type origin seq payload : Nat) : Nat :=
  frSeal (0xA5 + type % 256 * 2 ^ 8 + origin % 256 * 2 ^ 16 + seq % 65536 * 2 ^ 32 + payload % 2 ^ 64 * 2 ^ 48)

/-- A frame sent by this station as its origin. -/
def State.ringSend (s : State) (type payload : Nat) : State :=
  let f := frNew type (s.fieldOf Reg.pwrTrvCfg 15 8) s.power.seq payload
  ({ s with power := { s.power with seq := (s.power.seq + 1) % 65536 } }).emit (.frame type [f])

/-- The bypass closes (R558): the station has left the ring, holds no token and no throttle level.
(DEDUCED: log entry 80.) -/
def State.closeBypass (s : State) : State :=
  if s.bit Reg.pwrTrvStat 0 then
    (({ s with power := { s.power with pool := false, levels := [] } }).setField Reg.pwrTrvStat 31 0 0).emit (.pin 0x200 false)
  else s

/-- A station leaves the ring with a RELEASE of its held tokens (R559). -/
def State.ringRelease (s : State) : State :=
  if s.bit Reg.pwrTrvStat 0 then (s.ringSend 4 (s.fieldOf Reg.pwrTrvStat 31 16)).closeBypass else s

end Sys2Proof.Machine
end

