-- ==== Sys2Proof/Machine/Resets.lean ====
section
/-! DEFINITION. The reset kinds of Table 00-3, what each returns to its reset value, the loss of the rails (R590, R594), and the
thermal trip (R553). -/

namespace Sys2Proof.Machine

/-- A bit of PWR_EVENT set; when it sets and its MASK bit is 1, vector 0 of the PF is signalled. -/
def State.pwrEvent (s : State) (k : Nat) : State :=
  if s.bit Reg.pwrEvent k then s
  else
    let s1 := s.setBit Reg.pwrEvent k true
    if s.bit Reg.pwrEvent (8 + k) then s1.interrupt 0 0 else s1

/-- What leaves the hub as its sites stop: the reset of each whose reset was released is asserted (R325). -/
def State.assertResets (s : State) : State :=
  (upTo 8).foldl (fun s n => if 3 ≤ s.fieldOf (Reg.siteStat n) 2 0 ∧ s.fieldOf (Reg.siteStat n) 2 0 ≤ 4 then s.emit (.pin (0x100 + n) false) else s) s

/-- Everything that runs in the fabric stopped and gone: threads, launches, caches, messages, queues, contexts, objects, parcels
and sites. What the auxiliary domain holds stays, with the contents of the stacks, the flash, and the cores' step counters (R93). -/
def State.stopAll (s : State) : State :=
  { State.reset with
    pending := s.pending, regs := s.regs, shadow := s.shadow, commits := s.commits, mem := s.mem, poison := s.poison, badBursts := s.badBursts,
    cores := (s.cores.mapV (fun _ x => { x with mac := none })), flash := s.flash, errlog := s.errlog,
    starts := s.starts, out := s.assertResets.out, free := s.free, tick := s.tick, fuses := s.fuses, recNow := s.recNow, recA := s.recA, recB := s.recB,
    recDue := s.recDue, vin48 := s.vin48, pcieHeld := s.pcieHeld, fns := s.fns,
    sites := s.sites.mapV (fun _ x => { SiteSt.empty with rail := x.rail, active := x.active, half := x.half }) }

/-- READY falls; the bypass closes with it. -/
def State.clearReady (s : State) : State := (s.setBit Reg.glbStatus 0 false).closeBypass

/-- Registers, shadows and COMMIT states of the kinds that a reset leaves (Table 00-3, R16). -/
def State.keepRegs (s : State) (keep : ResetKind → Bool) : State :=
  let ok (k : Nat) : Bool := match regAt? k with
    | some (r, _) => keep r.kind
    | none => false
  { s with
    regs := s.regs.keep (fun k _ => ok k)
    shadow := s.shadow.keep (fun k _ => ok k)
    commits := (s.commits.keep (fun k _ => ok k)) }

/-- A warm reset: the registers marked warm or parcel return to their reset values; GLB_STATUS keeps its other fields (R377), and the
sequence number of the error log goes on (R574). HBM keeps what the homes have written; caches go without writeback (DEDUCED from R261). The station leaves the ring first (R559).
(DEDUCED: log entry 10.) -/
def State.warmReset (s : State) : State :=
  let s1 := ((s.ringRelease).stopAll).keepRegs (fun k => k == .none || k == .cold)
  { ((s1.clearReady).setField Reg.rasStatus 63 32 (s.fieldOf Reg.rasStatus 63 32)) with fns := [], boot := { s1.boot with dead := s.boot.dead }, poison := s1.poison.mapV (fun _ _ => 0), sites := s1.sites.mapV (fun _ x => { x with active := 0, half := 0 }) }

/-- The contents of HBM lost: a fresh epoch. -/
def State.loseHbm (s : State) : State :=
  let (k, s1) := s.stamp
  { s1 with mem := s1.mem.lose (k + 2 ^ 32), poison := [], badBursts := [] }

/-- A cold reset: every register but those marked none; the rails are off, so HBM and the arrays lose their contents, the error log
and the poison list are empty.
(DEDUCED: log entry 10.) -/
def State.coldReset (s : State) : State :=
  let s1 := (s.stopAll).keepRegs (fun k => k == .none)
  { (s1.closeBypass).loseHbm with fns := [], errlog := [], sites := [], cores := [] }

/-- Every rail but the auxiliary one switched off: nothing starts until a cold reset (R590, R553). -/
def State.railsOff (s : State) : State :=
  let s1 := (s.clearReady).stopAll.loseHbm
  let s2 := (upTo 8).foldl (fun s n => s.setField (Reg.siteStat n) 2 0 0) s1
  { s2 with sites := [], cores := [], boot := { s2.boot with dead := true } }

/-- A thermal trip: the rails are switched off, THERMTRIP_N is driven low, and PWR_TRIP holds the cause (R553, R595). -/
def State.thermalTrip (s : State) (stack : Bool) (place : Nat) : State :=
  ((s.railsOff).setReg Reg.pwrTrip (BitVec.ofNat 64 (1 + b2n stack * 2 + place % 2048 * 4))).emit (.pin 0x201 false)

/-- The benchmark record changed, to be written within 100 ms (R536). -/
def State.recMod (s : State) (f : BmRec → BmRec) : State := { s with recNow := f s.recNow, recDue := true }

/-- A write of the record: the copy that is not the record takes the contents with GENERATION one higher, and becomes it (R535).
(DEDUCED: log entry 122.) -/
def State.recWrite (s : State) : State :=
  let g := s.recNow.generation + 1
  let r := { s.recNow with generation := g }
  let bIsOld := match s.recA, s.recB with
    | some a, some b => decide (b.generation < a.generation)
    | some _, none => true
    | none, _ => false
  if bIsOld then { s with recB := some r, recNow := r, recDue := false } else { s with recA := some r, recNow := r, recDue := false }

end Sys2Proof.Machine
end

