-- ==== Sys2Proof/Machine/Stacks.lean ====
section
/-! DEFINITION. Stacked memory in service (chapter 10): read reports, poison and its reload (chapter 21), refresh steps, retraining
slices and failed channels; sleep and wake (R282, R546), and header checks (R284). -/

namespace Sys2Proof.Machine

/-! ### Sleep and wake -/

/-- The logical township whose router is of a number: routers are numbered as the physical townships they stand beside (R263). -/
def State.shipAtRouter (s : State) (router : Nat) : Option Nat := (upTo 256).find? (fun t => s.physOf t == router)

/-- HEADER_RESEND: a router, or an interface at it, refuses a header whose PT or PH fails for the `tries`-th time in a row on one link, and it is
sent again, counted at the router's logical township; the fourth failure is a device-class error (R284). -/
def execHeaderResend (router tries : Nat) (s : State) : Host.Outcome State Fault Refusal :=
  .next (if 260 ≤ router then s else
    let s1 := match s.shipAtRouter router with | some t => s.transit (Reg.nocCnt t 6) 1 | none => s
    if 4 ≤ tries then s1.deviceError 0x0B 0 router 5 else s1)

/-- Whether a packet comes to an interface that holds packets: it is not there yet, and every packet that it may not overtake is. -/
def State.comesNext (s : State) (dst : Node) (free : State → Bool) (seq : Nat) : Bool :=
  let there (n : Nat) : Bool := (s.heldFor dst).any (fun p => p.seq == n)
  !there seq && free { s with net := s.net.filter (fun m => !there m.hdr.seq), toks := s.toks.filter (fun m => !there m.hdr.seq) }

/-- A packet held in the wake buffer of its class and virtual channel, the wake begun and WAKE_HELD counted (R282). It stays on the fabric until it
is delivered. How many packets a buffer holds the spec leaves open, and a full one makes the packet come later.
(DEDUCED: log entry 37.) -/
def State.holdPkt (s : State) (dst : Node) (x : HeldPkt) : State :=
  match dst with
  | .agent t => (s.modShip t (fun y => { y with waking := true, held := y.held ++ [x] })).transit (Reg.nocCnt t 3) 1
  | .home c => { s with engSleep := s.engSleep.set (c / 2) true, engHeld := s.engHeld.set (c / 2) (s.engHeld.getD (c / 2) [] ++ [x]) }
  | .hub _ => s

/-- Whether the interface of an end sleeps. -/
def State.sleeps (s : State) : Node → Bool
  | .agent t => (s.ship t).asleep
  | .home c => s.engSleep.has (c / 2)
  | .hub _ => false

/-- WAKE: a packet reaches a sleeping township, or the spoke of a sleeping memory controller.
(DEDUCED: log entry 37.) -/
def execWake (p : Pkt) (s : State) : Host.Outcome State Fault Refusal :=
  .next (match p with
    | .coh m =>
      if s.sleeps m.dst && s.net.contains m && s.comesNext m.dst (fun x => !x.overtakes m.src m.dst m.kind.cls m.hdr false) m.hdr.seq then
        s.holdPkt m.dst ⟨m.kind.cls, m.hdr.lastVc, m.hdr.seq⟩
      else s
    | .tok m =>
      if s.sleeps m.dst && s.toks.contains m &&
        s.comesNext m.dst (fun x => !x.overtakes m.src m.dst m.cls m.hdr (m.kind == .tcopy || m.kind == .tret)) m.hdr.seq then
        s.holdPkt m.dst ⟨m.cls, m.hdr.lastVc, m.hdr.seq⟩
      else s)

/-- WAKE_DONE: a waking township or memory controller runs again; the packets that its buffers hold come first, in arrival order.
(DEDUCED: log entry 37.) -/
def execWakeDone (engine : Bool) (n : Nat) (s : State) : Host.Outcome State Fault Refusal :=
  .next (if engine then (if s.engSleep.getD n false then { s with engSleep := s.engSleep.erase n } else s)
    else if !(s.ship n).waking then s
    else (s.modShip n (fun x => { x with asleep := false, waking := false })).setBit (Reg.pwrT n) 7 false)

/-- TOWNSHIP_SLEEP: a township without a launch, copy or gather work and running thread sleeps (R546). -/
def execTownshipSleep (ship : Nat) (s : State) : Host.Outcome State Fault Refusal :=
  .next (let x := s.ship ship
    if 256 ≤ ship || x.asleep || s.busyShips.contains ship || !x.streams.isEmpty || !x.held.isEmpty || s.threads.any (fun e => shipOf e.1 == ship) then s
    else (s.modShip ship (fun x => { x with asleep := true })).setBit (Reg.pwrT ship) 7 true)

/-- SELF_REFRESH_ENTRY: a channel-pair engine without a request puts its channels into self-refresh (R546). -/
def execSelfRefreshEntry (engine : Nat) (s : State) : Host.Outcome State Fault Refusal :=
  .next (if 192 ≤ engine || s.engSleep.has engine || s.engHeld.has engine ||
      s.net.any (fun m => match m.dst with | .home c => c / 2 == engine | _ => false) ||
      s.waitq.any (fun q => !q.2.isEmpty && s.channelOf (q.1 * 128) / 2 == engine) ||
      s.channelHeld (2 * engine) || s.channelHeld (2 * engine + 1) then s
    else { s with engSleep := s.engSleep.set engine false })

/-! ### Failed and mapped-out channels (R297, R298) -/

/-- MAPOUT_NEXT of a channel set and recorded. -/
def State.mapoutNext (s : State) (c : Nat) : State :=
  if s.bit (Reg.memCh c) 3 then s
  else (s.setBit (Reg.memCh c) 3 true).recMod (fun r => { r with pendOut := c :: r.pendOut.erase c })

/-- MAPOUT_NEXT: the driver sets a channel's bit through the PF. -/
def execMapoutNext (channel : Nat) (s : State) : Host.Outcome State Fault Refusal :=
  .next (if 384 ≤ channel || !s.driverRow then s else s.mapoutNext channel)

/-- A channel in service becomes FAILED. -/
def State.channelFail (s : State) (c : Nat) : State :=
  let s1 := (s.setField (Reg.memCh c) 2 0 3).mapoutNext c
  let s2 := { s1 with retrain := { s1.retrain with queue := s1.retrain.queue.erase c, phase := s1.retrain.phase.erase c } }
  s2.setField Reg.memRetrainStat 20 12 s2.retrain.queue.length

/-! ### Read reports (R299, R566) -/

/-- The DETAIL of event 0x8003 for a DPA. -/
def State.poisonDetail (s : State) (dpa : Nat) : Nat :=
  match s.bayOf (dpa / 65536 * 65536) with
  | some (e, off) => e * 2 ^ 24 + off
  | none => dpa / 65536

/-- HBM_READ_BURST: the stack reports a burst corrected, or uncorrectable by its ECC; the codeword is bad, and its burst poisoned, until a write of
every byte replaces it (R299). -/
def execHbmReadBurst (dpa : Nat) (uncorrectable : Bool) (s : State) : Host.Outcome State Fault Refusal :=
  .next (let c := s.channelOf dpa
    if s.hbmTop ≤ dpa ∨ 384 ≤ c then s
    else if !uncorrectable then s.addSat (Reg.memCh c) 31 16 1
    else
      let s1 := s.addSat (Reg.memCh c) 15 8 1
      let lim := s.fieldOf Reg.memRetrainCtrl 55 48
      let s2 := if lim ≠ 0 ∧ lim ≤ s1.fieldOf (Reg.memCh c) 15 8 then s1.mapoutNext c else s1
      let own := s.granOwner (dpa / 2 ^ 30)
      let s3 := { s2 with badBursts := if s.badBursts.contains (dpa / 64) then s.badBursts else dpa / 64 :: s.badBursts }
      (s3.record 0x01 1 (if own < 16 then own else 16) dpa c 1 (s.poisonDetail dpa)).poisonAdd dpa)

/-! ### Reload of a poisoned page (R570 to R572) -/

/-- The resident weight set whose bay holds a page. -/
def State.setOfPage (s : State) (page : Nat) : Option (Nat × WeightSet) :=
  s.objs.findSome? (fun o => match o.2.wset with
    | some w => if w.resident && w.bays.contains (page / 16384) then some (o.1, w) else none
    | none => none)

/-- Where a page of a set lies in its source, and how long it is there: a sealed page is a record of 65,600 bytes (R506). -/
def WeightSet.pageAt (w : WeightSet) (i : Nat) : Nat × Nat := if w.sealed then (w.source + i * 65600, 65600) else (w.source + i * 65536, 65536)

/-- A page of a set by its place among the set's bays. -/
def WeightSet.pageNo (w : WeightSet) (page : Nat) : Nat := w.bays.findIdx (fun b => b == page / 16384) * 16384 + page % 16384

/-- The reads of a page's source over the host link with the registering context's PASID (R570). -/
def State.readPageSource (s : State) (page : Nat) (w : WeightSet) : State :=
  match s.ctxOf w.sctx with
  | some c => s.hostGet c.fn c.pasid 18 (hostAddr c (w.pageAt (w.pageNo page)).1) (w.pageAt (w.pageNo page)).2
  | none => s

/-- POISON_RELOAD_START: a listed page of a resident set with a source is read again. -/
def execPoisonReloadStart (page : Nat) (s : State) : Host.Outcome State Fault Refusal :=
  .next (match s.poison.get? page, s.setOfPage page with
    | some 0, some (_, w) =>
      if w.source = 0 then s
      else
        let s1 := { s with poison := s.poison.set page 1 }
        s1.readPageSource page w
    | _, _ => s)

/-- A page written through the home slices with what the host's source holds. -/
def State.writePage (s : State) (page k : Nat) : State :=
  (upTo 512).foldl (fun (s : State) i => s.memWrite (page * 65536 + 128 * i) 128
    (ofBytes ((upTo 128).map (fun j => Config.freeByte (k + 2 ^ 32) (page * 65536 + 128 * i + j))))) s

/-- POISON_RELOAD_DONE: the holders of the page's lines are invalidated first (R258); once none is left, the last write of the reload is made
and the page leaves the list; a report that arose meanwhile restarts the reload.
(DESIGN CHOICE: log entry 42.) -/
def execPoisonReloadDone (page : Nat) (s : State) : Host.Outcome State Fault Refusal :=
  .next (match s.poison.get? page, s.setOfPage page with
    | some 1, some (_, w) =>
      if !s.sealOk w || s.sourceWaits w then s
      else if s.linesHeld (fun l => l / 512 == page) then s.evictLines (fun l => l / 512 == page)
      else
        let (k, s1) := s.stamp
        ((s1.writePage page k).poisonDrop page).addWrap Reg.rasPoisonStat 47 32 1
    | some 2, some (_, w) => ({ s with poison := s.poison.set page 1 }).readPageSource page w
    | _, _ => s)

/-- POISON_RELOAD_FAIL: the set has no source, or of a reload in progress the sealed record fails or the host link returns an error (R572). -/
def execPoisonReloadFail (page : Nat) (s : State) : Host.Outcome State Fault Refusal :=
  .next (match s.poison.get? page, s.setOfPage page with
    | some v, some (_, w) =>
      if v = 0 ∧ w.source ≠ 0 then s
      else ((({ s with poison := s.poison.set page 0 }).addSat Reg.rasPoisonStat 63 48 1).record 0x10 0 16 (page * 65536) w.ease 8 0)
    | _, _ => s)

/-- POISON_CLEAR: the driver removes a page from the list (R569); a page not listed is ignored. -/
def execPoisonClear (page : Nat) (s : State) : Host.Outcome State Fault Refusal :=
  .next (if s.driverRow then s.poisonDrop page else s)

/-! ### Refresh steps (R296) -/

/-- The step that a temperature calls for on a rise, and the threshold of a step. -/
def stepFor (t : Int) : Nat := if 105 ≤ t then 3 else if 95 ≤ t then 2 else if 85 ≤ t then 1 else 0
def stepThreshold (k : Nat) : Int := if k = 3 then 105 else if k = 2 then 95 else 85

/-- A fall: each step is left once the reading is 3 °C below its threshold. -/
def stepFall (t : Int) : Nat → Nat
  | 0 => 0
  | k + 1 => if t ≤ stepThreshold (k + 1) - 3 then stepFall t k else k + 1

/-- REFRESH_STEP_CHANGE: a reading of a stack's temperature, two's complement in 8 bits, sets TEMP and the refresh step; 115 °C is a
thermal trip (R553). -/
def execRefreshStepChange (stack : Nat) (temp : BitVec 8) (s : State) : Host.Outcome State Fault Refusal :=
  .next (if 12 ≤ stack then s
    else
      let t := temp.toInt
      let old := s.fieldOf (Reg.memStack stack) 9 8
      let new := if old < stepFor t then stepFor t else stepFall t old
      let s1 := (s.setField (Reg.memStack stack) 7 0 temp.toNat).setField (Reg.memStack stack) 9 8 new
      let s2 := if new = 3 ∧ old ≠ 3 then s1.pwrEvent 2 else s1
      if 115 ≤ t then s2.thermalTrip true stack else s2)

/-! ### Retraining (R300 to R303) -/

/-- A channel put at the end of the retrainings that wait. -/
def State.askRetrain (s : State) (c : Nat) : State :=
  if s.retrain.queue.contains c ∨ s.retrain.phase.has c ∨ 3 ≤ s.fieldOf (Reg.memCh c) 2 0 then s
  else
    let s1 := { s with retrain := { s.retrain with queue := s.retrain.queue ++ [c] } }
    s1.setField Reg.memRetrainStat 20 12 s1.retrain.queue.length

/-- A temperature in a field of 8 bits, two's complement. -/
def tempInt (n : Nat) : Int := (BitVec.ofNat 8 n).toInt

/-- The temperature of a channel's stack at the channel's last training: in service, or else at the start-up. -/
def State.trainTemp (s : State) (c : Nat) : Nat := s.retrain.temps.getD c (s.retrain.temps.getD (384 + c / 32) 0)

/-- Whether the stack's temperature differs by TEMP_DELTA, of which 0 acts as 1, from that at the channel's last training (R300). -/
def State.drifted (s : State) (c : Nat) : Bool :=
  decide (max 1 (s.fieldOf Reg.memRetrainCtrl 39 32) ≤ (tempInt (s.fieldOf (Reg.memStack (c / 32)) 7 0) - tempInt (s.trainTemp c)).natAbs)

/-- Whether the CE count of a channel has risen by CE_RETRAIN since the last retraining began; whether within one second is the clock's.
(DESIGN CHOICE: log entry 108.) -/
def State.ceRisen (s : State) (c : Nat) : Bool :=
  decide (s.fieldOf Reg.memRetrainCtrl 47 40 ≤ s.fieldOf (Reg.memCh c) 31 16 - s.retrain.ceAt.getD c 0)

/-- RETRAIN_TRIGGER: a cause of R300 arises at a channel: 0 its period, 1 drift, 2 corrected reports. -/
def execRetrainTrigger (channel cause : Nat) (s : State) : Host.Outcome State Fault Refusal :=
  .next (let on := s.bit Reg.memRetrainCtrl 0 && (match cause with
      | 0 => s.fieldOf Reg.memRetrainCtrl 31 16 != 0
      | 1 => s.bit Reg.memRetrainCtrl 1 && s.drifted channel
      | 2 => s.fieldOf Reg.memRetrainCtrl 47 40 != 0 && s.ceRisen channel
      | _ => false)
    if 384 ≤ channel || !on then s else s.askRetrain channel)

/-- RETRAIN: the driver writes 1 to RETRAIN of a channel through the PF. -/
def execRetrain (channel : Nat) (s : State) : Host.Outcome State Fault Refusal :=
  .next (if 384 ≤ channel || !s.driverRow then s else (s.setBit (Reg.memCh channel) 4 true).askRetrain channel)

/-- SLICE_START: the next slice of a retraining in progress, or the first of the oldest that waits while ENABLE is 1; its engine is
awake and its requests are held. -/
def execSliceStart (channel : Nat) (s : State) : Host.Outcome State Fault Refusal :=
  .next (let going := s.retrain.phase.has channel
    let first := s.retrain.queue.head? == some channel && s.bit Reg.memRetrainCtrl 0
    if s.bit Reg.memRetrainStat 9 || !(going || first) || decide (3 ≤ s.fieldOf (Reg.memCh channel) 2 0) then s
    else
      let ph := s.retrain.phase.getD channel 0
      let s1 := if going then s else
        ({ s with retrain := { s.retrain with queue := s.retrain.queue.drop 1, phase := s.retrain.phase.set channel 0,
                                              ceAt := s.retrain.ceAt.set channel (s.fieldOf (Reg.memCh channel) 31 16) } }).setBit (Reg.memCh channel) 4 false
      let s2 := { (s1.setField (Reg.memCh channel) 2 0 2) with engSleep := s1.engSleep.erase (channel / 2) }
      let n := s.fieldOf Reg.memRetrainStat 63 32
      (s2.setReg Reg.memRetrainStat (BitVec.ofNat 64
        (channel + 2 ^ 9 + ph * 2 ^ 10 + s2.retrain.queue.length * 2 ^ 12 + (n + 1) % 2 ^ 32 * 2 ^ 32))).trace 3 1 (channel / 2)
        (bytesOf 4 channel ++ bytesOf 4 ph))

/-! ### Loss of a domain, device errors and watchdogs (chapter 21, R260) -/

/-- The parcel that owns what lies at a DPA of the reserved range: an entry of its range of the cadastre (CAD_P_ENTRIES), or of its plat
(Table 10-8). -/
def State.reservedOwner (s : State) (cause dpa : Nat) : Option Nat :=
  if cause = 0x06 then
    (s.parcels.find? (fun e => decide (s.rsv (cadOff (s.fieldOf (Reg.cadPEntries e.1) 21 0)) ≤ dpa) &&
      decide (dpa < s.rsv (cadOff (s.fieldOf (Reg.cadPEntries e.1) 21 0 + s.fieldOf (Reg.cadPEntries e.1) 54 32))))).map Prod.fst
  else (s.parcels.find? (fun e => decide (s.rsv (platOff e.1 0) ≤ dpa) && decide (dpa < s.rsv (platOff (e.1 + 1) 0)))).map Prod.fst

/-- The agents of every parcel that maps an easement of a line: townships, and the agents that chiplets of sites that are UP advertise (R235). -/
def State.easeAgents (s : State) (dpa : Nat) : List Nat :=
  match s.bayOf dpa with
  | some (e, _) => ((s.easeParcels e).map (fun p => match s.parcels.get? p with
      | some x => if x.down then [] else x.agents.filter (fun a => a < 256 || (s.fieldOf (Reg.siteStat ((a - 256) / 4)) 2 0 == 4 && decide ((a - 256) % 4 < s.siteAgents ((a - 256) / 4))))
      | none => [])).flatten
  | none => []

/-- Words 0 to 4 of an entry of an easement line lost (R239): every agent that may hold the line is sent an invalidation, and the entry goes free once
each has answered. In a busy entry, a transaction that takes every copy away asks the agents that it has not asked yet; one that grants a copy goes on,
and the entry names every agent after it.
(DESIGN CHOICE: log entry 110.) -/
def State.rebuildEntry (s : State) (line : Nat) : State :=
  match s.dir.get? line with
  | some e =>
    let all := s.easeAgents (line * 128)
    let vec : BitVec 288 := BitVec.ofNat 288 (all.foldl (fun v a => v ||| 2 ^ a) 0)
    match e.txn with
    | none => s.evictLine line { e with st := .S, ease := true, vec := vec }
    | some x =>
      if x.free then
        let more := all.filter (fun a => !vecBit e.vec a)
        ({ s with dir := s.dir.set line { e with vec := e.vec ||| vec, txn := some { x with invAcks := x.invAcks + more.length } } }).invAll
          (Msg.blank .rcl (s.homeOf (line * 128)) (s.homeOf (line * 128)) (line * 128) e.parcel 0) more (s.homeOf (line * 128)) true
      else { s with dir := s.dir.set line { e with vec := e.vec ||| vec, txn := some { x with nextVec := x.nextVec ||| vec } } }
  | none => s

/-- An error that takes down the domain of a parcel that has one. -/
def State.domainError (s : State) (cause : Nat) (p : Option Nat) (addr unit kind : Nat) : State :=
  match p with
  | some k => if s.parcels.has k then s.parcelError cause k addr unit kind 0 else s
  | none => s

/-- An uncorrectable error in words 0 to 4 of a directory entry: one of an easement line is rebuilt, one of a parcel takes its domain down
(R239, R561). -/
def State.entryLost (s : State) (ease : Bool) (dpa : Nat) : State :=
  match s.dir.get? (dpa / 128) with
  | some e =>
    if e.ease != ease then s
    else if ease then (s.record 0x03 0 16 dpa (s.channelOf dpa) 2 0).rebuildEntry (dpa / 128)
    else s.domainError 0x04 (some e.parcel) dpa (s.channelOf dpa) 2
  | none => s

/-- An uncorrectable error in word 5 of a directory entry: the domain of every parcel that holds HBM is down (R562). -/
def State.wordFiveLost (s : State) (dpa : Nat) : State :=
  ((s.parcels.filter (fun e => !e.2.grans.isEmpty)).map Prod.fst).foldl (fun s p => match s.parcels.get? p with
    | some x => if x.down then s else s.domainSweep p none
    | none => s) (s.record 0x05 2 17 dpa (s.channelOf dpa) 2 0)

/-- The parcel, the DPA and the unit that the log record of an error at a DPA, or in a physical township's cache, shows (Table 21-2): 16 stands
for no one parcel, and an error of directory word 5 is of no parcel. -/
def State.errorAt (s : State) (cause dpa unit : Nat) : Nat × Nat × Nat :=
  if cause = 0x04 then (((s.dir.get? (dpa / 128)).map (fun e => e.parcel)).getD 16, dpa, s.channelOf dpa)
  else if cause = 0x05 then (17, dpa, s.channelOf dpa)
  else if cause = 0x06 ∨ cause = 0x07 then ((s.reservedOwner cause dpa).getD 16, dpa, 0)
  else if cause = 0x08 then (((s.shipAtRouter unit).bind s.parcelOfShip).getD 16, 0, unit)
  else (16, dpa, s.channelOf dpa)

/-- DOMAIN_DOWN: an uncorrectable error that concerns a parcel: 0x03 and 0x04 directory words 0 to 4, 0x05 directory word 5, 0x06 a
cadastre entry, 0x07 a plat entry, each at a DPA; 0x08 the tag parity of a physical township's cache. Cause 0x03 only rebuilds an entry of an
easement line; 0x05 concerns every parcel that holds HBM (R561, R562); the parcel of the others is that of the entry or the township, and an
event that names another parcel, DPA or unit than its record shows cannot occur.
(DESIGN CHOICE: log entry 2.) -/
def execDomainDown (cause parcel dpa unit : Nat) (s : State) : Host.Outcome State Fault Refusal :=
  .next (if s.errorAt cause dpa unit ≠ (parcel, dpa, unit) then s
    else if cause = 0x03 then s.entryLost true dpa
    else if cause = 0x04 then s.entryLost false dpa
    else if cause = 0x05 then s.wordFiveLost dpa
    else if cause = 0x06 ∨ cause = 0x07 then s.domainError cause (s.reservedOwner cause dpa) dpa 0 0
    else if cause = 0x08 then s.domainError 0x08 ((s.shipAtRouter unit).bind s.parcelOfShip) 0 unit 3
    else s)

/-- RECOVERY_END: the recovery test of a parcel's townships has ended, and the parcel reset is applied (R260 step 6);
sites whose restart waited for it begin (R334). -/
def execRecoveryEnd (parcel : Nat) (s : State) : Host.Outcome State Fault Refusal :=
  .next (match s.parcels.get? parcel with
    | none => s
    | some x =>
      if !x.down || x.ships.any (fun t => (s.ship t).test.isSome) then s
      else
        let s1 := s.parcelReset parcel x.ships x.sites
        x.sites.foldl (fun (s : State) n => s.beginRestart n) (({ s1 with parcels := s1.parcels.set parcel { x with down := false } }).reShare).flushEnd)

/-- DEVICE_ERROR: an uncorrectable entry of a bearing table, the channel map, an expert route table, the granule owner table or the
poison list (cause 0x0D). -/
def execDeviceError (addr unit kind : Nat) (s : State) : Host.Outcome State Fault Refusal :=
  .next (s.deviceError 0x0D addr unit kind)

/-- FIELD_CORE_WATCHDOG: the service firmware restarts; FW opcodes in progress or queued on a function queue complete with INTERNAL
(R564). -/
def execFieldCoreWatchdog (core : Nat) (s : State) : Host.Outcome State Fault Refusal :=
  .next (let s1 := (s.addSat Reg.rasStatus 31 16 1).record 0x0E 0 16 0 core 6 0
    { s1 with queues := s1.queues.mapV (fun _ q =>
      if q.ctx = 0 then { q with cmds := q.cmds.mapV (fun _ c =>
        if fwOpcode c.opcode && c.open_ then { c with st := .done ⟨0xF0, 0x0E, 0⟩ } else c) }
      else q) })

/-- DATUM_CONTROLLER_WATCHDOG: a device-class error (R564). -/
def execDatumControllerWatchdog (s : State) : Host.Outcome State Fault Refusal :=
  .next (s.deviceError 0x0F 0 0 7)

/-- PRED_CLEAR: the driver invalidates every entry of a township's expert predictor (R162). -/
def execPredClear (ship : Nat) (s : State) : Host.Outcome State Fault Refusal :=
  .next (if 256 ≤ ship || !s.driverRow then s else s.modShip ship (fun x => { x with pred := [] }))

/-- ATOM_CLEAR: the driver sets every contention counter of a township to 0 (R254). -/
def execAtomClear (ship : Nat) (s : State) : Host.Outcome State Fault Refusal :=
  .next (if 256 ≤ ship || !s.driverRow then s else s.modShip ship (fun x => { x with contend := [] }))

end Sys2Proof.Machine
end

