-- ==== Sys2Proof/Machine/Startup.lean ====
section
/-! DEFINITION. The life-cycle vote (R516 to R519), the nine steps of start-up (chapter 19), and the board's rails and reset (R590 to
R594). -/

namespace Sys2Proof.Machine

/-! ### Fuses and the life-cycle state -/

/-- DESIGN CHOICE: log entry 11. -/
def State.burn (s : State) (w v : Nat) : State := { s with fuses := s.fuses.set w v }

/-- Codes of the life-cycle states (Table 18-2). -/
def lcCode (t : Nat) : Nat := 4 ^ (t + 1) - 1
/-- The state a copy holds; none where the copy is invalid. -/
def lcState? (c : Nat) : Option Nat := (upTo 5).find? (fun t => c == lcCode t)
/-- Copy j of the life-cycle word. -/
def lcCopy (w j : Nat) : Nat := fld w (10 * j + 9) (10 * j)

/-- The vote over the five copies (R517).
(DEDUCED: log entry 77.) -/
def lcVote (w : Nat) : Option Nat :=
  let v := (upTo 5).filterMap (fun j => lcState? (lcCopy w j))
  let n (t : Nat) : Nat := (v.filter (fun x => x == t)).length
  match (upTo 5).find? (fun t => decide (3 ≤ n t)) with
  | some t => some t
  | none =>
    if v.length = 4 ∧ ((upTo 5).filter (fun t => n t == 2)).length = 2 then (upTo 5).find? (fun t => n t == 2) else none

/-- A copy programmed to state t (R518): a copy that holds t or a higher state stays; bits only rise; a copy that does not read back as t
is left as it stands, which is free between what it held and what was programmed.
(DEDUCED: log entries 77, 122.) -/
def State.programCopy (s : State) (j t : Nat) : State :=
  let w := s.fuseW 0
  let c := lcCopy w j
  if (lcState? c).any (fun x => decide (t ≤ x)) then s
  else
    let (bad, s1) := s.flip
    let (part, s2) := s1.freshNat
    let new := if bad then c ||| (part % 1024 &&& lcCode t) else c ||| lcCode t
    s2.burn 0 (putFld w (10 * j + 9) (10 * j) new)

/-- The copies that hold a state or a higher one. -/
def State.copiesAt (s : State) (t : Nat) : Nat :=
  ((upTo 5).filter (fun j => lcState? (lcCopy (s.fuseW 0) j) == some t)).length

/-- ENROLLED, by majority of three. -/
def State.enrolled (s : State) : Bool := decide (2 ≤ countBelow 3 (s.fuseW 5).testBit)
/-- Word k of OWNER, bit by bit by majority of its three copies. -/
def State.ownerWord (s : State) (k : Nat) : Nat :=
  let a := s.fuseW (6 + k)
  let b := s.fuseW (12 + k)
  let c := s.fuseW (18 + k)
  (a &&& b) ||| (a &&& c) ||| (b &&& c)
def State.owner (s : State) : Nat := ((upTo 6).map (fun k => s.ownerWord k % 2 ^ 64 * 2 ^ (64 * k))).sum
def State.identity (s : State) : Nat := ((upTo 4).map (fun k => s.fuseW (1 + k) % 2 ^ 64 * 2 ^ (64 * k))).sum

/-- The state read after a start-up or a transition, in LCS_STATUS and SEC_STATUS; no majority reads as SCRAPPED.
(DEDUCED: log entry 77.) -/
def State.lcRead (s : State) : State :=
  let w := s.fuseW 0
  let states := (upTo 5).filterMap (fun j => lcState? (lcCopy w j))
  let valid := ((upTo 5).map (fun j => b2n (lcState? (lcCopy w j)).isSome * 2 ^ j)).sum
  let split := states.any (fun t => states.any (fun u => t != u))
  let st := (lcVote w).getD 4
  let s1 := s.setReg Reg.lcsStatus (BitVec.ofNat 64 (st + b2n (lcVote w).isNone * 8 + b2n split * 16 + b2n s.enrolled * 32 +
    s.fieldOf Reg.lcsStatus 6 6 * 64 + valid * 2 ^ 8))
  s1.setField Reg.secStatus 18 16 st

/-- Debug closed as the life-cycle state and confidential mode make it (Table 18-1); trace stops with it (R581). -/
def State.debugRule (s : State) : State :=
  let st := s.fieldOf Reg.lcsStatus 2 0
  let closed := s.confidential || st == 2 || st == 4
  let s1 := s.setBit Reg.secStatus 1 closed
  if closed then s1.traceStop else s1

/-! ### Site configuration (R309 to R320) -/

/-- The width a WIDTH code names. -/
def widthOf (c : Nat) : Nat := [0, 1, 2, 4, 8, 10, 12].getD c 0

/-- The width of a site: the configured one, or, for auto, the chiplet's own capped at what the home block permits (R320). -/
def State.siteWidth (s : State) (n advert : Nat) : Nat :=
  let c := fld (s.siteConf n) 3 1
  if c = 0 then min (widthOf advert) (if (s.homeBlock n).length = 8 then 8 else 4) else widthOf c

/-- SITE_MOD_MAP: the owner of each pair, and whether a configured link uses it. -/
def State.modMaps (s : State) : State :=
  let owner (p : Nat) : Nat :=
    let n := p / 4
    if p % 4 = 0 ∧ n % 4 ≠ 0 ∧ s.borrowS (n - 1) then n - 1
    else if p % 4 = 3 ∧ n % 4 ≠ 3 ∧ s.borrowN (n + 1) then n + 1 else n
  let used (p : Nat) : Bool := (upTo 8).any (fun n => (s.linkModules n (s.site n).width).any (fun m => m / 2 == p) && decide (0 < (s.site n).width))
  (upTo 2).foldl (fun s e => s.setReg (Reg.siteModMap e) (BitVec.ofNat 64
    (((upTo 16).map (fun i => (owner (16 * e + i) + b2n (used (16 * e + i)) * 8) * 16 ^ i)).sum))) s

/-- A site left absent, with its cause; its reset is asserted. The rail of one that is not enabled or not detected is off (R26, R318). -/
def State.siteAbsent (s : State) (n cause : Nat) : State :=
  let s1 := ((s.setField (Reg.siteStat n) 7 4 cause).siteState n 0).emit (.pin (0x100 + n) false)
  s1.modSite n (fun x => { SiteSt.empty with rail := if cause ≤ 3 then 0 else x.rail, sb := [] })

/-- Step 4 for the sites (R319): an enabled, detected site's rail ramps, with its reset asserted (R325). -/
def State.sitesRamp (s : State) (pads : Nat) : State :=
  (upTo 8).foldl (fun s n =>
    let det := pads.testBit n
    let s1 := (s.setReg (Reg.siteStat n) 0).setBit (Reg.siteStat n) 3 det
    if (s1.siteConf n).testBit 0 then
      (if det then ((s1.modSite n (fun x => { SiteSt.empty with rail := x.rail, width := widthOf (fld (s.siteConf n) 3 1) })).siteState n 1).emit (.pin (0x100 + n) false)
       else s1.siteAbsent n 2)
    else s1.siteAbsent n (if det then 3 else 1)) s

/-! ### Bad units (R537 to R539) -/

/-- The good physical townships of a field in order of position, and the number of its logical townships that are present. -/
def State.goodShips (s : State) (f : Nat) : List Nat := ((upTo 130).map (fun i => 130 * f + i)).filter (fun t => !s.badShip s.recNow.units t)
def State.fieldCount (s : State) (f : Nat) : Nat := min 128 (s.goodShips f).length

/-- The logical map, NOC_COORD, the capacity of the townships and the yield set, from the bad units of the fuses and of the learned map, which stand
until the next start-up (R23, R539). -/
def State.logicalMap (s : State) : State :=
  let u := s.recNow.units
  let g (f : Nat) : List Nat := (s.goodShips f).take (s.fieldCount f)
  let use := g 0 ++ g 1
  let spareC := (use.map (fun t => ((((upTo 66).filter (fun i => !s.badSection u (66 * t + i))).take 64).map (fun i => s.badCores u (66 * t + i))).sum)).sum
  let spareS := (use.map (fun t => (s.badSections u t).length)).sum
  let bad := ((upTo 260).filter (s.badShip u)).length
  let s1 := (upTo 256).foldl (fun s t =>
    match (g (t / 128))[t % 128]? with
    | some p => s.setReg (Reg.nocCoord t) (BitVec.ofNat 64 (p / 10 + p % 10 * 2 ^ 8))
    | none => s.setReg (Reg.nocCoord t) (BitVec.ofNat 64 (2 ^ 12))) s
  let s2 := ({ s1 with units := u }.setField Reg.glbCapacity 7 0 (s.fieldCount 0)).setField Reg.glbCapacity 15 8 (s.fieldCount 1)
  s2.setReg Reg.glbYield (BitVec.ofNat 64 (min spareC 65535 + min spareS 1023 * 2 ^ 16 + bad * 2 ^ 32 + min s.boot.newBad 65535 * 2 ^ 48))

/-- Whether the learned map of the record names a unit. -/
def BmRec.names (r : BmRec) (u : Nat) : Bool :=
  if u < 260 then r.badT.contains u else if u < 260 + 17160 then r.badS.contains (u - 260) else r.badC.contains (u - 17420)

/-- Failing units entered in the learned map; those that were good count as new. -/
def State.learn (s : State) (us : List Nat) : State :=
  let new := us.eraseDups.filter (fun u => !s.fuseBad u && !s.recNow.names u)
  { s with recNow := new.foldl BmRec.bad s.recNow, boot := { s.boot with newBad := s.boot.newBad + new.length } }

/-- A failing column that the start-up's array test finds: a spare takes its place and the record's map names it, or its unit is bad (R226). -/
def State.bootColumn (s : State) (x : Repair) : State :=
  if s.sparesLeft x.ship x.arr = 0 then s.learn [arrayUnit x.ship x.arr] else s.repair x.ship x.arr [x.col]

/-- The failing columns of a physical township that a start-up's array test finds: those that the repair map of the fuses and of the record does not
replace already (R225). -/
def State.newColumns (s : State) (f : BootFacts) : List Repair :=
  f.cols.eraseDups.filter (fun x => !s.recNow.repairs.contains x && !(Config.fuseRepairs x.ship).contains (x.arr, x.col))

/-! ### Firmware images (R492, R531, R584) -/

/-- The first flash offset of a slot, and the bytes of one: slot 0 at 0, slot 1 at 0x01F0_0000, each of 0x01F0_0000 bytes (R584). -/
def slotBase (slot : Nat) : Nat := slot * 0x01F00000
def slotBytes : Nat := 0x01F00000

/-- The key of an image in `flash`: its slot and component. -/
def imageKey (slot comp : Nat) : Nat := slot * 4 + comp

/-- The most image bytes of a component (Table 22-5). -/
def imageLimit (comp : Nat) : Nat := if comp = 1 then 196608 else if comp = 2 then 2 ^ 24 else 2 ^ 19

/-- The lowest security version accepted of a component (SEC_SVN): the trusted firmware's for the signed patch, else the service firmware's.
(DEDUCED: log entry 84.) -/
def State.lowestSvn (s : State) (comp : Nat) : Nat := if comp = 1 then fld (s.fuseW 24) 15 0 else fld (s.fuseW 24) 31 16

/-- The body of an image's envelope by Table 22-5: component, security version, version, size, and the zero fields and padding. -/
def bodyOk (comp low len body : Nat) : Bool :=
  let size := pb body 11 8
  pb body 0 0 == comp && pb body 1 1 == 0 && decide (low ≤ pb body 3 2) && decide (size ≤ imageLimit comp) && pb body 15 12 == 0 &&
    len == 16 + ceilDiv size 8 * 8 && body / 2 ^ (8 * (16 + size)) == 0

/-- Whether an image of a component is accepted (R531): a dual-signed envelope of KIND 0x0001 from the Skasol signer, whose pair verifies and whose
body keeps Table 22-5. -/
def State.imageOk (s : State) (comp : Nat) (bs : List Byte) : Bool :=
  let v := ofBytes bs
  let len := pb v 7 4
  let d := Config.sha384 [v % 2 ^ (8 * (64 + len))]
  let ed := pb v (64 + len + 63) (64 + len)
  let ml := pb v (64 + len + 64 + 3311) (64 + len + 64)
  pb v 1 0 == 1 && pb v 3 2 == 1 && len != 0 && len % 8 == 0 && pb v 55 8 == s.fuseW 26 && pb v 63 56 == 0 && bs.length == 64 + len + 64 + 3312 &&
    bodyOk comp (s.lowestSvn comp) len (pb v (63 + len) 64) &&
    Config.verify (s.fuseW 26) d ed && Config.verify (s.fuseW 26) (Config.sha384 [d, ed]) ml

/-- Whether every image of a slot is accepted; those that the part brought are as the start-up finds them.
(DESIGN CHOICE: log entry 11.) -/
def State.slotOk (s : State) (f : BootFacts) (slot : Nat) : Bool :=
  [1, 2, 3].all (fun c => match s.flash.get? (imageKey slot c) with
    | some bs => s.imageOk c bs
    | none => if slot = 1 then f.fw1 else f.fw0)

/-- The VERSION of a component of a slot, where an image was written since the model began. -/
def State.versionOf (s : State) (slot comp alt : Nat) : Nat :=
  match s.flash.get? (imageKey slot comp) with
  | some bs => pb (ofBytes bs) 71 68 % 65536
  | none => alt % 65536

/-- GLB_FW: the version of the datum controller firmware, and the levels of the patch and the service firmware of a slot. -/
def State.fwWord (s : State) (f : BootFacts) (slot : Nat) : Nat :=
  f.fw % 65536 + s.versionOf slot 1 (f.fw / 2 ^ 16) * 2 ^ 16 + s.versionOf slot 2 (f.fw / 2 ^ 32) * 2 ^ 32

/-- The measurement blocks 1 to 4: the digests of the ROM and of the images of a slot.
(DESIGN CHOICE: log entry 74.) -/
def State.measure (s : State) (f : BootFacts) (slot : Nat) : List Nat :=
  Config.sha384 [1, f.fw % 65536] :: [1, 2, 3].map (fun c => match s.flash.get? (imageKey slot c) with
    | some bs => Config.sha384 [ofBytes (bs.drop 80 |>.take (pb (ofBytes bs) 75 72))]
    | none => Config.sha384 [1 + c, f.fw, slot])

/-! ### Keys and certificates (R493, R494) -/

/-- The identity keys, from the unit's secret alone; the alias and sealing keys, from the secret and the digests of the ROM and the patch
(R493). A public key is derived from its private one by label 2.
(DESIGN CHOICE: log entry 74.) -/
def State.trusted (s : State) : Nat := Config.sha384 [s.meas.getD 0 0, s.meas.getD 1 0]
def State.identityKey (s : State) : Nat := Config.derive (s.fuseW 27) 0
def State.aliasKey (s : State) : Nat := Config.derive (s.fuseW 27) s.trusted
def State.sealKey (s : State) : Nat := Config.derive (Config.derive (s.fuseW 27) s.trusted) 3
def mlKey (k : Nat) : Nat := Config.derive k 1
def pubOf (k : Nat) : Nat := Config.derive k 2

/-- An envelope of KIND 0x0003 signed with a pair of keys. -/
def keyEnvelope (k : Nat) (body : List Nat) : Envelope :=
  let signer := Config.sha384 [pubOf k, pubOf (mlKey k)]
  let d := Config.sha384 (3 :: signer :: body)
  let ed := Config.sign k d
  ⟨3, signer, body, Config.sign (mlKey k) (Config.sha384 [d, ed])⟩

/-- The chain of slot 0: Skasol's root, the identity certificate issued at MAKER with the identity ML-DSA-65 key in its extension, and the alias
certificate that the identity key issues at each start-up (R494).
(DESIGN CHOICE: log entry 74.) -/
def State.chain (s : State) : List Cert :=
  let id := pubOf s.identityKey
  let al := pubOf s.aliasKey
  [⟨Config.cert 0, Config.cert 1, none⟩,
   ⟨id, Config.cert 2, some ⟨3, Config.cert 3, [pubOf (mlKey s.identityKey)], Config.cert 4⟩⟩,
   ⟨al, Config.sign s.identityKey (Config.sha384 [al]),
    some (keyEnvelope s.identityKey [pubOf (mlKey s.aliasKey), pubOf s.sealKey, pubOf (mlKey s.sealKey), ((upTo 4).map (fun k => s.fuseW (1 + k) % 2 ^ 64 * 2 ^ (64 * k))).sum])⟩]

/-! ### The steps -/

/-- A start-up stopped with a FAIL code (R529). -/
def State.bootFail (s : State) (code step : Nat) : State :=
  let s1 := (s.setField Reg.glbBootStat 7 4 code).setField Reg.glbBootStat 11 8 step
  { s1 with boot := { s1.boot with step := 10, held := false } }

def State.phase (s : State) (k : Nat) : State :=
  { (s.setField Reg.glbStatus 11 8 k) with boot := { s.boot with step := k } }

/-- The record that a start-up takes (R534), with what its pending GLB_BOOT_CTRL bits ask (GLB_BOOT_CTRL), and whether it is valid. A set scrub flag
outlives FACTORY (R505).
(DEDUCED: log entry 122.) -/
def State.takeRecord (s : State) (f : BootFacts) : BmRec × Bool × Nat :=
  let a := if f.recA then s.recA else none
  let b := if f.recB then s.recB else none
  let best : Option BmRec := match a, b with
    | some x, some y => if x.generation < y.generation then some y else some x
    | some x, none => some x
    | none, y => y
  match best with
  | none => (BmRec.factory, false, 0)
  | some r =>
    if r.ctl.testBit 4 then ({ BmRec.factory with generation := r.generation, scrub := r.scrub }, false, r.ctl)
    else
      let r1 := if r.ctl.testBit 1 then { r with repairs := [], badT := [], badS := [], badC := [] } else r
      let r2 := if r.ctl.testBit 2 then { r1 with mapped := [] } else r1
      let r3 := if r.ctl.testBit 3 then { r2 with fails := [] } else r2
      (r3, true, r.ctl)

/-- The channels that a start-up maps out (R297, R533). -/
def State.mapOut (s : State) (f : BootFacts) : List Nat :=
  (upTo 384).filter (fun c => s.recNow.mapped.contains c || s.recNow.pendOut.contains c || f.failed.contains c)

/-- Steps 1 to 3: the life cycle, the record, the firmware. A record whose channels that are out differ from those of the map in force
leaves HBM without meaning (R290). False where the start-up stops.
(DEDUCED: log entry 78.) -/
def State.boot123 (s : State) (f : BootFacts) : Bool × State :=
  let s0 := (s.setBit Reg.glbStatus 0 false).phase 1
  let s1 := match lcVote (s0.fuseW 0) with
    | some t => if 3 ≤ s0.copiesAt t then (upTo 5).foldl (fun (s : State) j => s.programCopy j t) s0 else s0
    | none => s0
  let s2 := s1.lcRead.debugRule
  if s2.fieldOf Reg.lcsStatus 2 0 = 4 then (false, s2.bootFail 4 1)
  else
    let (r, valid, acted) := s2.takeRecord f
    let warm := valid && !r.ctl.testBit 0
    let r1 := { r with ctl := 0, starts := (r.starts + 1) % 2 ^ 32 }
    let s3 := { s2 with recNow := r1, boot := { s2.boot with warm := warm, facts := some f, newBad := 0 }, degraded := false }
    let s4 := s3.setReg Reg.glbBootStat (BitVec.ofNat 64 (b2n warm + b2n (!valid) * 2 + r1.starts % 65536 * 2 ^ 48))
    let s5 := s4.setReg Reg.glbBootCtrl (s4.reg Reg.glbBootCtrl &&& ~~~ (BitVec.ofNat 64 acted))
    let cfg (n : Nat) : Nat := r1.cfg.getD n (regReset (Reg.siteCfg n)).toNat
    let s5 := if s5.mapOut f = s.recNow.mapped then s5 else s5.loseHbm
    let s6 := (upTo 8).foldl (fun (s : State) n =>
      { (s.setReg (Reg.siteCfg n) (BitVec.ofNat 64 (cfg n))) with siteCfgs := s.siteCfgs.set n (cfg n), shadow := s.shadow.erase (Reg.siteCfg n) }) s5
    let s7 := (s6.setReg Reg.pwrTrvCfg (BitVec.ofNat 64 r1.trv)).phase 2
    let named := r1.slot % 2
    let first := s7.slotOk f named
    if !first && !s7.slotOk f (1 - named) then (false, s7.bootFail 1 2)
    else
      let slot := if first then named else 1 - named
      let s8 := { s7 with meas := s7.measure f slot }
      (true, ((({ s8 with certs := s8.chain }).setBit Reg.glbBootStat 2 (slot == 1)).setReg Reg.glbFw (BitVec.ofNat 64 (s7.fwWord f slot))).phase 3)

/-- The channel map of R289 applied: the factory order without the channels that are out. -/
def State.applyMap (s : State) (out : List Nat) : State :=
  let order := ((upTo 384).map (fun k => k % 12 * 32 + k / 12)).filter (fun c => !out.contains c)
  let n := order.length
  let s1 := (upTo 384).foldl (fun s k => s.setReg (cmapKey k) (BitVec.ofNat 64 (order.getD k 0x1FF))) s
  let s2 := (upTo 384).foldl (fun (s : State) c => s.setReg (Reg.memCh c)
    (BitVec.ofNat 64 (b2n (out.contains c) * 4 + b2n (s.recNow.pendOut.contains c) * 8))) s1
  let s3 := ({ s2 with shadow := s2.shadow.keep (fun k _ => decide (k < cmapKey 0) || decide (cmapKey 384 ≤ k)) }).setReg Reg.memCap
    (BitVec.ofNat 64 (n + 2 * n * 2 ^ 16))
  (s3.applied Reg.memCmapCommit).setField Reg.glbCapacity 24 16 n

/-- Step 6 (R288 to R291): false where the reserved range does not fit. -/
def State.boot6 (s : State) (f : BootFacts) : Bool × State :=
  let s0 := s.phase 6
  let out := s0.mapOut f
  let s1 := (s0.applyMap out).setField Reg.glbBootStat 47 32 (if s.boot.warm then min f.saved.length 65535 else 0)
  let s3 := { s1 with recNow := { s1.recNow with mapped := out, pendOut := [], chans := (upTo 384).filter (fun c => !out.contains c) } }
  if 384 - out.length < 4 then (false, s3.bootFail 3 6)
  else
    let n := 384 - out.length
    (true, (({ s3 with retrain := { s3.retrain with temps := (upTo 12).map (fun k => (384 + k, s3.fieldOf (Reg.memStack k) 7 0)), ceAt := [] } }.setField
      Reg.memCap 39 32 8).setReg Reg.cmdSaveBase (BitVec.ofNat 64 ((2 * n - 8) * 2 ^ 30))).phase 7)

/-- Zero written to all HBM and every on-die array (R505, R524). -/
def State.scrub (s : State) : State := { s with mem := Memory.empty, spm := Memory.empty, poison := [], badBursts := [] }

/-- The DEGRADE bits of GLB_CAPACITY (R541). -/
def State.degradeBits (s : State) : Nat :=
  let absent := decide (s.fieldOf Reg.glbCapacity 7 0 + s.fieldOf Reg.glbCapacity 15 8 < 256)
  let mapped := decide (s.healthy < 384)
  let lost := (upTo 8).any (fun n => (s.siteConf n).testBit 0 && s.bit (Reg.siteStat n) 3 && s.fieldOf (Reg.siteStat n) 2 0 == 0)
  let narrow := (upTo 8).any (fun n => decide (0 < s.fieldOf (Reg.siteStat n) 2 0) &&
    (decide (s.fieldOf (Reg.siteStat n) 15 12 < (s.site n).width) || decide (0 < s.fieldOf (Reg.siteStat n) 19 16)))
  b2n absent + b2n mapped * 2 + b2n lost * 4 + b2n narrow * 8

/-- The scrub that a set scrub flag asks for: the flag cleared and the event reported (R505). -/
def State.bootScrub (s : State) : State :=
  if s.recNow.scrub then
    let s1 := s.scrub
    ({ s1 with recNow := { s1.recNow with scrub := false } }).setBit Reg.secStatus 3 true
  else s

/-- The array-test registers of the present townships after the start-up test: the occasion, the failing columns it found, and the spare columns in
use in all arrays (R226). -/
def State.bootArrays (s : State) (new : List Repair) : State :=
  (upTo 256).foldl (fun (s : State) t => if s.bit (Reg.nocCoord t) 12 then s else
    let p := s.physOf t
    let used := (Config.fuseRepairs p).length + (s.recNow.repairs.filter (fun x => x.ship == p)).length
    let s1 := (s.setField (Reg.rasArrStat t) 3 2 1).setField (Reg.rasArrStat t) 47 32 (min 65535 used)
    s1.addSat (Reg.rasArrStat t) 63 48 (new.filter (fun x => x.ship == p)).length) s

/-- The site records of the sites that are up (R329). -/
def State.siteRecords (s : State) : Tbl (Nat × Nat) :=
  ((upTo 8).filter (fun n => s.fieldOf (Reg.siteStat n) 2 0 == 4)).foldl (fun (m : Tbl (Nat × Nat)) n => m.set n ((s.site n).active, (s.site n).half)) []

/-- READY, at the end of step 9, with the record due to be written (R377, R536). -/
def State.bootReady (s : State) (ms : Nat) : State :=
  let d := s.degradeBits
  let s1 := (s.setField Reg.glbCapacity 35 32 d).bootScrub
  let s2 := (s1.setBit Reg.glbStatus 1 (d != 0)).setField Reg.glbBootStat 31 16 (min ms 65535)
  let s3 := s2.setBit Reg.glbStatus 0 true
  { s3 with recNow := { s3.recNow with sites := s3.siteRecords }, boot := { s3.boot with step := 10, facts := none },
            degraded := d != 0, recDue := true, starts := s3.recNow.starts }

/-- Steps 8 and 9: core firmware, self-test, the logical map, and READY (R532, R541). -/
def State.boot89 (s : State) (f : BootFacts) : State :=
  let s1 := (s.phase 9).learn (f.digest.map unitT ++ f.selfC.map unitC)
  let s2 := s1.logicalMap
  (({ s2 with tables := true }).bootArrays s.boot.cols).bootReady f.ms

/-- A start-up at step 7 goes on once no site is in bring-up.
(DEDUCED: log entry 78.) -/
def State.bootCheck (s : State) : State :=
  match s.boot.facts with
  | some f =>
    if s.boot.step = 7 ∧ (upTo 8).all (fun n => let st := s.fieldOf (Reg.siteStat n) 2 0; st == 0 || decide (4 ≤ st)) then s.boot89 f else s
  | none => s

/-- Steps 4 to 7.
(DEDUCED: log entry 78.) -/
def State.boot4567 (s : State) (f : BootFacts) : State :=
  let s0 := { (s.phase 4) with boot := { s.boot with step := 4, held := false } }
  if !f.pll then s0.bootFail 5 4
  else if !f.fabric then s0.bootFail 2 4
  else
    let s1 := ((s0.sitesRamp f.pads).modMaps).phase 5
    let new := s1.newColumns f
    let s2 := new.foldl State.bootColumn { s1 with boot := { s1.boot with cols := new } }
    let (ok, s3) := s2.boot6 f
    if ok then s3.bootCheck else s3

/-- START_UP: time 0 of R527. A start-up runs once per reset; it is held at step 4 until VIN48 is in range (R593).
(DESIGN CHOICE: log entries 4, 11.) -/
def execStartUp (f : BootFacts) (s : State) : Host.Outcome State Fault Refusal :=
  .next (if s.boot.step ≠ 0 ∨ s.boot.dead then s
    else
      let (ok, s1) := s.boot123 f
      if !ok then s1
      else if !s1.vin48 then { (s1.phase 4) with boot := { s1.boot with step := 4, held := true } }
      else s1.boot4567 f)

/-! ### Rails and module reset -/

/-- VIN48_IN_RANGE: VIN48 has been in range for 1 ms; a start-up held at step 4 goes on. -/
def execVin48InRange (s : State) : Host.Outcome State Fault Refusal :=
  .next (let s1 := { s with vin48 := true }
    match s1.boot.facts with
    | some f => if s1.boot.held then s1.boot4567 f else s1
    | none => s1)

/-- VIN48_LOSS: every rail but the auxiliary one off, READY 0, contents lost, and nothing starts until MRST_N (R590). -/
def execVin48Loss (s : State) : Host.Outcome State Fault Refusal :=
  .next (let s1 := { s with vin48 := false }
    if s1.boot.held then s1 else s1.railsOff)

/-- VAUX33_LOSS: every rail off, the bypass closed, THERMTRIP_N at high impedance (R594). -/
def execVaux33Loss (s : State) : Host.Outcome State Fault Refusal := .next ((s.railsOff).emit (.pin 0x201 true))

/-- VAUX33_POWER_ON: the auxiliary domain powers up as a cold reset, with the datum controller held until MRST_N is released. -/
def execVaux33PowerOn (s : State) : Host.Outcome State Fault Refusal :=
  .next (let s1 := s.coldReset
    { s1 with boot := { s1.boot with dead := true } })

/-- MRST: MRST_N low for 10 µs or more and released: a cold reset; a trip ends and the next start-up may begin (R591). -/
def execMrst (s : State) : Host.Outcome State Fault Refusal := .next (s.coldReset.emit (.pin 0x201 true))

/-- BENCHMARK_RECORD_WRITE: the record written because of one of the events of R536. -/
def execBenchmarkRecordWrite (s : State) : Host.Outcome State Fault Refusal := .next (if s.recDue then s.recWrite else s)

/-- BOOT_CTRL_WRITE: bits of GLB_BOOT_CTRL set, by the driver through the PF; they go into the record (R536). -/
def State.bootCtrl (s : State) (v : Nat) : State :=
  let bits := v % 32
  if bits = 0 then s
  else (s.setReg Reg.glbBootCtrl (s.reg Reg.glbBootCtrl ||| BitVec.ofNat 64 bits)).recMod (fun r => { r with ctl := r.ctl ||| bits })
/-- BOOT_CTRL_WRITE, which a scrapped unit does not serve (R514). -/
def execBootCtrlWrite (value : W64) (s : State) : Host.Outcome State Fault Refusal := .next (if s.scrapped then s else s.bootCtrl value.toNat)

end Sys2Proof.Machine
end

