-- ==== Sys2Proof/Machine/Sites.lean ====
section
/-! DEFINITION. Chiplet sites and the Belnik endpoint (chapters 11 and 12): bring-up, flits and packets from a chiplet, credits, flushes
and drops, foreign engines, and the ways a site goes down. -/

namespace Sys2Proof.Machine

/-- STATE of a site. -/
def State.siteSt (s : State) (n : Nat) : Nat := s.fieldOf (Reg.siteStat n) 2 0
/-- A site in bring-up: RAIL, RESET or TRAINING. -/
def State.rising (s : State) (n : Nat) : Bool := decide (1 ≤ s.siteSt n) && decide (s.siteSt n ≤ 3)

/-- A site event, with what waited for the site going on (R259, R333): XINVACKs, flushes, and a start-up at step 7.
(DEDUCED: log entry 47.) -/
def State.siteFall (s : State) (n cause : Nat) : State :=
  if s.siteSt n = 4 || s.rising n then
    let ctxs := (s.site n).xinv.map Prod.fst
    let s1 := s.siteEvent n cause
    ((ctxs.foldl (fun (s : State) c => s.xinvEnd c) s1).flushEnd).bootCheck
  else s

/-! ### Bring-up (Table 11-3) -/

/-- SITE_RAIL_GOOD: the rail lies within its tolerance of 0.65 V + VSITE × 5 mV (R321). -/
def execSiteRailGood (site : Nat) (s : State) : Host.Outcome State Fault Refusal :=
  .next (if site < 8 ∧ s.siteSt site = 1 then (s.modSite site (fun x => { x with rail := 650 + 5 * fld (s.siteConf site) 14 8 })).siteState site 2 else s)

/-- SITE_RESET_RELEASE: reset is released at site training or at a restart; the chiplet's sideband registers are at their reset values, VERSION of
BLK_ID among them (R325, R368). -/
def execSiteResetRelease (site : Nat) (s : State) : Host.Outcome State Fault Refusal :=
  .next (if site < 8 ∧ s.siteSt site = 2 ∧ (s.site site).rail ≠ 0 ∧ (s.boot.step = 7 ∨ s.boot.step = 10) then
    ((s.modSite site (fun x => { x with sb := [(0, BitVec.ofNat 64 (0x10 * 2 ^ 40))], stage := 0, retried := false })).siteState site 3).emit (.pin (0x100 + site) true)
  else s)

/-- NO_SIDEBAND: no sideband on any module by 20 ms (Table 11-3). -/
def execNoSideband (site : Nat) (s : State) : Host.Outcome State Fault Refusal :=
  .next (if site < 8 ∧ s.siteSt site = 3 ∧ (s.site site).stage = 0 then (s.siteAbsent site 4).bootCheck else s)

/-- SIDEBAND_READY: the hub reads the chiplet's registers, given by offset and value, and settles the width (R320). -/
def execSidebandReady (site : Nat) (regs : List (Nat × Nat)) (s : State) : Host.Outcome State Fault Refusal :=
  .next (if site < 8 ∧ s.siteSt site = 3 ∧ (s.site site).stage = 0 then
    let sb := (regs.filter (fun (e : Nat × Nat) => decide (e.1 < 0x400))).foldl (fun (m : Tbl W64) (e : Nat × Nat) => m.set e.1 (BitVec.ofNat 64 e.2)) []
    let w := s.siteWidth site (fld ((sb.getD 8 0).toNat) 12 10)
    (s.modSite site (fun x => { x with sb := sb, stage := 1, width := w })).modMaps
  else s)

/-- The codes of SITE_MOD_STAT for the modules of a site's link: active at full or half width, or failed. -/
def State.modStats (s : State) (n : Nat) : State :=
  let x := s.site n
  (s.linkModules n x.width).zipIdx.foldl (fun (s : State) (e : Nat × Nat) =>
    let v := if !x.active.testBit e.2 then 3 else if x.half.testBit e.2 then 2 else 1
    s.setField (Reg.siteModStat (e.1 / 32)) (2 * (e.1 % 32) + 1) (2 * (e.1 % 32)) v) s

/-- The usable bandwidth of a site per direction at the nominal point (R315). -/
def bandwidth (full half : Nat) : Nat := min (full * 240 + half * 120) 1971

/-- The site record and its report in SITE_STAT. -/
def State.siteRecord (s : State) (n active half : Nat) : State :=
  let a := countBelow 12 active.testBit
  let h := countBelow 12 half.testBit
  let s1 := (s.modSite n (fun x => { x with active := active, half := half })).modStats n
  ((s1.setField (Reg.siteStat n) 15 12 a).setField (Reg.siteStat n) 19 16 h).setField (Reg.siteStat n) 43 32 (bandwidth (a - h) h)

/-- SITE_TRAINING_DONE: the link modules that trained and those of them at half width, the lanes repaired, the modules trained from
scratch, and what the chiplet's width register reads. At start-up every module of the width is trained; later those of the site record
(R328, R329, R331). At start-up the active set is written to the width register first (Table 11-3). The width read is compared with the record: at the
first difference the hub writes the record and both ends train it again, which is no further training for TRAININGS, and at the second the site goes
down (R330).
(DEDUCED: log entry 44.) -/
def execSiteTrainingDone (site active half repairs scratch read : Nat) (s : State) : Host.Outcome State Fault Refusal :=
  .next (if site < 8 ∧ s.siteSt site = 3 ∧ (s.site site).stage = 1 then
    let x := s.site site
    let cold := s.boot.step = 7 ∧ !x.retried
    let want := if cold then 2 ^ x.width - 1 else x.active
    let got := active &&& want
    let thin := half &&& got
    let s1 := (if x.retried then s else s.transit (Reg.siteCnt site 5) 1).transit (Reg.siteCnt site 4) repairs
    let mods := s.linkModules site x.width
    let failed := (mods.zipIdx.filter (fun (e : Nat × Nat) => want.testBit e.2 && !got.testBit e.2)).map Prod.fst
    let s2 : State := { s1 with recNow := { s1.recNow with
      fails := failed.foldl (fun (m : Tbl Nat) k => m.set k (m.getD k 0 + 1)) s1.recNow.fails, mods := (mods ++ s1.recNow.mods).eraseDups } }
    let s3 := s2.addSat Reg.glbBootStat 47 32 (if cold && s.boot.warm then scratch else 0)
    if got = 0 then ((s3.siteRecord site 0 0).siteAbsent site 5).bootCheck
    else
      let rec_ := got + thin * 2 ^ 12
      let s4 := if cold then (s3.siteRecord site got thin).sbWrite site 0x28 rec_ else s3.siteRecord site got thin
      if read % 2 ^ 24 = rec_ then s4.modSite site (fun y => { y with stage := 2 })
      else if x.retried then s4.siteFall site 5
      else (s4.sbWrite site 0x28 rec_).modSite site (fun y => { y with retried := true })
  else s)

/-- The credits that the hub advertises, and the least a chiplet may (Table 12-4). -/
def hubH : List Nat := [128, 64, 128, 128, 0]
def hubD : List Nat := [512, 0, 512, 64, 0]
def minH : List Nat := [16, 16, 16, 16, 0]
def minD : List Nat := [64, 0, 64, 0, 0]

/-- A control slot that returns the given credits (Table 12-2). -/
def controlSlot (h d : List Nat) : Nat := ((upTo 5).map (fun c => (h.getD c 0 % 256 + d.getD c 0 % 65536 * 256) * 2 ^ (24 * c))).sum

/-- CREDIT_EXCHANGE: the hub reads the chiplet's credits and sends its own in its first flit; the site becomes UP and joins its parcel,
or waits with FLUSH set (R327, R347). -/
def execCreditExchange (site : Nat) (s : State) : Host.Outcome State Fault Refusal :=
  .next (if site < 8 ∧ s.siteSt site = 3 ∧ (s.site site).stage = 2 then
    let h := (upTo 5).map (fun c => fld (s.sbRead site 0x18) (8 * c + 7) (8 * c))
    let d := (upTo 4).map (fun c => fld (s.sbRead site 0x20) (16 * c + 15) (16 * c)) ++ [0]
    if (upTo 5).any (fun c => decide (h.getD c 0 < minH.getD c 0) || decide (d.getD c 0 < minD.getD c 0)) then s.siteFall site 3
    else
      let s1 := if (s.parcelOfSite site).isNone then s.setFlush site true else s
      let s2 := s1.modSite site (fun x => { x with credH := h, credD := d, grantH := hubH, grantD := hubD, rxSeq := 0, rxHold := [], rxPkt := [], rxNeed := 0,
                                                   txSlots := [(3, controlSlot hubH hubD)], txSeq := 0, txMod := 0 })
      (((s2.sendFlit site).clearAgents site).siteState site 4).bootCheck
  else s)

/-- RESTART: the driver through the PF restarts a site that is DOWN, once its parcel's recovery has ended (R334). -/
def State.restartSite (s : State) (n : Nat) : State :=
  if n < 8 ∧ s.siteSt n = 5 then (s.modSite n (fun x => { x with restart := true })).beginRestart n else s
def execRestart (site : Nat) (s : State) : Host.Outcome State Fault Refusal := .next (s.restartSite site)

/-! ### Going down -/

/-- SITE_DOWN: a site event of a given cause: AGENT, REPLAY, UNCORRECTABLE or RAIL at a site that is UP, and UNCORRECTABLE, RAIL or WIDTH at one in
bring-up (R259, R333). -/
def execSiteDown (site cause : Nat) (s : State) : Host.Outcome State Fault Refusal :=
  .next (if site < 8 ∧ ((s.siteSt site = 4 ∧ 1 ≤ cause ∧ cause ≤ 4) ∨ (s.rising site ∧ 3 ≤ cause ∧ cause ≤ 5)) then s.siteFall site cause else s)

/-- Whether a site's rail power has stood above OCP_W × 10 W in every sample of the last 100 µs (R322, R547). -/
def State.overPower (s : State) (n : Nat) : Bool :=
  let last := s.power.samples.take 10
  last.length == 10 && last.all (fun x => decide (10 * fld (s.siteConf n) 20 16 < x.2.getD n 0))

/-- A rail switched off; a site that is UP or in bring-up goes down (R322). -/
def State.railOff (s : State) (n : Nat) : State :=
  if n < 8 ∧ (s.site n).rail ≠ 0 then (s.siteFall n 4).modSite n (fun x => { x with rail := 0 }) else s

/-- RAIL_TRIP: overcurrent or undervoltage switches a rail that is on off and takes the site down (R322). -/
def execRailTrip (fault : RailFault) (s : State) : Host.Outcome State Fault Refusal :=
  .next (match fault with
    | .over n => if s.overPower n then s.railOff n else s
    | .under n => s.railOff n)

/-- REPLAY_EXHAUSTED: a module's link lost or replay exhausted on a site that is up (R332). -/
def execReplayExhausted (site : Nat) (s : State) : Host.Outcome State Fault Refusal :=
  .next (if site < 8 ∧ s.siteSt site = 4 then s.siteFall site 2 else s)

/-- BLK_ERR read: a set UE takes a site that is up down (R365). -/
def State.readErr (s : State) (n err : Nat) : State :=
  if n < 8 ∧ s.siteSt n = 4 then
    let s1 := s.modSite n (fun x => { x with sb := x.sb.set 0x40 (BitVec.ofNat 64 err) })
    if err.testBit 16 then s1.siteFall n 3 else s1
  else s
def execUeSidebandMessage (site err : Nat) (s : State) : Host.Outcome State Fault Refusal := .next (s.readErr site err)
def execBlkErrPoll (site err : Nat) (s : State) : Host.Outcome State Fault Refusal := .next (s.readErr site err)

/-- RESP_US_EXPIRY: a timed message, XINV or CANCEL has gone unanswered for RESP_US (R363).
(DESIGN CHOICE: log entry 12.) -/
def execRespUsExpiry (site : Nat) (s : State) : Host.Outcome State Fault Refusal :=
  .next (let x := s.site site
    if site < 8 ∧ s.siteSt site = 4 ∧ (!x.owed.isEmpty || !x.cancels.isEmpty ||
      x.xinv.any (fun e => decide ((x.tx.filter (fun m => m.code == 0x2E && m.txid == e.1)).length < e.2))) then s.siteFall site 1 else s)

/-! ### Flush and drop (R352, R353) -/

/-- FLUSH: the hub sets FLUSH once no WORK is outstanding at a site that is to leave its parcel. -/
def execFlush (site : Nat) (s : State) : Host.Outcome State Fault Refusal :=
  .next (if site < 8 ∧ s.siteSt site = 4 ∧ (s.site site).ask ∧ (s.site site).works.isEmpty then
    (s.setFlush site true).modSite site (fun x => { x with ask := false }) else s)

/-- FLUSH_DONE: the site's agents leave every directory entry and FLUSH is cleared; a site without a parcel keeps it (R327). -/
def execFlushDone (site : Nat) (s : State) : Host.Outcome State Fault Refusal :=
  .next (if site < 8 ∧ s.siteSt site = 4 ∧ (s.site site).flush then
    let s1 := s.modSite site (fun x => { x with sb := x.sb.set 0x38 (BitVec.ofNat 64 (putFld (s.sbRead site 0x38) 0 0 1)) })
    if (s.parcelOfSite site).isNone then s1
    else
      ((s1.clearAgents site).flushOff site).flushEnd
  else s)

/-- DROP: the hub sets DROP at a site whose parcel's domain went down for a cause outside it. -/
def execDrop (site : Nat) (s : State) : Host.Outcome State Fault Refusal :=
  .next (if site < 8 ∧ s.siteSt site = 4 ∧ (s.site site).drop then s.setDrop site true else s)

/-- DROP_DONE: the hub clears DROP and the site serves again, holding no lines. -/
def execDropDone (site : Nat) (s : State) : Host.Outcome State Fault Refusal :=
  .next (if site < 8 ∧ s.siteSt site = 4 ∧ (s.site site).drop ∧ (s.sbRead site 0x30).testBit 1 then (s.setDrop site false).clearAgents site else s)

/-- FLUSH_MS_EXPIRY: FLUSH_DONE or DROP_DONE has not been set within FLUSH_MS.
(DESIGN CHOICE: log entry 12.) -/
def execFlushMsExpiry (site : Nat) (s : State) : Host.Outcome State Fault Refusal :=
  .next (if site < 8 ∧ s.siteSt site = 4 ∧
      (((s.site site).flush && !(s.sbRead site 0x38).testBit 0) || ((s.site site).drop && (s.sbRead site 0x30).testBit 1)) then s.siteFall site 1 else s)

/-! ### Credits (R344, R346) -/

/-- A control slot from the chiplet: credits returned by class, and messages that waited for them sent; a reserved bit is a
violation of Table 12-6. -/
def State.creditSlot (s : State) (n w : Nat) : Option State :=
  if fld w 127 120 ≠ 0 then none
  else
    let s1 := s.modSite n (fun x => { x with
      credH := x.credH.mapIdx (fun c v => v + fld w (24 * c + 7) (24 * c))
      credD := x.credD.mapIdx (fun c v => v + fld w (24 * c + 23) (24 * c + 8)) })
    some (s1.txCopies n (s1.site n).tx.length)

/-- CONTROL_SLOT.
(DEDUCED: log entry 45.) -/
def execControlSlot (site word : Nat) (s : State) : Host.Outcome State Fault Refusal :=
  .next (if site < 8 ∧ s.siteSt site = 4 then (match s.creditSlot site word with
    | some s1 => s1
    | none => s.siteFall site 3) else s)

/-! ### Packets from a chiplet (R337 to R343, Table 12-6) -/

/-- The end that an endpoint number names. -/
def nodeOf (ep : Nat) : Node := if ep < 288 then .agent ep else if ep < 672 then .home (ep - 288) else .hub (ep - 672)

/-- Whether a request of a chiplet of parcel p may name a DPA, and whether it may write it. -/
def State.chipletAddr (s : State) (p dpa : Nat) (write : Bool) : Bool :=
  if dpa < 2 ^ 40 then
    let g := dpa / 2 ^ 30
    if s.granOwner g = 0x11 then !write && (match s.parcels.get? p with
      | some x => x.eases.any (fun e => ((s.eases.get? e.2).map (fun y => y.map.any (fun z => z.2 == g))).getD false)
      | none => false)
    else s.granOwner g == p && s.regs.any (fun e => decide (platKey p 0 ≤ e.1) && decide (e.1 < platKey p 0 + 2 ^ 18) &&
      e.2.toNat.testBit 0 && fld e.2.toNat 2 1 == 0 && fld e.2.toNat 20 3 == g)
  else match windowSite? dpa with
    | some k => s.parcelOfSite k == some p
    | none => false

/-- The line that four data units carry, the quarter named by ADDR[2:1] first (R269). -/
def lineOf (q : Nat) (us : List Nat) : Nat := ((upTo 4).map (fun j => us.getD j 0 * 2 ^ (256 * ((q + j) % 4)))).sum

/-- The data units of a packet in ascending order. -/
def unitsOf : List Nat → Nat
  | [] => 0
  | u :: r => u + 2 ^ 256 * unitsOf r

/-- The class of a code that a chiplet sends (Tables 09-4 and 12-5). -/
def chipletClass (code : Nat) : Option Nat :=
  if code = 0x2C then some 0 else if code = 0x29 ∨ code = 0x2B ∨ code = 0x2F then some 3 else codeClass code

/-- An answer that the chiplet owes, taken off the list; a CANCEL of the same request is answered with it. -/
def State.owedTake (s : State) (n code who txid line : Nat) : Option State :=
  if (s.site n).owed.contains (code, who, txid, line) then
    some (s.modSite n (fun x => { x with owed := x.owed.erase (code, who, txid, line), cancels := x.cancels.erase (who, txid) }))
  else none

/-- A packet put where its command takes it. -/
def State.rxPut (s : State) (n code txid : Nat) (l : List Nat) : State := s.modSite n (fun x => { x with rxq := x.rxq ++ [(code, txid, l)] })

/-- A copy of a token released at an adapter: the origins whose copies for the expert were refused are told (R154, R361). -/
def State.freeSiteCopy (s : State) (n k : Nat) (c : SiteCopy) : State :=
  let waiting := (s.site n).refused.filter (fun x => x.2.1 == c.expert)
  let s1 := s.modSite n (fun y => { y with copies := y.copies.erase k, refused := y.refused.filter (fun x => x.2.1 != c.expert) })
  waiting.foldl (fun (s : State) x => s.sendTok { Tok.blank .room (.hub n) (.agent x.1) c.engine ((s.parcelOfSite n).getD 16) x.2.2.1 with expert := c.expert, launch := x.2.2.2 }) s1

/-- A packet from the chiplet of a site that is UP in a parcel: the checks of Table 12-6, and the packet on its way; none is a
violation, and so is a CLASS that is not the command's or a LENGTH above 16, which no packet has (R268). `h` is the header unit and `us` the
data units; a request brings the slack that the chiplet wrote (R340, R477) and is of the master that SHR_SITE_n names.
(DEDUCED: log entry 45.) -/
def State.packetIn (s : State) (n h : Nat) (us : List Nat) : Option State :=
  match s.parcelOfSite n with
  | none => none
  | some p =>
    let caps := s.sbRead n 8
    let code := fld h 21 16
    let route := fld h 9 0
    let src := fld h 39 30
    let txid := fld h 68 57
    let addr := fld h 122 79 * 16
    let count := fld h 125 123
    let poison := h.testBit 53
    let q := addr % 128 / 32
    let line := addr / 128
    let ofAgent := decide (256 + 4 * n ≤ src) && decide (src < 256 + 4 * n + fld caps 2 0)
    let ofSite := src == 672 + n
    let engines := decide (0 < fld caps 9 3)
    let dst := if route = 0x3FF then s.homeOf addr else nodeOf route
    let slack := if chipletClass code = some 0 then fld h 78 69 else 0x3FF
    let msg (k : MsgKind) : Msg := { Msg.blank k (nodeOf src) dst addr p txid with poison := poison, prio := s.fieldOf (Reg.shrSite n) 1 0, hdr := { Hdr.blank with slack := slack } }
    if s.siteSt n ≠ 4 || fld h 15 10 ≠ 0 || fld h 45 40 ≠ 0 || fld h 29 25 ≠ 0 || !headerParity h || chipletClass code != some (fld h 24 22) || decide (16 < fld h 50 46) || !(ofAgent || ofSite) ||
       !(route == 0x3FF || decide (route < 687)) || (route == 0x3FF && decide (2 ^ 40 ≤ addr)) then none
    else
      let req (k : MsgKind) (write : Bool) (f : Msg → Msg) : Option State := if s.chipletAddr p addr write then some (s.send (f (msg k))) else none
      match code with
      | 0x01 => if ofAgent && decide (addr < 2 ^ 40) then req .rdS false id else none
      | 0x02 => if ofAgent && decide (addr < 2 ^ 40) then req .rdX true id else none
      | 0x03 => if ofAgent && decide (addr < 2 ^ 40) then req .upg true id else none
      | 0x04 => if ofAgent || engines then req .rdU false (fun m => { m with size := 16 * (count + 1) }) else none
      | 0x05 =>
        if ofAgent || engines then
          let be := us.headD 0 % 2 ^ 128
          let body := us.drop 1
          let wrap := decide (4 < q + body.length)
          let data := if wrap then lineOf q body else unitsOf body
          req .wrU true (fun m => { m with
            dpa := (if wrap then line * 128 else line * 128 + 32 * q), size := (if wrap then 128 else 32 * body.length), pay := some data
            cmp := (if wrap then be else be >>> (32 * q)), flag := true })
        else none
      | 0x06 =>
        if ofAgent || engines then
          let u := us.headD 0
          req .atN true (fun m => { m with
            dpa := addr / 16 * 16 + fld u 11 8, op := fld u 3 0, size := (if u.testBit 4 then 8 else 4), pay := some (fld u 127 64), cmp := fld u 191 128 })
        else none
      | 0x10 =>
        if ofAgent then (s.owedTake n 0x10 src txid line).map (fun (s : State) => s.send { msg .data with
          grant := (if count = 0 then .S else if count = 1 then .E else .M), acks := fld h 78 69, pay := if us.isEmpty then none else some (lineOf q us) })
        else if caps.testBit 14 then (s.owedTake n 0x10 route txid 0).map (fun (s : State) =>
          let at_ := match (nodeOf route).agent?.bind (fun t => (s.ship t).misses.get? txid) with
            | some m => m.dpa % 32
            | none => addr % 32
          s.send { msg .data with pay := some (unitsOf us >>> (8 * at_)) })
        else none
      | 0x11 => if ofAgent then (s.owedTake n 0x11 src txid line).map (fun (s : State) =>
          s.send { msg .dataH with pay := if us.isEmpty then none else some (lineOf q us) }) else none
      | 0x12 => if ofAgent && decide (addr < 2 ^ 40) && s.chipletAddr p addr false then some (s.send { msg .wb with pay := if us.isEmpty then none else some (lineOf q us) }) else none
      | 0x13 => if ofSite && caps.testBit 14 then (s.owedTake n 0x13 route txid 0).map (fun (s : State) =>
          s.send { msg .atR with pay := some (us.headD 0), flag := count % 2 == 1 }) else none
      | 0x18 => if ofAgent then (s.owedTake n 0x18 src txid line).map (fun (s : State) => s.send (msg .invAck)) else none
      | 0x19 =>
        let open_ := (match (s.dir.get? line).bind (fun e => e.txn) with
          | some t => t.cmpAck && t.req.src == nodeOf src && t.req.txid == txid
          | none => false)
        if ofAgent && open_ then some (s.send (msg .cmpAck)) else none
      | 0x1B => if ofSite && caps.testBit 14 then (s.owedTake n 0x1B route txid 0).map (fun (s : State) => s.send (msg .uAck)) else none
      | 0x26 =>
        (match (if ofSite && engines then (s.site n).copies.find? (fun e => e.2.origin == route && e.2.entry == txid && e.2.expert == fld h 80 69 &&
            e.2.layer == fld h 88 81 && e.2.fmt == fld h 92 89) else none) with
         | none => none
         | some (k, c) =>
           let s1 := s.sendTok { Tok.blank .tret (.hub n) (nodeOf route) 0 p txid with
             expert := c.expert, layer := c.layer, fmt := c.fmt, last := h.testBit 56, row := bytesOf (32 * us.length) (unitsOf us), launch := c.launch }
           some (if h.testBit 56 then s1.freeSiteCopy n k c else s1))
      | 0x29 =>
        let u := us.headD 0
        if ofSite && (s.site n).works.has txid && !((s.site n).rxq.any (fun r => r.2.1 == txid && (r.1 == 0x29 || (r.1 == 0x2B && r.2.2 == [672 + n])))) then
          some ((s.rxPut n 0x29 txid [fld u 111 96, fld u 95 64, fld u 63 0]).modSite n (fun x => { x with cancels := x.cancels.erase (672 + n, txid) }))
        else none
      | 0x2B =>
        let who := if route < 256 then route else 672 + n
        if ofSite && caps.testBit 13 && (s.site n).cancels.contains (who, txid) then
          some ((s.rxPut n 0x2B txid [who]).modSite n (fun x => { x with
            cancels := x.cancels.erase (who, txid), owed := x.owed.filter (fun o => !(o.2.1 == who && o.2.2.1 == txid && o.2.2.2 == 0 && decide (who < 256))) }))
        else none
      | 0x2C => if ofSite && engines then some (s.rxPut n 0x2C txid [fld h 80 69, fld h 116 81, b2n (h.testBit 117)]) else none
      | 0x2F =>
        let c := fld h 80 69
        let sent := (s.site n).xinv.getD txid 0 - ((s.site n).tx.filter (fun m => m.code == 0x2E && m.txid == txid)).length
        if ofSite && decide (((s.site n).rxq.filter (fun r => r.1 == 0x2F && r.2.1 == txid)).length < sent) then some (s.rxPut n 0x2F txid [c]) else none
      | _ => none

/-! ### Flits (R341 to R345) -/

/-- One slot read. None is a violation: of slot order, of credit, or of Table 12-6. While DROP is set, packets are discarded. -/
def State.slotIn (s : State) (n kind v : Nat) : Option State :=
  let x := s.site n
  let finish (s : State) (pkt : List Nat) : Option State :=
    let h := pkt.headD 0
    let halves := pkt.drop 1
    let us := (upTo (halves.length / 2)).map (fun i => halves.getD (2 * i) 0 + 2 ^ 128 * halves.getD (2 * i + 1) 0)
    let cls := fld h 24 22
    let s1 := (s.modSite n (fun y => { y with rxPkt := [], rxNeed := 0,
                                              grantH := modAt y.grantH cls (· + 1), grantD := modAt y.grantD cls (· + us.length) })).toSite n
        [(3, controlSlot (modAt [0, 0, 0, 0, 0] cls (fun _ => 1)) (modAt [0, 0, 0, 0, 0] cls (fun _ => us.length)))]
    if x.drop then some s1 else s1.packetIn n h us
  match kind with
  | 0 => some s
  | 3 => s.creditSlot n v
  | 1 =>
    let cls := fld v 24 22
    let len := fld v 50 46
    if !x.rxPkt.isEmpty || s.siteSt n ≠ 4 || x.grantH.getD cls 0 = 0 || decide (x.grantD.getD cls 0 < len) then none
    else
      let s1 := s.modSite n (fun y => { y with grantH := modAt y.grantH cls (fun g => g - 1), grantD := modAt y.grantD cls (fun g => g - len),
                                               rxPkt := [v], rxNeed := 2 * len })
      if len = 0 then finish s1 [v] else some s1
  | _ =>
    if x.rxPkt.isEmpty then none
    else
      let pkt := x.rxPkt ++ [v % 2 ^ 128]
      if x.rxNeed = 1 then finish s pkt else some (s.modSite n (fun y => { y with rxPkt := pkt, rxNeed := x.rxNeed - 1 }))

/-- The slots of a flit read in order, and whether no violation was found: what came before one stands, and its packet is discarded (R366). -/
def State.slotsIn (s : State) (n ctrl : Nat) : List Nat → Nat → Bool × State
  | [], _ => (true, s)
  | v :: r, i =>
    match s.slotIn n (fld ctrl (2 * i + 1) (2 * i)) v with
    | some s1 => s1.slotsIn n ctrl r (i + 1)
    | none => (false, s)

/-- A flit read: reserved bits of SLOT_CTRL are zero, and CONT says whether its first packet slot goes on with an earlier packet. -/
def State.flitIn (s : State) (n : Nat) (f : Flit) : Bool × State :=
  let kinds := (upTo 15).map (fun i => fld f.ctrl (2 * i + 1) (2 * i))
  let first := kinds.find? (fun k => k == 1 || k == 2)
  let cont := f.ctrl.testBit 30
  if fld f.ctrl 47 31 ≠ 0 ∨ (first.isSome ∧ cont = (s.site n).rxPkt.isEmpty) then (false, s)
  else s.slotsIn n f.ctrl (f.slots.take 15) 0

/-- The flits that are next in order read, as many as have come (R345). -/
def State.flitsIn (s : State) (n : Nat) : Nat → State
  | 0 => s
  | k + 1 =>
    let x := s.site n
    match x.rxHold.find? (fun f => f.seq == x.rxSeq) with
    | none => s
    | some f =>
      let s1 := s.modSite n (fun y => { y with rxHold := y.rxHold.filter (fun g => g.seq != x.rxSeq), rxSeq := x.rxSeq + 1 })
      match s1.flitIn n f with
      | (true, s2) => s2.flitsIn n k
      | (false, s2) => s2.siteFall n 3

/-- FLIT_RECEIVED: a flit by its place in the chiplet's order; one with a CRC error is discarded and replay started; `nak` says that the
chiplet asks for a replay.
(DEDUCED: log entry 45.) -/
def execFlitReceived (site seq : Nat) (crcBad nak : Bool) (ctrl : Nat) (slots : List Nat) (s : State) : Host.Outcome State Fault Refusal :=
  .next (if site < 8 ∧ 3 ≤ s.siteSt site ∧ s.siteSt site ≤ 4 then
    let s1 := (s.transit (Reg.siteCnt site 1) 1).transit (Reg.siteCnt site 3) (b2n nak + b2n crcBad)
    if crcBad then s1.transit (Reg.siteCnt site 2) 1
    else
      let x := s1.site site
      if seq < x.rxSeq ∨ x.rxHold.any (fun f => f.seq == seq) then s1
      else (s1.modSite site (fun y => { y with rxHold := y.rxHold ++ [⟨seq, ctrl, slots⟩] })).flitsIn site (x.rxHold.length + 1)
  else s)

/-! ### Foreign engines (Table 12-5) -/

/-- WORK_MESSAGE: a WORK packet reaches its engine's queue. -/
def execWorkMessage (site : Nat) (s : State) : Host.Outcome State Fault Refusal := .next (if s.siteSt site = 4 then s.txGo site 0x28 else s)

/-- CANCEL: a CANCEL reaches the chiplet, which answers it exactly once. -/
def execCancel (site : Nat) (s : State) : Host.Outcome State Fault Refusal :=
  .next (if s.siteSt site ≠ 4 then s
    else match (s.site site).tx.find? (fun m => m.code == 0x2A) with
      | none => s
      | some m =>
        if (s.site site).credit 1 0 then (s.txGo site 0x2A).modSite site (fun x => { x with cancels := x.cancels ++ [(m.who, m.txid)] }) else s)

/-- XINV: an XINV reaches the chiplet. -/
def execXinv (site : Nat) (s : State) : Host.Outcome State Fault Refusal := .next (if s.siteSt site = 4 then s.txGo site 0x2E else s)

/-- XLATED: a translation or fault code reaches its engine. -/
def execXlated (site : Nat) (s : State) : Host.Outcome State Fault Refusal := .next (if s.siteSt site = 4 then s.txGo site 0x2D else s)

/-- A received packet of a code taken for its command. -/
def State.rxTake (s : State) (n code txid : Nat) (l : List Nat) : Option State :=
  if s.siteSt n = 4 ∧ (s.site n).rxq.contains (code, txid, l) then some (s.modSite n (fun x => { x with rxq := x.rxq.erase (code, txid, l) })) else none

/-- DONE: the WORK's command completes with its STATUS, DETAIL and RESULT; a value that R357 does not allow reads as INTERNAL.
(DESIGN CHOICE: log entry 48.) -/
def execDone (site txid st detail result : Nat) (s : State) : Host.Outcome State Fault Refusal :=
  .next (match s.rxTake site 0x29 txid [st, detail, result] with
    | none => s
    | some s1 =>
      match (s1.site site).works.get? txid with
      | none => s1
      | some w =>
        let ok := st == 0x00 || st == 0x01 || st == 0x11 || st == 0x50 || st == 0x42 || st == 0xF0
        (w.refs.foldl State.devDrop (s1.modSite site (fun x => { x with works := x.works.erase txid }))).answer w.queue w.idx ⟨if ok then st else 0xF0, detail, result⟩)

/-- CANCELLED: a window request had none of its effects and is recorded so for its restore; a WORK is ended (R362). -/
def execCancelled (site txid who : Nat) (s : State) : Host.Outcome State Fault Refusal :=
  .next (match s.rxTake site 0x2B txid [who] with
    | none => s
    | some s1 =>
      if who < 256 then s1.modShip who (fun x => { x with returns := x.returns.modify txid (fun e => { e with answer := some 0, cancelled := true }) })
      else s1.modSite site (fun x => { x with works := x.works.erase txid }))

/-- XLATE: a PVA of a context of the site's parcel translated for a 64 KiB block; a fault is an access fault of the context (R358, R359).
(DEDUCED: log entry 46; DESIGN CHOICE: log entry 48.) -/
def execXlate (site txid ctx page write : Nat) (s : State) : Host.Outcome State Fault Refusal :=
  .next (match s.rxTake site 0x2C txid [ctx, page, write] with
    | none => s
    | some s1 =>
      let reply (s : State) (code w dpa : Nat) : State :=
        s.txPush site (txPacket 0x2D 3 (s.parcelTag site) (672 + site) 0 txid 0 (code + w * 2 ^ 8 + dpa / 16 * 2 ^ 10) [])
      match s1.ctxs.get? ctx with
      | none => reply s1 0x01 0 0
      | some c =>
        if s1.parcelOfSite site ≠ some c.parcel then reply s1 0x01 0 0
        else
          let pva := page * 65536
          let acc := write
          let got := if inHost pva then Except.error ⟨0x07, 0⟩ else s1.translateFresh c none pva acc
          match got with
          | .ok (x, leaf, _) => reply s1 0 (b2n (leaf.testBit 2 && !x.ease)) (x.dpa / 65536 * 65536)
          | .error f => (reply s1 f.code 0 0).engineLoss ctx ⟨f.code, acc, pva, f.ppa, 0xFFFFFFFF⟩)

/-- XINVACK: one XINV of a context is acknowledged; what waited for the last one goes on (R360). -/
def execXinvack (site txid ctx : Nat) (s : State) : Host.Outcome State Fault Refusal :=
  .next (match s.rxTake site 0x2F txid [ctx] with
    | none => s
    | some s1 =>
      let s2 := s1.modSite site (fun x => { x with xinv := if x.xinv.getD txid 0 ≤ 1 then x.xinv.erase txid else x.xinv.set txid (x.xinv.getD txid 0 - 1) })
      (s2.modCtx txid (fun c => { c with xinv := c.xinv - 1 })).xinvEnd txid)

/-! ### Measurement reports (R369) -/

/-- A measurement asked of a site that is up: the nonce is written, then MEAS set. -/
def State.askMeas (s : State) (n nonce : Nat) : State :=
  let s1 := (upTo 4).foldl (fun (s : State) j => s.sbWrite n (0x80 + 8 * j) (fld nonce (64 * j + 63) (64 * j))) s
  (s1.blkCtrl n 2 true).modSite n (fun x => { x with meas := true, report := [] })

/-- MEAS_READY: the hub reads the report and clears MEAS. -/
def execMeasReady (site : Nat) (report : List Nat) (s : State) : Host.Outcome State Fault Refusal :=
  .next (if site < 8 ∧ (s.site site).meas then
    (s.blkCtrl site 2 false).modSite site (fun x => { x with meas := false, report := (report.map (· % 256)).take 1024 }) else s)

/-- MEAS_TIMEOUT: the site is unmeasured. -/
def execMeasTimeout (site : Nat) (s : State) : Host.Outcome State Fault Refusal :=
  .next (if site < 8 ∧ (s.site site).meas then (s.blkCtrl site 2 false).modSite site (fun x => { x with meas := false, report := [] }) else s)

end Sys2Proof.Machine
end

