-- ==== Sys2Proof/Machine/Secure.lean ====
section
/-! DEFINITION. The request gate, key slots, confidential mode, attestation (chapter 17), and life-cycle requests and the secrets erase
(chapter 18). -/

namespace Sys2Proof.Machine

/-- A request through the gate performed or refused (SEC_GATE_CNT). -/
def State.gateDone (s : State) (ok : Bool) : State := if ok then s.addWrap Reg.secGateCnt 31 0 1 else s.addWrap Reg.secGateCnt 63 32 1

/-- A command answered whose work was one gate request. -/
def State.gateReply (s : State) (r : Req) (a : Answer) : State := (s.gateDone (a.status == 0 || a.status == 1)).reply r a

/-! ### Keys of sealed weight sets (R506 to R510) -/

/-- The key encryption key of a blob, from the unit's secret, the owner's share, the ciphertext and the info string (R508). -/
def State.kek (s : State) (blob : Nat) : Nat :=
  Config.derive (Config.derive s.sealKey (fld blob 575 320)) (fld blob 9279 576 + 2 ^ 9000 * (blob % 2 ^ 320))

/-- KEY_INSTALL (R509), with the key blob that the host returns to the reads sent for it, without PASID; while Bus Master Enable is 0 it waits.
(DEDUCED: log entry 70.) -/
def execKeyInstall (q i blob : Nat) (s : State) : Host.Outcome State Fault Refusal :=
  .next (s.serve q i 0x090 (fun r =>
    let e := pb r.pkt 8 8
    match packetCheck r.pkt [(8, 8), (16, 23)] [] [(pb r.pkt 23 16 % 8 != 0, 16)] with
    | some o => s.reply r (badParam o)
    | none =>
      let k := s.keys.getD e ⟨none, none⟩
      let kek := s.kek blob
      let epoch := pb blob 7 4
      let conf := blob.testBit 16
      if !s.eases.has e then s.gateReply r (noObject 8)
      else if !s.hostOpen r.fn then s
      else
      let s0 := s.hostAsk r.fn none (pb r.pkt 23 16) 1224 noAcc
      if pb blob 39 8 ≠ s.identity then s0.gateReply r ⟨0x61, 0x10, 0⟩
      else if !Config.tagOk kek (pb blob 1171 1160) (pb blob 1203 1172) (pb blob 1219 1204) then s0.gateReply r ⟨0x61, 0x11, 0⟩
      else if conf && !s.confidential then s0.gateReply r ⟨0x60, 0x20, 0⟩
      else if k.cur.any (fun c => decide (epoch ≤ c.epoch)) then s0.gateReply r (badParam 16)
      else if k.cur.isSome && k.prev.isSome then s0.gateReply r (status 0x21)
      else
        let new : WKey := ⟨epoch, conf, Config.decrypt kek (pb blob 1171 1160) (pb blob 1203 1172)⟩
        ({ s0 with keys := s.keys.set e ⟨some new, k.cur.orElse (fun _ => k.prev)⟩, attest := none }).gateReply r okAnswer))

/-- Whether pages of an easement may be in flight in the loader: its set is loading, or a page of its bays is being reloaded (R510).
(DESIGN CHOICE: log entry 71.) -/
def State.inFlight (s : State) (e : Nat) : Bool :=
  s.objs.any (fun o => match o.2.wset with
    | some w => w.ease == e && w.sealed && (w.loading || s.poison.any (fun p => p.2 != 0 && w.bays.contains (p.1 / 16384)))
    | none => false)

/-- The pages in flight in a slot: a free count while the loader works for the easement.
(DESIGN CHOICE: log entry 71.) -/
def State.flightCount (s : State) (e slot : Nat) : Nat := if s.inFlight e then Config.freeNat (s.free + slot) % 2 ^ 24 else 0

/-- A slot of an easement. -/
def State.keySlot (s : State) (e slot : Nat) : Option WKey := let k := s.keys.getD e ⟨none, none⟩; if slot = 0 then k.cur else k.prev

/-- A slot retired (R510): erased, or why not. -/
def State.keyRetire (s : State) (e slot : Nat) : Except Answer State :=
  if (s.keySlot e slot).isNone then .ok s
  else
    let n := s.flightCount e slot
    let s1 := { s with free := s.free + 2 }
    if n ≠ 0 then .error ⟨0x21, n, 0⟩
    else .ok { s1 with keys := s1.keys.modify e (fun k => if slot = 0 then { k with cur := none } else { k with prev := none }) }

/-- KEY_RETIRE.
(DEDUCED: log entry 70.) -/
def execKeyRetire (q i : Nat) (s : State) : Host.Outcome State Fault Refusal :=
  .next (s.serve q i 0x091 (fun r =>
    match packetCheck r.pkt [(8, 9)] [] [(decide (1 < pb r.pkt 9 9), 9)] with
    | some o => s.reply r (badParam o)
    | none =>
      match s.keyRetire (pb r.pkt 8 8) (pb r.pkt 9 9) with
      | .ok s1 => s1.gateReply r okAnswer
      | .error a => (s.freshNat).2.gateReply r a))

/-! ### Zeroing -/

/-- Every weight set evicted. -/
def State.evictAll (s : State) : State :=
  (s.objs.filter (fun o => o.2.wset.isSome)).foldl (fun (s : State) o => (s.evictSet o.1).modWset o.1 (fun w => { w with loading := false, pins := 0 })) s

/-- Steps 2 to 4 of R500 for a parcel: weight sets evicted and bays zeroed; caches written back and invalidated; granules, save frames,
scratchpads, shadow areas and caches zeroed. -/
def State.cleanse (s : State) (p : Nat) : State :=
  let s1 := s.evictAll
  let s2 := s1.poolBays.foldl State.zeroGran s1
  let ships := ((s2.parcels.get? p).map (fun x => x.ships)).getD []
  let s3 := ships.foldl State.writeBackShip s2
  let grans := ((s3.parcels.get? p).map (fun x => x.grans)).getD []
  let frames := (upTo 4).map (fun k => s3.rsvBase / 2 ^ 30 + k)
  let s4 := (grans ++ frames).foldl State.zeroGran s3
  { s4 with
    spm := Memory.empty, sections := []
    ships := s4.ships.mapV (fun _ x => { x.forget (fun _ => true) with sets := [], evb := [], image := none }) }

/-! ### Confidential mode (R498 to R505) -/

/-- The first failed condition of Table 17-5, if one fails. -/
def State.confBad (s : State) (p vf : Nat) : Option Nat :=
  let x := (s.parcels.get? p)
  let all := (match x with
    | some x => s.parcels.length == 1 &&
        (upTo 256).all (fun t => s.bit (Reg.nocCoord t) 12 || (s.ship t).absent || x.ships.contains t) &&
        (upTo 8).all (fun n => s.siteSt n == 0 || x.sites.contains n) &&
        (upTo 768).all (fun g => s.granOwner g != 0x10)
    | none => false)
  let vfOk := s.vfBound vf && s.vfParcel vf == p && (upTo 64).all (fun n => n == 0 || n == vf || !s.vfBound n) && (s.fn vf).tdi == 0
  if s.confidential then some 1
  else if !all then some 2
  else if !s.ctxs.isEmpty then some 3
  else if !vfOk then some 4
  else if s.bit Reg.mgtDbgStat 0 then some 5
  else if s.ships.any (fun e => e.2.image.isSome) then some 6
  else none

/-- The scrub flag written into the record, at once (R505). -/
def State.scrubFlag (s : State) (b : Bool) : State := (s.recMod (fun r => { r with scrub := b })).recWrite

/-- CONF_ENTER: the conditions; then debug and transit closed, the sites asked to flush, and, once they have, the space cleansed and the
mode on. The command is run again to complete when the flushes are done.
(DEDUCED: log entry 75.) -/
def execConfEnter (q i : Nat) (s : State) : Host.Outcome State Fault Refusal :=
  .next (match s.cmd? q i with
    | none => s
    | some c =>
      match c.st with
      | .serving d =>
        let p := d.getD 1 0
        let vf := d.getD 2 0
        let sites := ((s.parcels.get? p).map (fun x => x.sites)).getD []
        if d.headD 0 ≠ 0xF040 ∨ c.opcode ≠ 0x092 ∨ sites.any s.flushing then s
        else
          let s1 := s.cleanse p
          let s2 := (s1.setBit Reg.glbStatus 2 true).setField Reg.secStatus 13 0 (1 + 2 + 4 + s1.fieldOf Reg.secStatus 3 3 * 8 + p * 16 + vf * 256)
          (({ s2 with attest := none }).gateDone true).answer q i okAnswer
      | _ => s.serve q i 0x092 (fun r =>
        let p := pb r.pkt 8 8
        let vf := pb r.pkt 9 9
        match packetCheck r.pkt [(8, 9)] [] [(decide (15 < p), 8), (vf == 0 || decide (63 < vf), 9)] with
        | some o => s.reply r (badParam o)
        | none =>
          let st := s.fieldOf Reg.lcsStatus 2 0
          if st = 0 ∨ st = 3 ∨ st = 4 then s.gateReply r (status 0x60)
          else match s.confBad p vf with
            | some k => s.gateReply r ⟨0x21, k, 0⟩
            | none =>
              let s1 := (s.scrubFlag true).traceStop
              let s2 := (s1.setBit Reg.secStatus 1 true).setBit Reg.secStatus 2 true
              let sites := ((s2.parcels.get? p).map (fun x => x.sites)).getD []
              (sites.foldl State.flushSite s2).keepServing r [0xF040, p, vf]))

/-- The parcel of confidential mode. -/
def State.confParcel (s : State) : Nat := s.fieldOf Reg.secStatus 7 4

/-- The first part of leaving (R504): every context of the parcel retired as far as its XINVACKs, and the sites asked to flush. -/
def State.leaveStart (s : State) : State :=
  let p := s.confParcel
  let s1 := (s.ctxs.filter (fun e => e.2.parcel == p)).foldl (fun (s : State) e => ((s.retireStop e.1 e.2).dropTlb e.1).sendXinv e.1 e.2) s
  let sites := ((s1.parcels.get? p).map (fun x => x.sites)).getD []
  { (sites.foldl State.flushSite s1) with leave := 2 }

/-- Whether the rest of leaving can go on: no XINVACK, flush, drop or recovery is awaited. -/
def State.leaveReady (s : State) : Bool :=
  let p := s.confParcel
  match s.parcels.get? p with
  | some x => s.xinvIdle p && !x.down && x.sites.all (fun n => !s.flushing n && !(s.siteSt n == 4 && (s.site n).drop))
  | none => true

/-- The rest of leaving: contexts gone, the space cleansed, the keys that need the mode erased, and the mode off.
(DEDUCED: log entry 54.) -/
def State.leaveEnd (s : State) : State :=
  let p := s.confParcel
  let s1 := (s.ctxs.filter (fun e => e.2.parcel == p)).foldl (fun (s : State) e => s.retireEnd e.1 ⟨16384, 0, 0, none, 0⟩ []) s
  let s2 := s1.cleanse p
  let drop (k : Option WKey) : Option WKey := if k.any (fun w => w.conf) then none else k
  let s3 := { s2 with keys := s2.keys.mapV (fun _ k => ⟨drop k.cur, drop k.prev⟩), leave := 0 }
  let s4 := ((s3.setBit Reg.glbStatus 2 false).setField Reg.secStatus 2 0 0).setField Reg.secStatus 13 4 0
  let s5 := (s4.debugRule).recMod (fun r => { r with scrub := false })
  s5.queues.foldl (fun (s : State) e => e.2.cmds.foldl (fun (s : State) c => match c.2.st with
    | .serving d => if d.headD 0 = 0xF041 ∧ c.2.opcode = 0x093 then s.answer e.1 c.1 okAnswer else s
    | _ => s) s) s5

/-- Leaving goes on as far as it can. -/
def State.leaveStep (s : State) : State :=
  let s1 := if s.leave = 1 then s.leaveStart else s
  if s1.leave = 2 && s1.leaveReady then s1.leaveEnd else s1

/-- CONF_LEAVE: leaves, or goes on with leaving, and completes once the mode is off. -/
def execConfLeave (q i : Nat) (s : State) : Host.Outcome State Fault Refusal :=
  .next (match s.cmd? q i with
    | none => s
    | some c =>
      match c.st with
      | .serving _ => if s.confidential && c.opcode == 0x093 then s.leaveStep else s
      | _ => s.serve q i 0x093 (fun r =>
        match packetCheck r.pkt [] [] [] with
        | some o => s.reply r (badParam o)
        | none =>
          if !s.confidential then s.gateReply r ⟨0x21, 1, 0⟩
          else (({ s with leave := max 1 s.leave }).gateDone true |>.keepServing r [0xF041]).leaveStep))

/-- CONFIDENTIAL_LEAVE_EVENT: the tenant's interface in ERROR or unlocked again, a Function Level Reset of the tenant or the PF, or the
parcel's domain down makes the hub leave (R503); leaving goes on as its flushes and acknowledgements come. -/
def execConfidentialLeaveEvent (s : State) : Host.Outcome State Fault Refusal :=
  .next (if !s.confidential then s
    else
      let f := s.fn s.tenant
      let down := ((s.parcels.get? s.confParcel).map (fun x => x.down)).getD false
      let now := f.tdi == 3 || f.flr || (s.fn 0).flr || down
      (if now && s.leave == 0 then { s with leave := 1 } else s).leaveStep)

/-! ### The request gate (Table 17-1) -/

/-- Whether a member may leave its parcel: a township with no launch or image and nothing under way, a site with no WORK, window entry or
line. -/
def State.shipIdle (s : State) (t : Nat) : Bool :=
  !s.busyShips.contains t && (s.ship t).image.isNone && (s.ship t).returns.all (fun e => e.2.answer.isSome) && (s.ship t).test.isNone && s.shipQuiet t
def State.siteIdle (s : State) (p n : Nat) : Bool :=
  (s.site n).works.isEmpty && !s.windowMapped p n && s.dir.all (fun e => (e.2.vec.toNat >>> (256 + 4 * n)) % 16 == 0)

/-- GATE_REQUEST: a request of the field cores performed or refused by the datum controller's own records.
(DEDUCED: log entry 76.) -/
def execGateRequest (g : GateReq) (s : State) : Host.Outcome State Fault Refusal :=
  .next (match g with
    | .platWrite p k e =>
      if s.confidential ∨ !s.parcels.has p ∨ 2 ^ 18 ≤ k ∨ (s.platBad p e).isSome then s.gateDone false
      else if s.platHeld p then s
      else
        let s1 := (s.platPut p [(k, e % 2 ^ 64)]).platXinv p
        if s1.xinvIdle p then s1.platDone p else s1
    | .ownerWrite k owner =>
      if s.granOwner k = 0x10 ∧ s.parcels.has owner then
        (let s1 := s.zeroGran k
         ({ s1 with parcels := s1.parcels.modify owner (fun x => { x with grans := x.grans ++ [k] }) }).gateDone true)
      else match s.parcels.get? (s.granOwner k) with
        | some x =>
          if owner = 0x10 ∧ (s.unmapped (s.granOwner k) x).contains k then
            ({ s with parcels := s.parcels.modify (s.granOwner k) (fun x => { x with grans := x.grans.filter (fun y => y != k) }) }).gateDone true
          else s.gateDone false
        | none => s.gateDone false
    | .township p t =>
      (match s.parcelOfShip t with
       | none => if s.parcels.has p && s.shipFree t && decide (t < 256) then
           (({ s with parcels := s.parcels.modify p (fun x => { x with ships := (upTo 256).filter (fun k => x.ships.contains k || k == t) }) }).joinShip t).gateDone true
         else s.gateDone false
       | some o => if p = 16 && s.shipIdle t then
           (let s1 := s.writeBackShip t
            ({ s1 with parcels := s1.parcels.modify o (fun x => { x with ships := x.ships.filter (fun y => y != t) }) }).gateDone true)
         else s.gateDone false)
    | .site p n =>
      (match s.parcelOfSite n with
       | none => if s.parcels.has p && decide (n < 8) then
           (({ s with parcels := s.parcels.modify p (fun x => { x with sites := x.sites ++ [n] }) }).joinSite n).gateDone true
         else s.gateDone false
       | some o => if p = 16 && s.siteIdle o n then
           (({ s with parcels := s.parcels.modify o (fun x => { x with sites := x.sites.filter (fun y => y != n) }) }).leaveSite n).gateDone true
         else s.gateDone false)
    | .key e slot => (match s.keyRetire e slot with
       | .ok s1 => s1.gateDone true
       | .error _ => s.gateDone false)
    | .conf => if s.confidential then (({ s with leave := max 1 s.leave }).gateDone true).leaveStep else s.gateDone false
    | .lc => s.gateDone false)

/-! ### Evidence (R495 to R497) -/

/-- The entries of a parcel's plat that are not zero, each with its granule. -/
def State.platWords (s : State) (p : Nat) : List Nat :=
  (s.regs.filter (fun e => decide (platKey p 0 ≤ e.1) && decide (e.1 < platKey p 0 + 2 ^ 18))).flatMap (fun e => [e.1 - platKey p 0, e.2.toNat])

/-- The value of a measurement block (Table 17-3).
(DESIGN CHOICE: log entry 74.) -/
def State.measBlock (s : State) (i : Nat) : List Nat :=
  if i ≤ 4 then [s.meas.getD (i - 1) 0]
  else if i = 5 then [(s.reg Reg.secStatus).toNat, s.fuseW 24 % 2 ^ 32]
  else if i = 6 then [Config.sha384 (
    (s.parcels.map (fun p => [(p.2.ships.map (fun t => 2 ^ t)).sum, (p.2.sites.map (fun n => 2 ^ n)).sum] ++ p.2.grans)).flatten ++
    (s.parcels.map (fun p => Config.sha384 (s.platWords p.1))) ++ [s.healthy] ++
    ((upTo 8).map (fun n => (s.site n).active + (s.site n).half * 2 ^ 12)))]
  else if s.siteSt (i - 0x10) = 4 ∧ !(s.site (i - 0x10)).report.isEmpty then (s.site (i - 0x10)).report
  else [0, 0, 0, 0]

/-- The blocks that an SPDM index asks for. -/
def measIndices (i : Nat) : List Nat :=
  if i = 0xFF then [1, 2, 3, 4, 5, 6] ++ (upTo 8).map (fun n => 0x10 + n)
  else if 1 ≤ i ∧ i ≤ 6 ∨ 0x10 ≤ i ∧ i ≤ 0x17 then [i] else []

/-- A signed SPDM response: its words, then the Ed25519 alias signature over its digest, which the ML-DSA-65 request may follow. -/
def State.signed (s : State) (kind : Nat) (words : List Nat) : State :=
  let d := Config.sha384 (kind :: words)
  ({ s with lastSig := some d }).emit (.mgmt kind (words ++ [Config.sign s.aliasKey d]))

/-- GET_MEASUREMENTS: for the blocks of sites that are UP a fresh report is taken under the requester's nonce, and until every one is in
or timed out the answer is ResponseNotReady; then the blocks, signed. -/
def execGetMeasurements (index nonce : Nat) (s : State) : Host.Outcome State Fault Refusal :=
  .next (
    let l := measIndices index
    let up := (l.filter (fun i => decide (0x10 ≤ i) && s.siteSt (i - 0x10) == 4)).map (· - 0x10)
    if s.spdm = some (index, nonce) ∨ up.isEmpty then
      (if up.any (fun n => (s.site n).meas) then s.emit (.mgmt 0x7F [0x42])
       else ({ s with spdm := none }).signed 0x60 (nonce :: (l.map (fun i => i :: s.measBlock i)).flatten))
    else ({ (up.foldl (fun (s : State) n => s.askMeas n nonce) s) with spdm := some (index, nonce) }).emit (.mgmt 0x7F [0x42]))

/-- CHALLENGE: signed with the alias key. -/
def execChallenge (nonce : Nat) (s : State) : Host.Outcome State Fault Refusal :=
  .next (s.signed 0x03 (nonce :: ((measIndices 0xFF).map s.measBlock).flatten))

/-- ML_DSA_SIGNATURE_REQUEST: after a signed response, the ML-DSA-65 alias signature over the digest and the Ed25519 signature,
followed by the latter (R490, R495). -/
def execMlDsaSignatureRequest (s : State) : Host.Outcome State Fault Refusal :=
  .next (match s.lastSig with
    | some d =>
      let ed := Config.sign s.aliasKey d
      s.emit (.mgmt 0x7E [Config.sign (mlKey s.aliasKey) (Config.sha384 [d, ed]), ed])
    | none => s.emit (.mgmt 0x7F [0x01]))

/-! ### Life-cycle requests (R520 to R523) -/

/-- NEW: a fresh nonce (R522).
(DESIGN CHOICE: log entry 91.) -/
def State.newNonce (s : State) : State :=
  let s1 := (upTo 4).foldl (fun (s : State) k => let (v, s2) := s.freshNat; s2.setReg (Reg.lcsNonce k) (BitVec.ofNat 64 v)) s
  s1.setBit Reg.lcsNonceCtrl 1 true
/-- NEW takes effect while BAR0 serves the LCS block (R377, R514, R529). -/
def execNew (s : State) : Host.Outcome State Fault Refusal := .next (if s.served (.fn 0) Reg.lcsNonceCtrl then s.newNonce else s)

/-- The outstanding nonce. -/
def State.nonce (s : State) : Nat := ((upTo 4).map (fun k => (s.reg (Reg.lcsNonce k)).toNat * 2 ^ (64 * k))).sum

/-- The signers of a row of Table 18-4: Skasol's, the owner's. None where the pair is not in the table. -/
def lcSigners (f t : Nat) : Option (Bool × Bool) :=
  if f = 0 ∧ t = 1 then some (true, false)
  else if f = 1 ∧ t = 2 then some (true, true)
  else if f = 2 ∧ t = 3 then some (true, false)
  else if f = 3 ∧ t = 4 then some (true, true)
  else if f < 3 ∧ t = 4 then some (true, f != 0)
  else none

/-- The first position of an envelope that breaks its form (step 1 of Table 18-5).
(DEDUCED: log entry 77.) -/
def envelopeBad (v : Nat) : Option Nat :=
  firstBad [(pb v 1 0 != 2, 0), (pb v 3 2 != 1, 2), (pb v 7 4 != 176, 4), (pb v 63 56 != 0, 56),
    (pb v 65 64 != 1 && pb v 65 64 != 2, 64), (pb v 71 68 != 0, 68), (pb v 239 232 != 0, 232)]

/-- The outcome of steps 2 to 9 of Table 18-5; none where every check passes.
(DEDUCED: log entry 77.) -/
def State.lcCheck (s : State) (v valid : Nat) : Option Answer :=
  let op := pb v 65 64
  let f := pb v 66 66
  let t := pb v 67 67
  let signer := pb v 55 8
  let st := s.fieldOf Reg.lcsStatus 2 0
  let skasol := signer == s.fuseW 26
  let owner := s.enrolled && signer == s.owner
  let d := Config.sha384 [v % 2 ^ (8 * 240)]
  let ed := pb v 303 240
  let edBad := !Config.verify signer d ed
  let mlBad := !Config.verify signer (Config.sha384 [d, ed]) (pb v 3615 304)
  let pair := if op = 2 then some (false, false) else lcSigners f t
  let ok := if op = 2 then signer == pb v 231 184 else (match lcSigners f t with | some (a, b) => (a && skasol) || (b && owner) | none => false)
  let other := (upTo 18).any (fun k => let w := fld (pb v 231 184) (64 * (k % 6) + 63) (64 * (k % 6)); (s.fuseW (6 + k) ||| w) != w)
  if s.confidential then some ⟨0x60, 0x30, 0⟩
  else if f ≠ st ∨ pair.isNone ∨ (op = 2 ∧ t ≠ f) then some ⟨0x60, 0x31, 0⟩
  else if !ok then some ⟨0x61, 0x04, 0⟩
  else if edBad || mlBad then some ⟨0x61, b2n edBad + 2 * b2n mlBad, 0⟩
  else if pb v 103 72 ≠ s.identity then some ⟨0x61, 0x10, 0⟩
  else if valid = 0 ∨ pb v 135 104 ≠ s.nonce then some ⟨0x61, 0x12, 0⟩
  else if op = 1 ∧ f = 2 ∧ t = 3 ∧ s.attest ≠ some (pb v 183 136) then some ⟨0x60, 0x32, 0⟩
  else if op = 2 ∧ (st ≠ 1 ∨ s.enrolled ∨ other) then some ⟨0x60, 0x33, 0⟩
  else none

/-- An enrolment (R521): OWNER in three copies, one after another, then the three bits of ENROLLED. -/
def State.enrol (s : State) (owner : Nat) : State :=
  let s1 := (upTo 18).foldl (fun (s : State) k => s.burn (6 + k) (s.fuseW (6 + k) ||| fld owner (64 * (k % 6) + 63) (64 * (k % 6)))) s
  s1.burn 5 (s1.fuseW 5 ||| 7)

/-- LC_REQUEST, with the envelope that the host returns to the reads sent for it, without PASID (R522, R523); while Bus Master Enable is 0 it waits. -/
def execLcRequest (q i envelope : Nat) (s : State) : Host.Outcome State Fault Refusal :=
  .next (s.serve q i 0x0A1 (fun r =>
    match packetCheck r.pkt [(8, 15), (16, 19)] [] [(pb r.pkt 15 8 % 8 != 0, 8), (pb r.pkt 19 16 != 3616, 16)] with
    | some o => s.reply r (badParam o)
    | none =>
      if !s.hostOpen r.fn then s
      else
      let s := s.hostAsk r.fn none (pb r.pkt 15 8) 3616 noAcc
      match envelopeBad envelope with
      | some o => s.gateReply r (badParam o)
      | none =>
        let valid := s.fieldOf Reg.lcsNonceCtrl 1 1
        let s1 := s.setBit Reg.lcsNonceCtrl 1 false
        match s1.lcCheck envelope valid with
        | some a => s1.gateReply r a
        | none =>
          if pb envelope 65 64 = 2 then ((s1.enrol (pb envelope 231 184)).lcRead).gateReply r okAnswer
          else
            let t := pb envelope 67 67
            let s2 := ((upTo 5).foldl (fun (s : State) j => s.programCopy j t) s1)
            let n := ((upTo 5).filter (fun j => (lcState? (lcCopy (s2.fuseW 0) j)).any (fun x => decide (t ≤ x)))).length
            (s2.lcRead.debugRule).gateReply r (if n = 5 then okAnswer else if 3 ≤ n then ⟨1, 5 - n, 0⟩ else status 0xF0)))

/-! ### Secrets erase (R524 to R526) -/

/-- What SECRETS_ERASE keeps of the record. -/
def BmRec.erased (r : BmRec) : BmRec :=
  { BmRec.factory with generation := r.generation, repairs := r.repairs, badT := r.badT, badS := r.badS, badC := r.badC, mapped := r.mapped, pendOut := r.pendOut }

/-- The erase attestation record (Table 18-6). -/
def State.eraseRecord (s : State) (nonce : Nat) : List Byte :=
  bytesOf 2 1 ++ bytesOf 1 (s.fieldOf Reg.lcsStatus 2 0) ++ bytesOf 5 0 ++ bytesOf 32 s.identity ++ bytesOf 32 nonce ++
    bytesOf 48 s.trusted ++ bytesOf 1 0x0F ++ bytesOf 7 0

/-- SECRETS_ERASE.
(DEDUCED: log entry 122.) -/
def execSecretsErase (q i : Nat) (s : State) : Host.Outcome State Fault Refusal :=
  .next (s.serve q i 0x0A0 (fun r =>
    let out := pb r.pkt 15 8
    match packetCheck r.pkt [(8, 47)] [] [(out % 8 != 0, 8)] with
    | some o => s.reply r (badParam o)
    | none =>
      if s.confidential then s.gateReply r ⟨0x60, 0x30, 0⟩
      else if !s.parcels.isEmpty then s.gateReply r ⟨0x21, 1, 0⟩
      else
        let s1 := ({ (s.scrubFlag true) with keys := [] }).evictAll
        let s2 := s1.scrub
        let s3 := ({ s2 with
          ships := s2.ships.mapV (fun _ x => { x with sets := [], evb := [], image := none, contend := [], pred := [], cad := [] })
          dir := [], recNow := { s2.recNow.erased with scrub := true } }).scrubFlag false
        let s4 := (upTo 8).foldl (fun (s : State) n => ({ s with shadow := s.shadow.erase (Reg.siteCfg n) }).setReg (Reg.siteCfg n) (regReset (Reg.siteCfg n))) s3
        let body := s4.eraseRecord (pb r.pkt 47 16)
        let d := Config.sha384 (body.map BitVec.toNat)
        let ed := Config.sign s4.aliasKey d
        let sig := bytesOf 64 ed ++ bytesOf 3312 (Config.sign (mlKey s4.aliasKey) (Config.sha384 [d, ed]))
        (({ s4 with attest := some d }).hostPutRaw 0 out (body ++ sig)).gateReply r okAnswer))

end Sys2Proof.Machine
end

