-- ==== Sys2Proof/Machine/Power.lean ====
section
/-! DEFINITION. The power caps (R547 to R551), heat (R552, R553) and the station's place in the traverse ring (R554 to R559). -/

namespace Sys2Proof.Machine

/-! ### The hub budget (R548) -/

/-- The ring allotment in W (R554): the held tokens, or FALLBACK where no POOL is valid. -/
def State.allotment (s : State) : Nat :=
  25 * (if s.power.pool then s.fieldOf Reg.pwrTrvStat 31 16 else s.fieldOf Reg.pwrTrvCfg 47 32)

/-- The module cap in quarters of a W (R548, R556).
(DEDUCED: log entry 80.) -/
def State.moduleCap4 (s : State) : Nat :=
  let cap := 4 * s.fieldOf Reg.pwrCapCfg 31 16
  if s.bit Reg.pwrTrvCfg 0 then
    let a := s.allotment
    let throttled := match s.fieldOf Reg.pwrTrvStat 2 1 with
      | 0 => 4 * a
      | 1 => 3 * a
      | 2 => 2 * a
      | _ => 100 * s.fieldOf Reg.pwrTrvCfg 47 32
    min cap (min (4 * a) throttled)
  else cap

/-- The hub budget as a fraction of W: HUB_CAP, or the module cap less the average site power of the last 1 ms where that is lower. -/
def State.hubBudget (s : State) : Nat × Nat :=
  let n := max 1 s.power.samples.length
  let sites := (s.power.samples.map (fun x => x.2.sum)).sum
  (min (4 * n * s.fieldOf Reg.pwrCapCfg 15 0) (n * s.moduleCap4 - 4 * sites), 4 * n)

/-- The sum of the newest k hub samples, and how many there are.
(DEDUCED: log entry 80.) -/
def State.hubSum (s : State) (k : Nat) : Nat × Nat :=
  let l := s.power.samples.take k
  ((l.map Prod.fst).sum, l.length)

/-- VCEIL set, with its trace record.
(DEDUCED: log entry 80.) -/
def State.setVceil (s : State) (v : Nat) : State :=
  let old := s.fieldOf Reg.pwrStatus 55 48
  if v = old then s else (s.setField Reg.pwrStatus 55 48 v).trace 6 3 0 (bytesOf 4 old ++ bytesOf 4 v)

/-- Whether any stack is at refresh step 3. -/
def State.anyStack3 (s : State) : Bool := (upTo 12).any (fun k => s.fieldOf (Reg.memStack k) 9 8 == 3)

/-- POWER_SAMPLE: hub and HBM power, and the power of each site, in W measured; PWR_STATUS takes the averages of the last 1 ms (R547). -/
def execPowerSample (hub : Nat) (sites : List Nat) (s : State) : Host.Outcome State Fault Refusal :=
  .next (let l := ((hub, sites.take 8) :: s.power.samples).take 100
    let s1 := { s with power := { s.power with samples := l } }
    let s2 := s1.setField Reg.pwrStatus 15 0 (min 65535 ((l.map Prod.fst).sum / l.length))
    s2.setField Reg.pwrStatus 31 16 (min 65535 ((l.map (fun x => x.2.sum)).sum / l.length)))

/-- VCEIL_ADJUST: the average of the last 100 µs against the hub budget (R549); it does not rise while a stack is at refresh step 3
(R550). A comparison above the budget with VCEIL at 0.45 V counts towards FLOOR. -/
def execVceilAdjust (s : State) : Host.Outcome State Fault Refusal :=
  .next (let b := s.hubBudget
    let a := s.hubSum 10
    let v := s.fieldOf Reg.pwrStatus 55 48
    let above := decide (b.1 * a.2 < a.1 * b.2)
    let s1 := { s with power := { s.power with floor := if above && v == 0 then s.power.floor + 1 else 0 } }
    if 105 * (b.1 * a.2) < 100 * (a.1 * b.2) then s1.setVceil (v - 5)
    else if above then s1.setVceil (v - 1)
    else if 100 * (a.1 * b.2) < 97 * (b.1 * a.2) then (if s1.anyStack3 then s1 else s1.setVceil (min 70 (v + 1)))
    else s1)

/-- VCEIL_FAST_DROP: the 20 µs check against 1.2 × the hub budget (R549). -/
def execVceilFastDrop (s : State) : Host.Outcome State Fault Refusal :=
  .next (let b := s.hubBudget
    let a := s.hubSum 2
    if 12 * (b.1 * a.2) < 10 * (a.1 * b.2) then s.setVceil (s.fieldOf Reg.pwrStatus 55 48 - 10) else s)

/-- STACK3_STEP: 1 ms with a stack at refresh step 3 lowers VCEIL by 5 mV (R550). -/
def execStack3Step (s : State) : Host.Outcome State Fault Refusal :=
  .next (if s.anyStack3 then s.setVceil (s.fieldOf Reg.pwrStatus 55 48 - 1) else s)

/-- FLOOR: the budget has been exceeded at 0.45 V for 10 ms, which is a hundred comparisons (R551). -/
def execFloor (s : State) : Host.Outcome State Fault Refusal := .next (if 100 ≤ s.power.floor then s.pwrEvent 0 else s)

/-! ### Heat (R552, R553) -/

/-- The hottest sensor of a physical township, °C × 4. -/
def State.hottest (s : State) (p : Nat) : Int :=
  let w := (s.reg (Reg.pwrContour p)).toNat
  [1, 2, 3].foldl (fun (m : Int) k => max m (sextNat 16 (fld w (16 * k + 15) (16 * k)))) (sextNat 16 (fld w 15 0))

/-- The physical township that logical township t stands on; none where it is absent (NOC_COORD_t). -/
def State.standsOn? (s : State) (t : Nat) : Option Nat :=
  if s.bit (Reg.nocCoord t) 12 then none else some (s.physOf t)

/-- T_THROTTLE and T_CRIT in °C. -/
def State.tThrottle (s : State) : Nat :=
  let v := s.fieldOf Reg.pwrThermCfg 7 0
  if 85 ≤ v ∧ v ≤ 115 then v else 105
def State.tCrit (s : State) : Nat :=
  let v := s.fieldOf Reg.pwrThermCfg 15 8
  if s.tThrottle ≤ v ∧ v ≤ 120 then v else 115

/-- A sensor's reading in PWR_CONTOUR. -/
def State.sense (s : State) (n : Nat) (v : BitVec 16) : State :=
  if n < 1040 then s.setField (Reg.pwrContour (n / 4)) (16 * (n % 4) + 15) (16 * (n % 4)) v.toNat else s

/-- TEMP of a logical township from its sensors; at T_CRIT its ceiling drops to 0.45 V and HOT is set. -/
def State.heatShip (s : State) (t : Nat) : State :=
  match s.standsOn? t with
  | none => s
  | some p =>
    let h := s.hottest p
    let s1 := s.setField (Reg.pwrT t) 31 16 (wrap 16 h)
    if (4 * s.tCrit : Nat) ≤ h then (s1.setField (Reg.pwrT t) 14 8 0).pwrEvent 1 else s1

/-- SENSOR_READ: readings of contour sensors by number, °C × 4 in two's complement; 125 °C is a thermal trip (R553). -/
def execSensorRead (readings : List (Nat × BitVec 16)) (s : State) : Host.Outcome State Fault Refusal :=
  .next (let s1 := readings.foldl (fun (s : State) (e : Nat × BitVec 16) => s.sense e.1 e.2) s
    let s2 := (upTo 256).foldl (fun (s : State) t => s.heatShip t) s1
    match readings.find? (fun e => decide (e.1 < 1040) && decide (500 ≤ e.2.toInt)) with
    | some e => s2.thermalTrip false e.1
    | none => s2)

/-- The thermal ceiling of a township after 1 ms. -/
def State.ceilShip (s : State) (t : Nat) : State :=
  let h := sextNat 16 (s.fieldOf (Reg.pwrT t) 31 16)
  let c := s.fieldOf (Reg.pwrT t) 14 8
  if (4 * s.tThrottle : Nat) ≤ h then s.setField (Reg.pwrT t) 14 8 (c - 2)
  else if h ≤ (4 * s.tThrottle : Nat) - 12 then (if c < 70 then s.setField (Reg.pwrT t) 14 8 (min 70 (c + 2)) else s)
  else s

/-- THERMAL_CEILING_STEP: 1 ms of the rule of R553 for every township. -/
def execThermalCeilingStep (s : State) : Host.Outcome State Fault Refusal :=
  .next ((upTo 256).foldl (fun (s : State) t => s.ceilShip t) s)

/-- The island setting of a logical township (R545), coded as TARGET. -/
def State.islandV (s : State) (t : Nat) : Nat :=
  let want := match s.parcelOfShip t with
    | some p => if s.bit (Reg.nocCoord t) 12 then s.fieldOf Reg.pwrCapCfg 41 32 else min 70 (s.fieldOf (Reg.pwrPTarget p) 6 0)
    | none => s.fieldOf Reg.pwrCapCfg 41 32
  min want (min (s.fieldOf Reg.pwrStatus 55 48) (s.fieldOf (Reg.pwrT t) 14 8))

/-! ### The traverse ring -/

/-- A frame received by a joined station: discarded and counted where its CRC fails, discarded where this station is its origin; otherwise
the station may act on it and forward it (R554). -/
def State.ringTake (s : State) (f : Nat) (act : State → State × Nat) : State :=
  if !s.bit Reg.pwrTrvStat 0 then s
  else if frByte f 15 ≠ frCrc f then s.addSat Reg.pwrTrvStat 47 32 1
  else if frByte f 2 = s.fieldOf Reg.pwrTrvCfg 15 8 then s
  else
    let (s1, g) := act s
    (s1.addWrap Reg.pwrTrvStat 63 48 1).emit (.frame (frByte g 1) [frSeal (putFld g 31 24 (frByte g 3 + 1))])

/-- A frame of one type; a valid frame of another type is no event of this row. -/
def State.ringType (s : State) (type f : Nat) (act : State → State × Nat) : State :=
  if frByte f 1 = type ∨ frByte f 15 ≠ frCrc f then s.ringTake f act else s

/-- POOL: tokens taken from FREE or returned to it (R555). -/
def poolAct (f : Nat) (s : State) : State × Nat :=
  let free := fld f 63 48
  let h := s.fieldOf Reg.pwrTrvStat 31 16
  let want := s.fieldOf Reg.pwrTrvCfg 31 16
  let s1 := { s with power := { s.power with pool := true } }
  if h < want then
    let k := min free (want - h)
    (s1.setField Reg.pwrTrvStat 31 16 (h + k), putFld f 63 48 (free - k))
  else (s1.setField Reg.pwrTrvStat 31 16 want, putFld f 63 48 (free + (h - want)))
/-- DEDUCED: log entry 79. -/
def execPool (f : BitVec 128) (s : State) : Host.Outcome State Fault Refusal := .next (s.ringType 1 f.toNat (poolAct f.toNat))

/-- CENSUS: held tokens added to SUM and 1 to COUNT. -/
def censusAct (f : Nat) (s : State) : State × Nat :=
  (s, putFld (putFld f 63 48 (fld f 63 48 + s.fieldOf Reg.pwrTrvStat 31 16)) 71 64 (frByte f 8 + 1))
def execCensus (f : BitVec 128) (s : State) : Host.Outcome State Fault Refusal := .next (s.ringType 2 f.toNat (censusAct f.toNat))

/-- The level applied is the highest one held. -/
def State.setLevel (s : State) (levels : Tbl Nat) : State :=
  ({ s with power := { s.power with levels := levels } }).setField Reg.pwrTrvStat 2 1 (levels.foldl (fun (m : Nat) (e : Nat × Nat) => max m e.2) 0)

/-- THROTTLE: the origin's level (R556). A LEVEL above 3 has no stated meaning, and what is held for it is free. -/
def throttleAct (f : Nat) (s : State) : State × Nat :=
  let (k, s1) := s.pick 4
  let lvl := if frByte f 6 ≤ 3 then frByte f 6 else k
  (s1.setLevel (s1.power.levels.set (frByte f 2) lvl), f)
/-- DEDUCED: log entry 80. -/
def execThrottle (f : BitVec 128) (s : State) : Host.Outcome State Fault Refusal := .next (s.ringType 3 f.toNat (throttleAct f.toNat))

/-- RELEASE: forwarded unchanged. -/
def execRelease (f : BitVec 128) (s : State) : Host.Outcome State Fault Refusal := .next (s.ringType 4 f.toNat (fun s => (s, f.toNat)))

/-- TRAVERSE_FRAME_FORWARD: a frame of any other type, forwarded unchanged. -/
def execTraverseFrameForward (f : BitVec 128) (s : State) : Host.Outcome State Fault Refusal :=
  .next (if (1 ≤ frByte f.toNat 1 ∧ frByte f.toNat 1 ≤ 4) ∧ frByte f.toNat 15 = frCrc f.toNat then s
    else s.ringTake f.toNat (fun s => (s, f.toNat)))

/-- RING_LOST: 100 ms without a valid POOL; the allotment falls back (R554). -/
def execRingLost (s : State) : Host.Outcome State Fault Refusal :=
  .next (if s.bit Reg.pwrTrvStat 0 then ({ s with power := { s.power with pool := false } }).pwrEvent 3 else s)

/-- THROTTLE_EXPIRY: 1 s since the last THROTTLE of an origin; its level lapses (R556).
(DESIGN CHOICE: log entry 12.) -/
def execThrottleExpiry (origin : Nat) (s : State) : Host.Outcome State Fault Refusal :=
  .next (s.setLevel (s.power.levels.erase origin))

/-- THROTTLE_ORIGINATE: level 2 sent while HOT or FLOOR is set and THR_OUT is 1 (R556). -/
def execThrottleOriginate (s : State) : Host.Outcome State Fault Refusal :=
  .next (if s.bit Reg.pwrTrvStat 0 && (s.bit Reg.pwrEvent 0 || s.bit Reg.pwrEvent 1) && s.bit Reg.pwrThermCfg 16 then s.ringSend 3 2 else s)

/-- TRAVERSE_JOIN: a frame has ended; with READY and RING_EN 1 the bypass opens (R558), and the allotment is FALLBACK until a POOL. -/
def execTraverseJoin (s : State) : Host.Outcome State Fault Refusal :=
  .next (if s.bit Reg.glbStatus 0 && s.bit Reg.pwrTrvCfg 0 && !s.bit Reg.pwrTrvStat 0 then
    (({ s with power := { s.power with pool := false } }).setBit Reg.pwrTrvStat 0 true).emit (.pin 0x200 true)
  else s)

/-- BYPASS_CLOSE: the auxiliary rail fails or module reset is asserted, and the bypass closes without a RELEASE (R558, R594). -/
def execBypassClose (s : State) : Host.Outcome State Fault Refusal := .next s.closeBypass

/-- A write of PWR_TRV_CFG: recorded (R536), and RING_EN 0 leaves the ring with a RELEASE (R559). -/
def State.trvWrite (s : State) (v : Nat) : State :=
  let w := putFld (putFld (s.reg Reg.pwrTrvCfg).toNat 0 0 v) 47 8 (fld v 47 8)
  let s1 := if v.testBit 0 then s else s.ringRelease
  (s1.setReg Reg.pwrTrvCfg (BitVec.ofNat 64 w)).recMod (fun r => { r with trv := w })

/-- TRAVERSE_CONFIG_WRITE: PWR_TRV_CFG written by the driver through the PF. -/
def execTraverseConfigWrite (value : W64) (s : State) : Host.Outcome State Fault Refusal :=
  .next (if s.driverRow then s.trvWrite value.toNat else s)

end Sys2Proof.Machine
end

