-- ==== Sys2Proof/Machine/HostLink.lean ====
section
/-! DEFINITION. The host link (chapter 13): doorbells, BAR4, the functions' resets and enables, ATS, TDISP and IDE, and the swap of the
dirty maps. Completions carry 0 for success, 1 Unsupported Request, 2 Request Retry Status, 3 success with poisoned data. -/

namespace Sys2Proof.Machine

/-! ### Functions -/

/-- Whether a function exists: the PF, or a VF below NumVFs while VF Enable is 1.
(PRESUMED: log entry 49.) -/
def State.fnPresent (s : State) (n : Nat) : Bool := n == 0 || ((s.fn 0).vfEnable && decide (n ≤ (s.fn 0).numVfs))

/-- Whether a function takes a memory request: it is in D0, and in RUN a VF takes only those of its stream with T set (R394).
(PRESUMED: log entry 49.) -/
def State.barOpen (s : State) (n : Nat) (tee : Bool) : Bool := s.fnPresent n && !(s.fn n).d3 && ((s.fn n).tdi != 2 || tee)

/-- An access refused for its size, its alignment or a PASID prefix (R378): counted, and a read completes with zero data. -/
def badSize (off size : Nat) (pasid : Bool) : Bool := pasid || !(size == 4 || size == 8) || off % size != 0
/-- DEDUCED: log entry 52. -/
def State.badAccess (s : State) (off : Nat) (write : Bool) : State :=
  let s1 := s.addSat Reg.glbStatus 63 48 1
  if write then s1 else s1.emit (.regValue off 0)

/-- BAD_ACCESS: a BAR0 access of a size or alignment that R378 does not accept, or with a PASID prefix. -/
def execBadAccess (off size : Nat) (pasid write : Bool) (s : State) : Host.Outcome State Fault Refusal :=
  .next (if badSize off size pasid then s.badAccess off write else s)

/-! ### Doorbells (R385, R401) -/

/-- A doorbell write discarded and counted.
(DEDUCED: log entry 52.) -/
def State.dbDrop (s : State) : State := s.addSat Reg.glbStatus 47 32 1

/-- The queue of a doorbell. -/
def State.doorbellOf (s : State) (n page slot : Nat) : Option Nat := (s.groupAt n page).bind (fun g => s.queueAt g slot)

/-- The tail of a queue set; commands below it are submitted by this write. -/
def State.setTail (s : State) (q : Nat) (x : Queue) (v : Nat) : State :=
  if v = x.tail then s
  else if 2 ^ 31 ≤ (v + 2 ^ 32 - x.fetch) % 2 ^ 32 then s.dbDrop
  else
    let (k, s1) := s.stamp
    let more := x.subs.all (fun e => decide ((e.1 + 2 ^ 32 - x.fetch) % 2 ^ 32 < (v + 2 ^ 32 - x.fetch) % 2 ^ 32))
    s1.setQueue q { x with tail := v, subs := if more then x.subs ++ [(v, k)] else x.subs }

/-- DOORBELL: a write of a function's doorbell page. Writes of a VF are discarded and counted during its Function Level Reset and in ERROR (R382,
R394, Table 14-8).
(DEDUCED: log entry 52.) -/
def execDoorbell (n page slot : Nat) (value : W64) (tee : Bool) (s : State) : Host.Outcome State Fault Refusal :=
  .next (if !s.barOpen n tee then s
    else if !s.bit Reg.glbStatus 0 then s.dbDrop
    else if (s.fn n).flr || (s.fn n).tdi == 3 then s.dbDrop
    else match s.doorbellOf n page slot with
      | none => s.dbDrop
      | some q =>
        match s.queues.get? q with
        | none => s.dbDrop
        | some x => s.setTail q x (value.toNat % 2 ^ 32))

/-! ### BAR4 (R379) -/

/-- Where a BAR4 access leads, or the failure; the PF reaches the HBM that plats may map and no window. -/
def State.bar4 (s : State) (n off : Nat) (write : Bool) : Except Xfault Xlat :=
  if n = 0 then
    let dpa := s.fieldOf Reg.glbBar4Base 9 0 * 2 ^ 30 + off
    if s.confidential ∨ s.rsvBase ≤ dpa then .error ⟨0x07, 0⟩ else .ok ⟨dpa, dpa, false, false, none, false⟩
  else if s.vfBound n then s.platResolve (s.vfParcel n) none (s.fieldOf (Reg.glbVfWin n) 17 0 * 2 ^ 30 + off) write
  else .error ⟨0x05, 0⟩

/-- A BAR4 access that is not served: where the plat entry lies on a FAILED channel, an uncorrectable control error of the parcel too (R298). -/
def State.bar4Miss (s : State) (n : Nat) (f : Xfault) : State := if f.code = 0x0C then s.parcelError 0x07 (s.vfParcel n) 0 0 0 0 else s

/-- A coherent read for the host, or the read of a chiplet's window; a read of a channel in a slice waits for its end (R305).
(DESIGN CHOICE: log entry 91.) -/
def State.bar4Read (s : State) (n off len : Nat) (tee : Bool) : State :=
  match s.bar4 n off false with
  | .error f => (s.bar4Miss n f).emit (.completion n 1 [])
  | .ok x =>
    match x.window with
    | some k =>
      let (v, s1) := s.freshNat
      (s1.windowSpan (s.vfParcel n) k none (len / 128 + 2) x.dpa len).emit (.completion n 0 (bytesOf len v))
    | none =>
      if s.spanHeld x.dpa len then { s with hostHeld := s.hostHeld ++ [.bar4Read n off len tee] }
      else
        let s1 := s.countSpan 680 none false (len / 128 + 2) x.dpa len
        if s.spanPoisoned x.dpa len then s1.emit (.completion n 3 (bytesOf len 0)) else s1.emit (.completion n 0 (bytesOf len (s.cohRead x.dpa len)))

/-- BAR4_READ. -/
def execBar4Read (n off len : Nat) (tee : Bool) (s : State) : Host.Outcome State Fault Refusal :=
  .next (if !s.barOpen n tee then s.emit (.completion n 1 [])
    else if !s.bit Reg.glbStatus 0 then s.emit (.completion n 0 (bytesOf len 0))
    else s.bar4Read n off len tee)

/-- A coherent write for the host, a write to a chiplet's window, or none: then an Advisory Non-Fatal error is reported. During a slice of its channel
it waits (R305). -/
def State.bar4Write (s : State) (n off : Nat) (bytes : List Byte) (tee : Bool) : State :=
  match s.bar4 n off true with
  | .error f => if n = 0 ∧ s.confidential then s else (s.bar4Miss n f).emit (.mgmt 0x22 [n])
  | .ok x =>
    match x.window with
    | some k => s.windowSpan (s.vfParcel n) k (some bytes) (bytes.length / 128 + 2) x.dpa bytes.length
    | none =>
      if s.spanHeld x.dpa bytes.length then { s with hostHeld := s.hostHeld ++ [.bar4Write n off bytes tee] }
      else (s.countSpan 680 none true (bytes.length / 128 + 2) x.dpa bytes.length).cohWrite x.dpa bytes

/-- BAR4_WRITE. -/
def execBar4Write (n off : Nat) (bytes : List Byte) (tee : Bool) (s : State) : Host.Outcome State Fault Refusal :=
  .next (if !s.barOpen n tee || !s.bit Reg.glbStatus 0 then s else s.bar4Write n off bytes tee)

/-! ### Bus Master Enable and ATS (R384, R389 to R391) -/

/-- The accesses of a function's contexts in a state, begun again. -/
def State.resumeAccs (s : State) (n : Nat) (st : AccState) (p : Acc → Context → Bool) : State :=
  (s.accs.filter (fun e => e.2.st == st && (match s.ctxs.get? (e.2.ctx % 4096) with
    | some c => c.fn == n && p e.2 c
    | none => false))).foldl (fun (s : State) (e : Nat × Acc) => s.startPart e.1 8) s

/-- BUS_MASTER_ENABLE: the enable of a function changes; accesses that waited for it go on. -/
def execBusMasterEnable (n : Nat) (on : Bool) (s : State) : Host.Outcome State Fault Refusal :=
  .next (let s1 := s.modFn n (fun f => { f with bme := on })
    if on then s1.resumeAccs n .held (fun _ _ => true) else s1)

/-! ### Failures of host reads, and ATS (R389 to R391, R606) -/

/-- The host-window address that a command still reads: the source of a COPY's next piece, or the first structure of a LAUNCH that lies
there, with the access type of its fault. -/
def Cmd.hostSource (c : Cmd) : Option (Nat × Nat) :=
  match c.st with
  | .serving d =>
    let src := pb c.pkt 15 8 + d.headD 0
    if c.opcode = 0x041 ∧ inHost src then some (src, 6) else none
  | .started => if c.opcode = 0x040 then ([pb c.pkt 47 40, pb c.pkt 55 48].find? (fun p => inHost p)).map (fun p => (p, 0)) else none
  | _ => none

/-- A read of host memory that fails (R606, R407): the thread or the context takes HOST_ERROR, or the queue's ring fails. -/
def State.hostFails (s : State) (r : HostReq) : State :=
  match r with
  | .access id =>
    let s1 : State := match s.accs.get? id with
      | some a => if a.part?.any (fun p => p.via == .host) && (a.st == .host || a.st == .ats) then s.failAcc id 0x09 0 else s
      | none => s
    s1.hostEnd id
  | .ring q =>
    (match s.queues.get? q with
     | some x => if (x.dead && x.ctx == 0) || x.fetch == x.tail then s else s.ringFail q 0x09 (x.ring + 64 * (x.fetch % 2 ^ x.log2)) 0 true
     | none => s)
  | .command q i =>
    (match s.cmd? q i with
     | some c =>
       (match c.hostSource, s.ctxs.get? (c.context % 4096) with
        | some (pva, acc), some y => if y.st = .live then s.loseCtx (c.context % 4096) ⟨0x09, acc, pva, 0, 0xFFFFFFFF⟩ else s
        | _, _ => s)
     | none => s)

/-- Whether a host-window address of a context is one that the cache denies a read. -/
def State.deniedAt (s : State) (c : Context) (pva : Nat) : Bool := inHost pva && s.hostWay c.fn c.pasid (hostAddr c pva) false == .deny

/-- What the hub's engines read next that the cache denies fails: ring fetches, and the commands that read their source or structures.
(DEDUCED: log entry 53.) -/
def State.failDenied (s : State) : State :=
  s.queues.foldl (fun s e =>
    let s1 := match s.queues.get? e.1, s.ctxOf e.2.ctx with
      | some x, some c => if !x.dead && x.fetch != x.tail && s.deniedAt c (x.ring + 64 * (x.fetch % 2 ^ x.log2)) then s.hostFails (.ring e.1) else s
      | _, _ => s
    e.2.cmds.foldl (fun s k => match s.cmd? e.1 k.1 with
      | some c => (match c.hostSource, s.ctxOf c.context with
        | some (pva, _), some y => if s.deniedAt y pva then s.hostFails (.command e.1 k.1) else s
        | _, _ => s)
      | none => s) s1) s

/-- The cache of 4,096 entries with an entry for a page; which one makes room is free (R389). -/
def State.atcPut (s : State) (e : AtcEntry) : State :=
  let l := s.atc.filter (fun x => !(x.fn == e.fn && x.pasid == e.pasid && x.page == e.page))
  let (k, s1) := s.pick l.length
  { s1 with atc := e :: (if l.length < 4096 then l else l.eraseIdx k) }

/-- ATS_TRANSLATION_COMPLETION: a Translation Request returns. With a permission the cache takes it, and what waited for it goes on; without, or where
the request failed, whatever needs the page takes HOST_ERROR, and nothing is cached (R389).
(DEDUCED: log entry 53.) -/
def execAtsTranslationCompletion (n tag hostPage : Nat) (read write : Bool) (s : State) : Host.Outcome State Fault Refusal :=
  .next (match (s.fn n).atsReq.get? tag with
    | none => s
    | some r =>
      let s1 := s.modFn n (fun f => { f with atsReq := f.atsReq.erase tag })
      if read || write then (s1.atcPut ⟨n, r.pasid, r.page, hostPage, read, write⟩).hostGoes
      else
        let s2 := ({ s1 with atc := ⟨n, r.pasid, r.page, 0, false, false⟩ :: s1.atc } : State).hostGoes.failDenied
        { s2 with atc := s2.atc.filter (fun e => e.read || e.write) })

/-- The cached translations of a function dropped. -/
def State.atcDrop (s : State) (n : Nat) : State := { s with atc := s.atc.filter (fun e => e.fn != n) }

/-- ATS_INVALIDATION_REQUEST: cached translations of a range of pages removed; of these requests the hub holds 32. The completion follows once every
translated read that used one of them has ended (R390); the writes have been sent.
(DESIGN CHOICE: log entry 55.) -/
def execAtsInvalidationRequest (n tag pasid page count : Nat) (s : State) : Host.Outcome State Fault Refusal :=
  .next (if 32 ≤ s.invals.length then s
    else
      let covers (f p g : Nat) : Bool := f == n && p == pasid && decide (page ≤ g) && decide (g < page + count)
      let reads := (s.hostOut.filter (fun e => e.2.xlat && covers e.2.fn e.2.pasid e.2.page)).map Prod.fst
      ({ s with atc := s.atc.filter (fun e => !covers e.fn e.pasid e.page), invals := s.invals ++ [⟨n, tag, pasid, page, count, reads⟩] } : State).invalsDone)

/-- HOST_ERROR: a host-window access fails when the hub learns of it (R606): an Unsupported Request or Completer Abort returns, or a
translation fails. -/
def execHostError (r : HostReq) (s : State) : Host.Outcome State Fault Refusal := .next (s.hostFails r)

/-- The function of a read request. -/
def State.hostReqFn (s : State) : HostReq → Nat
  | .access id => ((s.hostOut.get? id).map (fun e => e.fn)).getD 0
  | .ring q => ((s.queues.get? q).map (fun x => x.fn)).getD 0
  | .command q _ => ((s.queues.get? q).map (fun x => x.fn)).getD 0

/-- COMPLETION_TIMEOUT: a read request gets no completion in time (R391): as for one that fails; a failed translation is no time-out, and with
Completion Timeout Disable of the function there is none.
(DESIGN CHOICE: log entry 12.) -/
def execCompletionTimeout (r : HostReq) (s : State) : Host.Outcome State Fault Refusal :=
  .next (if (s.fn (s.hostReqFn r)).ctoOff then s
    else match r with
    | .access id => if s.hostOut.has id then s.hostFails r else s
    | _ => s.hostFails r)

/-! ### Resets of functions (R376, R382, R383) -/

/-- A VF begins to be reset (R382): every context retired as far as its XINVACKs. A tenant's reset makes the hub leave confidential mode
(R503).
(DEDUCED: log entry 51.) -/
def State.vfStop (s : State) (n : Nat) : State :=
  let s1 := (s.ctxs.filter (fun e => e.2.fn == n && e.2.st != .retiring)).foldl
    (fun (s : State) (e : Nat × Context) => ((s.retireStop e.1 e.2).dropTlb e.1).sendXinv e.1 e.2) s
  let s2 := s1.modFn n (fun f => { f with flr := true })
  if s2.confidential && s2.tenant == n then { s2 with leave := max 1 s2.leave } else s2

/-- A VF's reset ends once its contexts are gone: its queues and groups are destroyed; the dirty-logging registers and map stay (R398).
(DEDUCED: log entry 51.) -/
def State.vfStep (s : State) (n : Nat) : State :=
  let mine := s.ctxs.filter (fun e => e.2.fn == n)
  if (s.fn n).flr && mine.all (fun e => e.2.xinv == 0) then
    let s1 := mine.foldl (fun (s : State) (e : Nat × Context) => s.retireEnd e.1 ⟨16384, 0, 0, none, 0⟩ []) s
    let s2 := { s1 with
      queues := s1.queues.keep (fun _ x => x.fn != n)
      groups := s1.groups.keep (fun _ g => g.fn != n)
      fnEvents := s1.fnEvents.erase n }
    ({ s2 with hostWait := s2.hostWait.filter (fun p => p.fnOf != n) } : State).atcDrop n |>.modFn n (fun f => { FnSt.empty with tdi := f.tdi, dirty := f.dirty })
  else s

/-- VF_FLR: a Function Level Reset of a VF begins, or goes on once acknowledgements have come.
(DEDUCED: log entry 51.) -/
def execVfFlr (n : Nat) (s : State) : Host.Outcome State Fault Refusal :=
  .next (if n = 0 ∨ 63 < n then s else if (s.fn n).flr then s.vfStep n else (s.vfStop n).vfStep n)

/-- A reset of the PF: a warm reset of the hub; confidential mode is left first (R383, R503). The link stays trained, and GLB_LINK shows it (R373).
(DEDUCED: log entry 111.) -/
def State.pfReset (s : State) : State :=
  (((if s.confidential then s.leaveEnd else s).warmReset).setField Reg.glbLink 9 0 (s.fieldOf Reg.glbLink 9 0)).modFn 0 (fun f => { f with retry := true })

/-- PF_FLR: a Function Level Reset of the PF, or its transition from D3hot to D0.
(DEDUCED: log entry 54.) -/
def execPfFlr (s : State) : Host.Outcome State Fault Refusal := .next s.pfReset

/-- PERST: asserted, a Conventional Reset of the functions with the link down; deasserted, link training begins (R375, R376).
(DEDUCED: log entry 51.) -/
def execPerst (asserted : Bool) (s : State) : Host.Outcome State Fault Refusal :=
  .next (if asserted then
      ({ s with fns := s.fns.mapV (fun _ f => { FnSt.empty with dirty := f.dirty }), pcieHeld := true,
                atc := [], hostOut := [], hostWait := [], invals := [], hostHeld := [] }).setField Reg.glbLink 9 0 0
    else if s.pcieHeld then ({ s with pcieHeld := false }).modFn 0 (fun f => { f with retry := true }) else s)

/-- HOST_LINK_STATE_CHANGE: GLB_LINK follows the link (R373). A rate of 64 GT/s has flit mode only. -/
def execHostLinkStateChange (e : LinkEvent) (s : State) : Host.Outcome State Fault Refusal :=
  .next (match e with
    | .trained rate width flit =>
      if s.pcieHeld || rate == 0 || decide (6 < rate) || !([1, 2, 4, 8, 16].contains width) || (rate == 6 && !flit) then s
      else s.setField Reg.glbLink 9 0 (rate + width * 16 + b2n flit * 512)
    | .recovery => s.addSat Reg.glbLink 31 16 1
    | .down => s.setField Reg.glbLink 9 0 0)

/-! ### Configuration requests (R374, R376, Table 13-2) -/

/-- A configuration word: the identity, what has been written, or what the PCIe standard puts there, which is free.
(PRESUMED: log entry 50.) -/
def State.cfgWord (s : State) (n w : Nat) : Nat :=
  let stepping := s.fuseW 25 % 256
  if w = 0 then (if n = 0 then 0x1400 else 0x1401) * 65536 + 0x1E77
  else if w = 2 then 0x120000 * 256 + stepping
  else if w = 11 then Config.fuse 28 % 2 ^ 32
  else (s.fn n).cfg.getD w (Config.freeNat (s.free + w) % 2 ^ 32)

/-- The options of Table 13-1 that a function reports: the rates, 2.5 to 64 GT/s, and the widths, one bit each; flit mode; the largest payload
and read request; the bits of a tag; the device power states D0 and D3hot; AER; and Resizable BAR, ARI, SR-IOV, PASID, ATS, DOE, IDE and TDISP, of
which a VF has no SR-IOV, DOE or IDE. The options that are not supported read 0.
(PRESUMED: log entry 112.) -/
def capOptions (n : Nat) : List Byte :=
  bytesOf 1 0x3F ++ bytesOf 1 0x1F ++ bytesOf 1 1 ++ bytesOf 2 512 ++ bytesOf 2 4096 ++ bytesOf 1 14 ++ bytesOf 1 9 ++ bytesOf 1 1 ++
    bytesOf 1 (if n = 0 then 0xFF else 0x9B) ++ bytesOf 1 0

/-! ### The DOE mailbox (R392) -/

/-- The answer of DOE Discovery to an index: the protocols Discovery, CMA/SPDM and Secured CMA/SPDM of the PCI-SIG, each with the index after it.
(PRESUMED: log entry 112.) -/
def doeDiscovery (i : Nat) : List Nat := [1, 3, if i < 3 then 1 + i * 2 ^ 16 + (if i < 2 then i + 1 else 0) * 2 ^ 24 else 0xFFFF]

/-- A data object sent with GO: one whose length is not that of what was written, or above 16,384 DW, is an error; Discovery is answered at once; an
object of the other two protocols goes to the datum controller (R489); any other is discarded.
(PRESUMED: log entry 112.) -/
def State.doeGo (s : State) : State :=
  let o := s.doe.obj
  let d := { s.doe with obj := [] }
  if o.length < 2 ∨ 16384 < o.length ∨ o.getD 1 0 % 2 ^ 18 ≠ o.length then { s with doe := { d with error := true } }
  else if o.headD 0 % 2 ^ 24 = 1 then { s with doe := { d with resp := doeDiscovery (o.getD 2 0 % 256) } }
  else if o.headD 0 % 2 ^ 24 = 0x10001 then { s with doe := { d with kind := some 1 } }
  else if o.headD 0 % 2 ^ 24 = 0x20001 then { s with doe := { d with kind := some 2 } }
  else { s with doe := d }

/-- What software does with the mailbox, and the bytes that it reads: the next DW of the response, or the status, with Busy in bit 0, Error in bit 2 and
Data Object Ready in bit 31. -/
def State.doeAct (s : State) (op : DoeOp) : State × List Byte :=
  let d := s.doe
  match op with
  | .write v => ({ s with doe := if d.obj.length ≤ 16384 then { d with obj := d.obj ++ [v.toNat] } else d }, [])
  | .go => (s.doeGo, [])
  | .read => ({ s with doe := { d with resp := d.resp.drop 1 } }, bytesOf 4 (d.resp.headD 0))
  | .abort => ({ s with doe := ⟨[], [], none, false⟩ }, [])
  | .status => (s, bytesOf 4 (b2n d.kind.isSome + b2n d.error * 4 + b2n (!d.resp.isEmpty) * 2 ^ 31))

/-- The effect of a configuration request on a function that answers it, and the bytes it returns.
(PRESUMED: log entry 49.) -/
def State.cfgAct (s : State) (n : Nat) (c : CfgReq) : State × List Byte :=
  match c with
  | .read w => (s, bytesOf 4 (s.cfgWord n w))
  | .write w v => (if w = 0 ∨ w = 2 ∨ w = 11 then s else s.modFn n (fun f => { f with cfg := f.cfg.set w v.toNat }), [])
  | .sriov => (s, bytesOf 2 63 ++ bytesOf 2 1 ++ bytesOf 2 1)
  | .numVfs k => (if n = 0 ∧ k ≤ 63 ∧ !(s.fn 0).vfEnable then s.modFn 0 (fun f => { f with numVfs := k }) else s, [])
  | .vfEnable on =>
    (if n ≠ 0 then s
     else if on then s.modFn 0 (fun f => { f with vfEnable := true })
     else if (s.fn 0).vfEnable then
       ((upTo (s.fn 0).numVfs).map (· + 1)).foldl (fun (s : State) k => (s.vfStop k).vfStep k) (s.modFn 0 (fun f => { f with vfEnable := false }))
     else s, [])
  | .power d3 =>
    (if d3 then s.modFn n (fun f => { f with d3 := true })
     else if !(s.fn n).d3 then s
     else if n = 0 then s.pfReset
     else ((s.modFn n (fun f => { f with d3 := false })).vfStop n).vfStep n, [])
  | .ats on stu =>
    (if 31 < stu then s else
      let same := on && (s.fn n).ats && (s.fn n).stu == stu
      ((if same then s else s.atcDrop n).modFn n (fun f => { f with ats := on, stu := stu })).hostGoes, [])
  | .msix on mask => ((s.modFn n (fun f => { f with msix := on, msixMask := mask })).unmaskAll n, [])
  | .options => (s, capOptions n)
  | .devCtl mps mrrs =>
    (if [128, 256, 512].contains mps && [128, 256, 512, 1024, 2048, 4096].contains mrrs then s.modFn n (fun f => { f with mps := mps, mrrs := mrrs }) else s, [])
  | .devCtl2 v off => (if [0, 1, 2, 5, 6, 9, 10, 13, 14].contains v then s.modFn n (fun f => { f with cto := v, ctoOff := off }) else s, [])
  | .doe op => if n = 0 then s.doeAct op else (s, bytesOf 4 0)
  | .ideRange stream idx lo hi =>
    (if n = 0 ∧ 1 ≤ stream ∧ stream ≤ 4 ∧ idx < 2 then
      { s with ide := s.ide.set stream (let w := s.ide.getD stream ⟨0, []⟩; { w with ranges := w.ranges.set idx (lo, hi) }) }
     else s, [])

/-- CONFIGURATION_REQUEST: answered with Request Retry Status for a time after a reset, which is free up to 200 ms, and then normally (R376).
(DESIGN CHOICE: log entry 92.) -/
def execConfigurationRequest (n : Nat) (c : CfgReq) (s : State) : Host.Outcome State Fault Refusal :=
  .next (if s.pcieHeld || s.fieldOf Reg.glbLink 3 0 == 0 then s
    else if !s.fnPresent n then s.emit (.completion n 1 [])
    else
      let (busy, s1) := s.flip
      if (s.fn 0).retry && busy then s1.emit (.completion n 2 [])
      else
        let (s2, bs) := (s1.modFn 0 (fun f => { f with retry := false })).cfgAct n c
        s2.emit (.completion n 0 bs))

/-! ### DOE, IDE and TDISP (R392 to R394, R501) -/

/-- LOCK_INTERFACE_REQUEST: only for the tenant while confidential mode is on (R501); a locked interface logs no dirty page (R394). -/
def execLockInterfaceRequest (n : Nat) (s : State) : Host.Outcome State Fault Refusal :=
  .next (if s.confidential && n == s.tenant && (s.fn n).tdi == 0 then
      ((s.modFn n (fun f => { f with tdi := 1 })).setBit (Reg.glbDirtyCtrl n) 0 false).emit (.mgmt 0x30 [n, 1])
    else s.emit (.mgmt 0x3F [n]))

/-- TDISP_MESSAGE: START moves a locked interface to RUN; STOP returns it to CONFIG_UNLOCKED, on which the hub leaves confidential mode
(R503). -/
def execTdispMessage (n : Nat) (op : TdispOp) (s : State) : Host.Outcome State Fault Refusal :=
  .next (match op with
    | .start => if (s.fn n).tdi = 1 then (s.modFn n (fun f => { f with tdi := 2 })).emit (.mgmt 0x31 [n, 2]) else s.emit (.mgmt 0x3F [n])
    | .stop =>
      if (s.fn n).tdi = 0 then s.emit (.mgmt 0x3F [n])
      else
        let s1 := (s.modFn n (fun f => { f with tdi := 0 })).emit (.mgmt 0x32 [n, 0])
        if s1.confidential && s1.tenant == n then { s1 with leave := max 1 s1.leave } else s1
    | .query => s.emit (.mgmt 0x33 [n, (s.fn n).tdi])
    | .other => s.emit (.mgmt 0x3F [n]))

/-- TDI_ERROR: a locked or running interface enters ERROR, which acts as a Function Level Reset of the VF. -/
def execTdiError (n : Nat) (s : State) : Host.Outcome State Fault Refusal :=
  .next (if (s.fn n).tdi = 1 ∨ (s.fn n).tdi = 2 then ((s.modFn n (fun f => { f with tdi := 3 })).vfStop n).vfStep n else s)

/-- IDE_KM: keys of the Link IDE stream (0) and of the four Selective IDE streams (1 to 4) programmed, started and stopped (R393), in a message that the
mailbox has taken in a Secured CMA/SPDM object.
(DESIGN CHOICE: log entry 55.) -/
def execIdeKm (stream set : Nat) (op : IdeOp) (s : State) : Host.Outcome State Fault Refusal :=
  .next (if s.doe.kind ≠ some 2 then s
    else
      let s := { s with doe := { s.doe with kind := none } }
      let w := s.ide.getD stream ⟨0, []⟩
      if 4 < stream ∨ 1 < set then s.emit (.mgmt 0x4F [stream])
      else match op with
      | .prog => ({ s with ide := s.ide.set stream { w with sets := w.sets ||| 2 ^ set } }).emit (.mgmt 0x41 [stream, set])
      | .go =>
        if w.sets.testBit set then ({ s with ide := s.ide.set stream { w with sets := w.sets % 4 + 4 * 2 ^ set } }).emit (.mgmt 0x42 [stream, set])
        else s.emit (.mgmt 0x4F [stream])
      | .stop => ({ s with ide := s.ide.set stream { w with sets := 0 } }).emit (.mgmt 0x43 [stream, set]))

/-! ### Dirty-page maps (R397) -/

/-- The swap of VF n's maps: cached words written back, the maps exchanged, SWAP cleared. -/
def State.dirtySwap (s : State) (n : Nat) : State :=
  let s1 := s.dirtyFlush n
  (s1.setBit (Reg.glbDirtyCtrl n) 2 (!s1.bit (Reg.glbDirtyCtrl n) 2)).setBit (Reg.glbDirtyCtrl n) 1 false

/-- SWAP: a write of 1 to SWAP by the driver. -/
def execSwap (n : Nat) (s : State) : Host.Outcome State Fault Refusal := .next (if n = 0 ∨ 63 < n then s else s.dirtySwap n)

end Sys2Proof.Machine
end

