-- ==== Sys2Proof/Machine/Views.lean ====
section
/-! DEFINITION. What a read of a block register returns: the word that State.regs holds, with the fields that show other state put in
(the register tables of the chapters), the shadow of a staged field (Table 00-4, R12), and the COMMIT layout of Table 00-5. -/

namespace Sys2Proof.Machine

/-! ### Selected entries and COMMIT registers -/

/-- The table entry that a SEL register shows. -/
def State.platSel (s : State) : Nat := platKey (s.fieldOf Reg.prcPlatSel 3 0) (s.fieldOf Reg.prcPlatSel 33 16)
def State.erouteSel (s : State) : Nat := erouteKey (s.fieldOf Reg.dspErouteSel 3 0) (s.fieldOf Reg.dspErouteSel 27 16)
def State.bearSel (s : State) : Nat := bearKey (s.fieldOf Reg.nocBearSel 9 0) (s.fieldOf Reg.nocBearSel 25 16)
def State.cmapSel (s : State) : Nat := cmapKey (s.fieldOf Reg.memCmapSel 8 0)

/-- The key of the words behind a register: its offset, or the selected entry of a table. -/
def State.keyOf (s : State) (r : RegName) (off : Nat) : Nat :=
  match r with
  | .prcPlatEntry => s.platSel
  | .dspErouteEntry => s.erouteSel
  | .nocBearEntry => s.bearSel
  | .memCmapEntry => s.cmapSel
  | _ => off

/-- The key of a COMMIT register's state: its offset, or the group of the selected parcel or interface. -/
def State.commitKey (s : State) (r : RegName) (off : Nat) : Nat :=
  match r with
  | .prcPlatCommit => platCommit (s.fieldOf Reg.prcPlatSel 3 0)
  | .dspErouteCommit => erouteCommit (s.fieldOf Reg.dspErouteSel 3 0)
  | .nocBearCommit => bearCommit (s.fieldOf Reg.nocBearSel 9 0)
  | _ => off

/-- A COMMIT register as Table 00-5 lays it out. -/
def Commit.word (c : Commit) : Nat :=
  b2n c.pending.isSome + b2n c.discard * 2 + b2n c.pending.isSome * 4 + b2n c.rejected * 8 + c.reason % 256 * 2 ^ 8 + c.generation % 2 ^ 32 * 2 ^ 32

/-- A bearing entry in force. -/
def State.bearWord (s : State) (k : Nat) : Nat := s.bearing ((k - bearKey 0 0) / 0x400) ((k - bearKey 0 0) % 0x400)

/-- The active value of a staged word, by key.
(DESIGN CHOICE: log entries 8, 59.) -/
def State.active (s : State) (k : Nat) : Nat :=
  if bearKey 0 0 ≤ k ∧ k < cmapKey 0 then s.bearWord k
  else if cmapKey 0 ≤ k ∧ k < cmapKey 384 then (s.regs.getD k 0x1FF).toNat
  else if 2 ^ 32 ≤ k then (s.regs.getD k 0).toNat
  else (s.reg k).toNat

/-! ### Views of other state -/

/-- CMD_QUEUE_VIEW. -/
def State.queueView (s : State) : Nat :=
  match s.queues.get? (s.fieldOf Reg.cmdSel 13 0) with
  | none => 0
  | some q =>
    let st := if q.ctx ≠ 0 ∧ (s.ctxOf q.ctx).any (fun c => c.st == .lost) then 4
      else if q.ctx ≠ 0 ∧ (s.ctxOf q.ctx).any (fun c => c.st == .retiring) then 5
      else if q.dead then 3
      else match q.st with
        | .running => 1
        | .stopping => 2
        | .stopped => 3
    q.fetch % 2 ^ 32 + q.ctx % 65536 * 2 ^ 32 + st * 2 ^ 48

/-- CMD_CTX_VIEW_n: the fault record of R53 for the selected context. -/
def State.ctxView (s : State) (n : Nat) : Nat :=
  match s.ctxs.get? (s.fieldOf Reg.cmdSel 27 16) with
  | none => 0
  | some c =>
    let f := c.fault.getD ⟨0, 0, 0, 0, 0⟩
    match n with
    | 0 => (match c.st with | .live => 1 | .lost => 2 | .retiring => 3) + f.code % 256 * 2 ^ 8 + f.access % 16 * 2 ^ 16 + c.later % 2 ^ 32 * 2 ^ 32
    | 1 => f.pva % 2 ^ 52
    | 2 => f.ppa % 2 ^ 48
    | _ => f.thread % 2 ^ 32

/-- The 64 bytes of a sequence table entry (Table 06-1). -/
def Seq.word (x : Seq) : Nat :=
  ofBytes (bytesOf 1 (match x.st with | .joining => 1 | .running => 2 | .leaving => 3) ++ bytesOf 1 x.batch ++ bytesOf 1 x.shift ++
    bytesOf 1 x.parcel ++ bytesOf 4 x.cbase ++ bytesOf 4 x.max ++ bytesOf 4 x.tokens ++ bytesOf 4 x.ptokens ++ bytesOf 4 x.prompt ++
    bytesOf 4 x.backed ++ bytesOf 4 x.order ++ bytesOf 4 x.user ++ bytesOf 4 x.ctx)

/-- CAD_SEQ_VIEW_n.
(DESIGN CHOICE: log entries 104, 116.) -/
def State.seqView (s : State) (n : Nat) : Nat :=
  match s.seqs.get? (s.fieldOf Reg.cadSeqSel 13 0) with
  | some x => fld x.word (64 * n + 63) (64 * n)
  | none => 0

/-- CAD_P_STATUS_p. -/
def State.cadStatus (s : State) (p : Nat) : Nat :=
  (s.frameCount p - ((s.usedFrames p).eraseDups.filter (fun f => decide (f < s.frameCount p))).length) +
    (s.seqs.filter (fun e => e.2.parcel == p)).length * 2 ^ 32

/-- DSP_STATUS of a township. -/
def State.dspView (s : State) (t : Nat) : Nat :=
  let x := s.ship t
  let slots := ((upTo 64).map (fun k => ((s.sect (64 * t + k)).slots.filter Option.isSome).length)).sum
  (x.ledger.filter (fun e => e.2.spec)).length + x.ledger.length * 2 ^ 11 + slots * 2 ^ 24

/-- CMD_SAVE_t: ledger entries that await an answer, and the context of the image. -/
def State.saveView (s : State) (t : Nat) : Nat :=
  let x := s.ship t
  let pend := (x.returns.filter (fun e => e.2.answer.isNone)).length * 2
  match x.image with
  | some m => 1 + pend + m.ctx % 65536 * 2 ^ 16
  | none => pend

/-- Bays of sets with a pin count above zero. -/
def State.pinnedBays (s : State) : Nat :=
  (s.objs.map (fun o => match o.2.wset with | some w => if 0 < w.pins then w.bays.length else 0 | none => 0)).sum

/-- BUSY and WAITING of COH_SLICE_STAT for a slice. -/
def State.sliceView (s : State) (c : Nat) : Nat :=
  (s.dir.filter (fun e => s.channelOf (e.1 * 128) == c && e.2.txn.isSome)).length +
    ((s.waitq.filter (fun e => s.channelOf (e.1 * 128) == c)).map (fun e => e.2.length)).sum * 2 ^ 8

/-- PRC_P_STAT_p. -/
def State.parcelView (s : State) (p : Nat) : Nat :=
  match s.parcels.get? p with
  | none => 0
  | some x =>
    x.ships.length + (x.sites.map (fun n => 2 ^ n)).sum * 2 ^ 16 + (x.ships.filter (fun t => (s.ship t).leaving)).length * 2 ^ 24 +
      x.grans.length * 2 ^ 36 + (x.grans.length - (s.unmapped p x).length) * 2 ^ 48

/-- PRC_P_TSHIP_p_w. -/
def State.shipsView (s : State) (p w : Nat) : Nat :=
  match s.parcels.get? p with
  | none => 0
  | some x => ((x.ships.filter (fun t => t / 64 == w)).map (fun t => 2 ^ (t % 64))).sum

/-- PRC_EASE_e. -/
def State.easeView (s : State) (e : Nat) : Nat :=
  match s.eases.get? e with
  | none => 0
  | some x => 1 + b2n (x.wset != 0) * 2 + x.size * 2 ^ 16 + ((s.easeParcels e).map (fun p => 2 ^ p)).sum * 2 ^ 32

/-- RAS_LOG_VIEW_n of the selected record. -/
def State.logView (s : State) (n : Nat) : Nat :=
  match s.errlog.find? (fun r => r.seq == s.fieldOf Reg.rasLogSel 31 0) with
  | none => 0
  | some r => match n with
    | 0 => r.cause % 256 + r.cls % 4 * 2 ^ 8 + r.parcel % 32 * 2 ^ 16 + r.seq % 2 ^ 32 * 2 ^ 32
    | 1 => r.addr % 2 ^ 48
    | 2 => r.unit % 4096 + r.kind % 16 * 2 ^ 12 + r.detail % 2 ^ 32 * 2 ^ 16
    | _ => r.starts % 2 ^ 32

/-- RAS_POISON_VIEW: the selected entry; entries stand in ascending order of page (DESIGN CHOICE). -/
def State.poisonView (s : State) : Nat :=
  match s.poison[s.fieldOf Reg.rasPoisonSel 9 0]? with
  | none => 0
  | some (p, v) => 1 + b2n (s.bayOf (p * 65536)).isSome * 2 + b2n (v != 0) * 4 + (if s.confidential then 0 else p % 2 ^ 32 * 2 ^ 16)

/-- SEC_KEY_VIEW_0 and SEC_KEY_VIEW_1 of the selected easement. -/
def State.keyView (s : State) (n : Nat) : Nat :=
  let e := s.fieldOf Reg.secKeySel 7 0
  let c := s.keySlot e 0
  let p := s.keySlot e 1
  let ep (k : Option WKey) : Nat := (k.map (fun w => w.epoch)).getD 0
  let cf (k : Option WKey) : Nat := b2n (k.any (fun w => w.conf))
  let fl (k : Option WKey) (j : Nat) : Nat := if k.isSome then min 65535 (s.flightCount e j) else 0
  if n = 0 then ep c % 2 ^ 32 + ep p % 2 ^ 32 * 2 ^ 32
  else b2n c.isSome + b2n p.isSome * 2 + cf c * 4 + cf p * 8 + fl c 0 * 2 ^ 8 + fl p 1 * 2 ^ 24

/-- The word of a register as the hub has it now, before what the reader may see of it. -/
def State.wordOf (s : State) (r : RegName) (ix : List Nat) (off : Nat) : Nat :=
  let w := (s.reg off).toNat
  let i := ix.headD 0
  let j := ix.getD 1 0
  match r with
  | .glbId => putFld w 39 32 (s.fuseW 25)
  | .mgtDbgStat => putFld w 15 8 (min 255 (s.ships.filter (fun e => e.2.halted)).length)
  | .trnStat => putFld w 0 0 (b2n (s.bit Reg.secStatus 1 || s.bit Reg.secStatus 2))
  | .mgtFwuStat => putFld w 5 5 s.recNow.slot
  | .secSvn => s.fuseW 24 % 2 ^ 32
  | .secKeyView0 => s.keyView 0
  | .secKeyView1 => s.keyView 1
  | .lcsStatus => putFld w 6 6 (b2n s.attest.isSome)
  | .lcsFuse => s.fuseW 0 % 2 ^ 50
  | .lcsIdentity => s.fuseW (1 + i) % 2 ^ 64
  | .lcsOwner => if s.enrolled then s.ownerWord i % 2 ^ 64 else 0
  | .lcsErase => fld (s.attest.getD 0) (64 * i + 63) (64 * i)
  | .cmdQueueView => s.queueView
  | .cmdCtxView => s.ctxView i
  | .cmdSchedP => putFld w 40 32 (s.launches.filter (fun l => l.2.parcel == i && (l.2.st == .waiting || l.2.st == .restoring))).length
  | .cmdSave => s.saveView i
  | .cmdWpoolStat => putFld (putFld w 9 0 s.freeBays.length) 25 16 s.pinnedBays
  | .cadSeqView => s.seqView i
  | .cadPStatus => s.cadStatus i
  | .dspStatus => s.dspView i
  | .cohSliceStat => putFld w 15 0 (s.sliceView i)
  | .nocCnt => if j < 3 then s.routers.getD (routerKey (s.physOf i / 10, s.physOf i % 10) j) 0 else w
  | .prcStatus => putFld w 15 0 ((s.parcels.map (fun p => 2 ^ p.1)).sum)
  | .prcPStat => s.parcelView i
  | .prcPTship => s.shipsView i j
  | .prcGran => s.granOwner i
  | .prcEase => s.easeView i
  | .rasLogView => s.logView i
  | .rasPoisonStat => putFld w 10 0 s.poison.length
  | .rasPoisonView => s.poisonView
  | .pwrStatus => if s.power.samples.isEmpty then w else putFld w 47 32 (min 65535 (s.hubBudget.1 / s.hubBudget.2))
  | .pwrT => if 4 ≤ s.boot.step then putFld w 6 0 (s.islandV i) else w
  | .prcPlatEntry => s.active s.platSel
  | .dspErouteEntry => s.active s.erouteSel
  | .nocBearEntry => s.active s.bearSel
  | .memCmapEntry => s.active s.cmapSel
  | _ => w

/-- Registers that read zero through the PF while confidential mode is on (Table 17-6). -/
def confHidden (r : RegName) (ix : List Nat) : Bool :=
  match r with
  | .cmdCtxView => decide (1 ≤ ix.headD 0)
  | .cadSeqView => true
  | .dspErouteEntry => true
  | .prcPlatEntry => true
  | _ => false

/-- What a party reads at a 64-bit offset of BAR0: a COMMIT register, the shadow of a staged register where it has been written, or the
word itself; reserved offsets read as zero (R378). -/
def State.view (s : State) (p : Party) (off : Nat) : W64 :=
  match regAt? off with
  | none => 0
  | some (r, ix) =>
    if s.confidential && p == .fn 0 && confHidden r.name ix then 0
    else if r.commit then BitVec.ofNat 64 (s.commitOf (s.commitKey r.name off)).word
    else match (if r.rws = 0 then none else s.shadow.get? (s.keyOf r.name off)) with
      | some v => v
      | none => BitVec.ofNat 64 (s.wordOf r.name ix off)

/-- The transit counters in ascending order of offset: the words of a snapshot (R578). -/
def transitOffsets : List Nat :=
  let rows (n : Nat) (f : Nat → List Nat) : List Nat := ((upTo n).map f).flatten
  rows 384 (fun c => (upTo 6).map (Reg.memCnt c)) ++ rows 8 (fun n => (upTo 6).map (Reg.siteCnt n)) ++
    rows 256 (fun t => (upTo 7).map (Reg.nocCnt t)) ++ rows 256 (fun t => (upTo 6).map (Reg.cohCnt t)) ++
    rows 256 (fun t => [Reg.rasArrConflict t]) ++ rows 256 (fun t => (upTo 10).map (Reg.dspCnt t)) ++
    rows 256 (fun t => (upTo 6).map (Reg.cadCnt t))

end Sys2Proof.Machine
end

