-- ==== Sys2Proof/Machine/Manage.lean ====
section
/-! DEFINITION. Telemetry, snapshots, firmware update and debug access (chapter 22). Answers leave as management messages: the kind, and the
words of the answer. -/

namespace Sys2Proof.Machine

/-! ### Snapshots (R578, R579) -/

/-- A snapshot: every transit counter to host memory in ascending order of offset, and SNAP_SEQ one higher. -/
def State.snapshot (s : State) : State :=
  if s.confidential then s
  else
    let bs := (transitOffsets.map (fun o => bytesOf 8 (s.view .datum o).toNat)).flatten
    (s.hostPutRaw 0 (s.reg Reg.trnSnapBase).toNat bs).addWrap Reg.trnStat 63 32 1

/-- SNAP: a write of 1 to SNAP in TRN_CTRL. -/
def execSnap (s : State) : Host.Outcome State Fault Refusal :=
  .next (if s.driverRow then s.snapshot else s)

/-! ### Management bus (R575, R576) -/


/-- ENTDAA: dynamic address assignment of a target that has none. -/
def execEntdaa (addr : BitVec 7) (s : State) : Host.Outcome State Fault Refusal :=
  .next (if s.fieldOf Reg.mgtI3c 6 0 = 0 then s.setField Reg.mgtI3c 6 0 addr.toNat else s)

/-- SETAASA: a target without a dynamic address takes its static address. -/
def execSetaasa (s : State) : Host.Outcome State Fault Refusal :=
  .next (if s.fieldOf Reg.mgtI3c 6 0 = 0 then s.setField Reg.mgtI3c 6 0 0x4A else s)

/-- An MCTP answer; over I3C an in-band interrupt announces it. -/
def State.mctp (s : State) (pcie : Bool) (kind : Nat) (ws : List Nat) : State :=
  (if pcie then s else s.emit (.mgmt 0x11 [])).emit (.mgmt kind ws)

/-- MCTP_MESSAGE: the endpoint ID is assigned or asked for; SPDM over MCTP is not supported. In SCRAPPED only identity queries are
answered (R577).
(PRESUMED: log entry 50.) -/
def execMctpMessage (pcie : Bool) (m : MctpMsg) (s : State) : Host.Outcome State Fault Refusal :=
  .next (match m with
    | .setEid e =>
      if s.scrapped ∨ e < 8 ∨ 254 < e then s.mctp pcie 0x1F [e]
      else (s.setField Reg.mgtI3c 15 8 e).mctp pcie 0x10 [e]
    | .getEid => s.mctp pcie 0x12 [s.fieldOf Reg.mgtI3c 15 8]
    | .spdm => s.mctp pcie 0x1F [5]
    | .other => s.mctp pcie 0x1F [])

/-! ### Sensors (Table 22-1) -/

/-- The value of a numeric sensor; temperatures in two's complement as their source holds them. -/
def State.sensor (s : State) (id : Nat) : Option Nat :=
  if id = 1 then some (s.fieldOf Reg.pwrStatus 15 0)
  else if id = 2 then some (s.fieldOf Reg.pwrStatus 31 16)
  else if id = 3 then
    let ts := ((upTo 256).filter (fun t => !s.bit (Reg.nocCoord t) 12)).map (fun t => sextNat 16 (s.fieldOf (Reg.pwrT t) 31 16))
    some (wrap 16 (ts.foldl (fun (m : Int) v => max m v) (ts.headD 0)))
  else if 4 ≤ id ∧ id ≤ 15 then some (s.fieldOf (Reg.memStack (id - 4)) 7 0)
  else if id = 16 then some (s.fieldOf Reg.pwrStatus 55 48)
  else if id = 17 then some (s.fieldOf Reg.pwrTrvStat 2 1)
  else if id = 18 then some s.healthy
  else if id = 19 then some (s.fieldOf Reg.glbCapacity 7 0 + s.fieldOf Reg.glbCapacity 15 8)
  else none

/-- PLDM_SENSOR_READ. -/
def execPldmSensorRead (id : Nat) (s : State) : Host.Outcome State Fault Refusal :=
  .next (if s.scrapped then s.emit (.mgmt 0x5F [id])
    else match s.sensor id with
      | some v => s.emit (.mgmt 0x52 [id, v])
      | none => s.emit (.mgmt 0x5F [id]))

/-! ### Firmware update (R584 to R586) -/

/-- REQUEST_UPDATE: one update at a time; components 1 to 3 may be offered. -/
def execRequestUpdate (components : List Nat) (s : State) : Host.Outcome State Fault Refusal :=
  .next (if s.scrapped then s.emit (.mgmt 0x5F [])
    else if s.fwu.active then s.emit (.mgmt 0x5E [])
    else
      let offered := components.filter (fun c => decide (1 ≤ c) && decide (c ≤ 3))
      (({ s with fwu := ⟨true, offered, []⟩ }).setReg Reg.mgtFwuStat
        (BitVec.ofNat 64 (1 + s.fieldOf Reg.mgtFwuStat 4 3 * 8))).emit (.mgmt 0x50 offered))

/-- The slot that the record does not name, which an update writes (R585). -/
def State.newSlot (s : State) : Nat := 1 - s.recNow.slot % 2

/-- The bytes of a slot's images that the model knows, which the slot's flash range holds (R584).
(DEDUCED: log entry 84.) -/
def State.slotUsed (s : State) (slot : Nat) : Nat := ([1, 2, 3].map (fun c => (s.flash.getD (imageKey slot c) []).length)).sum

/-- REQUEST_FIRMWARE_DATA: the next bytes of an offered component's envelope, written into the slot that the record does not name; the first ones
replace what stood there. Bytes beyond the slot's range are not written.
(DEDUCED: log entry 84.) -/
def execRequestFirmwareData (component : Nat) (bytes : List Byte) (s : State) : Host.Outcome State Fault Refusal :=
  .next (if !s.fwu.active || !s.fwu.offered.contains component then s
    else
      let all := s.fwu.got.getD component [] ++ bytes
      let s1 := { s with fwu := { s.fwu with got := s.fwu.got.set component all }, flash := s.flash.set (imageKey s.newSlot component) all }
      if slotBytes < s1.slotUsed s.newSlot then s
      else s1.setField Reg.mgtFwuStat 31 8 ((s1.fwu.got.map (fun e => e.2.length)).sum / 1024))

/-- Components that an update did not offer, copied from the named slot into the other one (R585). -/
def State.copyImages (s : State) : State :=
  ([1, 2, 3].filter (fun c => !s.fwu.offered.contains c)).foldl (fun (s : State) c =>
    let old := imageKey (s.recNow.slot % 2) c
    { s with flash := s.flash.set (imageKey s.newSlot c) ((s.flash.get? old).getD (Config.image (s.recNow.slot % 2) c)) }) s

/-- ACTIVATE_FIRMWARE: the new slot completed and every image of it verified (R531). Where each is accepted, the record names the slot, PENDING is
set and the activation is by reset; otherwise FAIL is set and the named slot stays (R586). The request's flag for self-contained activation
changes nothing, since every activation is by reset.
(DEDUCED: log entry 84.) -/
def execActivateFirmware (_selfContained : Bool) (s : State) : Host.Outcome State Fault Refusal :=
  .next (if !s.fwu.active then s.emit (.mgmt 0x5F [])
    else
      let s0 := s.copyImages
      let ok := [1, 2, 3].all (fun c => s0.imageOk c (s0.flash.getD (imageKey s.newSlot c) []))
      let s1 := ({ s0 with fwu := ⟨false, [], []⟩ }).setField Reg.mgtFwuStat 2 0 0
      if ok then
        ((s1.setBit Reg.mgtFwuStat 3 true).setBit Reg.mgtFwuStat 4 false |>.recMod (fun r => { r with slot := s.newSlot })).emit (.mgmt 0x51 [0])
      else (s1.setBit Reg.mgtFwuStat 4 true).emit (.mgmt 0x51 [1]))

/-! ### Debug access (R582, R583) -/

/-- Whether the life-cycle state permits the debug of townships (Table 22-4). -/
def State.debugOpen (s : State) : Bool :=
  let st := s.fieldOf Reg.lcsStatus 2 0
  !s.confidential && !s.bit Reg.secStatus 1 && (st == 0 || st == 1 || st == 3)

/-- The bit of MGT_DBG_STAT of a path. -/
def pathBit : DebugPath → Nat
  | .port => 1
  | .window => 2

/-- DEBUG_ATTACH: a path attached opens the session; it is refused while the debug paths are closed.
(DEDUCED: log entry 84.) -/
def execDebugAttach (p : DebugPath) (s : State) : Host.Outcome State Fault Refusal :=
  .next (if s.confidential || s.bit Reg.secStatus 1 then s
    else (s.setBit Reg.mgtDbgStat (pathBit p) true).setBit Reg.mgtDbgStat 0 true)

/-- DEBUG_DETACH: the session lasts until no path is attached.
(DEDUCED: log entry 84.) -/
def execDebugDetach (p : DebugPath) (s : State) : Host.Outcome State Fault Refusal :=
  .next (let s1 := s.setBit Reg.mgtDbgStat (pathBit p) false
    s1.setBit Reg.mgtDbgStat 0 (s1.bit Reg.mgtDbgStat 1 || s1.bit Reg.mgtDbgStat 2))

/-- DEBUG_HALT: a township stops issue; everything else of it goes on. -/
def execDebugHalt (ship : Nat) (s : State) : Host.Outcome State Fault Refusal :=
  .next (if s.debugOpen && s.bit Reg.mgtDbgStat 0 && decide (ship < 256) && !s.bit (Reg.nocCoord ship) 12 then
      s.modShip ship (fun x => { x with halted := true })
    else s)

/-- DEBUG_RESUME: a halted township issues again. -/
def execDebugResume (ship : Nat) (s : State) : Host.Outcome State Fault Refusal :=
  .next (if s.debugOpen && s.bit Reg.mgtDbgStat 0 && (s.ship ship).halted then s.modShip ship (fun x => { x with halted := false }) else s)

end Sys2Proof.Machine
end

