-- ==== Sys2Proof/Machine/Registers.lean ====
section
/-! DEFINITION. Register accesses (R7 to R10, R377, R378) and staged groups: the capture, the validation and the application of a set
(R11 to R16, and the reason codes of each group's chapter). -/

namespace Sys2Proof

/-- Whether a party writes a register's fields: the fields of a register name their writer, and other parties' writes are ignored.
(DEDUCED: log entry 57.) -/
def RegOwner.is : RegOwner → Party → Bool
  | .pf, .fn 0 => true
  | .fieldCores, .fieldCores => true
  | .datum, .datum => true
  | .any, .fn n => n == 0
  | .any, .fieldCores => true
  | .any, .datum => true
  | _, _ => false

/-- The bits of a register that a party may not write although it may write others: PARCEL of DSP_EROUTE_SEL and NI of NOC_BEAR_SEL are the
field cores', and the fields of PWR_THERM_CFG and TRN_CTRL that their tables mark so are the PF's.
(DEDUCED: log entry 57.) -/
def barred (r : RegName) (p : Party) : Nat :=
  match r with
  | .dspErouteSel => if p = .fieldCores then 0 else 0xF
  | .nocBearSel => if p = .fieldCores then 0 else 0x3FF
  | .pwrThermCfg => if p = .fn 0 then 0 else 0xFFFF
  | .trnCtrl => if p = .fn 0 then 0 else 1
  | _ => 0

/-- The function behind an access. -/
def Party.fnOf : Party → Nat
  | .fn n => n
  | _ => 0

end Sys2Proof

namespace Sys2Proof.Machine

/-! ### Staged groups -/

/-- A staged group by the name and number of its COMMIT register: whether a key is one of its words. -/
def inGroup (r : RegName) (i k : Nat) : Bool :=
  let within (lo n : Nat) : Bool := decide (lo ≤ k) && decide (k < lo + n)
  match r with
  | .prcPlatCommit => within (platKey i 0) (2 ^ 18)
  | .dspErouteCommit => within (erouteKey i 0) 4096
  | .nocBearCommit => within (bearKey i 0) 1024
  | .memCmapCommit => within (cmapKey 0) 384
  | .cadPCommit => [Reg.cadPCtrl i, Reg.cadPPool i, Reg.cadPFrames i, Reg.cadPEntries i, Reg.cadPSeqs i].contains k
  | .siteCfgCommit => (upTo 8).any (fun n => k == Reg.siteCfg n)
  | .glbVfCommit => k == Reg.glbVfCfg i || k == Reg.glbVfWin i
  | .cmdFqCommit => k == Reg.cmdFqRing || k == Reg.cmdFqReply || k == Reg.cmdFqEvent
  | .cmdWpoolCommit => k == Reg.cmdWpoolCfg
  | .shrPCommit => k == Reg.shrPFlags i || (upTo 4).any (fun c => k == Reg.shrMCfg (4 * i + c) || k == Reg.shrMSlack (4 * i + c))
  | .pwrCapCommit => k == Reg.pwrCapCfg
  | _ => false

/-- The number of the group that a COMMIT register names now: its own index, or the selected parcel or interface. -/
def State.groupNo (s : State) (r : RegName) (ix : List Nat) : Nat :=
  match r with
  | .prcPlatCommit => s.fieldOf Reg.prcPlatSel 3 0
  | .dspErouteCommit => s.fieldOf Reg.dspErouteSel 3 0
  | .nocBearCommit => s.fieldOf Reg.nocBearSel 9 0
  | _ => ix.headD 0

/-- The key of a group's COMMIT state. -/
def groupKey (r : RegName) (i off : Nat) : Nat :=
  match r with
  | .prcPlatCommit => platCommit i
  | .dspErouteCommit => erouteCommit i
  | .nocBearCommit => bearCommit i
  | _ => off

/-- The active value of a word that nothing has written since the reset of its group. -/
def State.restWord (s : State) (k : Nat) : Nat := ({ s with regs := s.regs.erase k }).active k

/-- A word of a captured set. The set lists every word that its group's active and shadow sets listed at the capture (R14); any other word
stood at its reset value.
(DESIGN CHOICE: log entry 59.) -/
def State.staged (s : State) (cap : Tbl W64) (k : Nat) : Nat :=
  match cap.get? k with
  | some v => v.toNat
  | none => s.restWord k
def State.stagedF (s : State) (cap : Tbl W64) (k hi lo : Nat) : Nat := fld (s.staged cap k) hi lo

/-! ### Reasons (the lowest code that applies is reported) -/

/-- The lowest code among conditions in ascending order.
(DEDUCED: log entry 56.) -/
def firstReason (l : List (Bool × Nat)) : Option Nat := (l.find? (fun x => x.1)).map Prod.snd
/-- The lowest code among the reasons of entries.
(DEDUCED: log entry 56.) -/
def leastReason (l : List Nat) : Option Nat := l.foldl (fun (m : Option Nat) r => match m with | some x => some (min x r) | none => some r) none

/-- Whether a range of one parcel meets a range of another: both non-empty and overlapping. -/
def meets (a n b m : Nat) : Bool := decide (0 < n) && decide (0 < m) && decide (a < b + m) && decide (b < a + n)

/-- CAD_P_COMMIT (Table 06-8). -/
def State.cadReason (s : State) (p : Nat) (cap : Tbl W64) : Option Nat :=
  let code := s.stagedF cap (Reg.cadPCtrl p) 2 0
  let size := 32768 * 2 ^ code
  let pool := s.stagedF cap (Reg.cadPPool p) 47 0
  let frames := s.stagedF cap (Reg.cadPFrames p) 24 0
  let growth := s.stagedF cap (Reg.cadPFrames p) 56 32
  let eb := s.stagedF cap (Reg.cadPEntries p) 21 0
  let en := s.stagedF cap (Reg.cadPEntries p) 54 32
  let sb := s.stagedF cap (Reg.cadPSeqs p) 13 0
  let sn := s.stagedF cap (Reg.cadPSeqs p) 46 32
  let mine := s.seqs.filter (fun e => e.2.parcel == p)
  let others := (upTo 16).filter (fun q => q != p)
  let grans := if frames = 0 then [] else (upTo ((pool + frames * size - 1) / 2 ^ 30 + 1 - pool / 2 ^ 30)).map (fun k => pool / 2 ^ 30 + k)
  firstReason [
    (decide (4 < code), 1),
    (code != s.fieldOf (Reg.cadPCtrl p) 2 0 && !mine.isEmpty, 2),
    (pool % size != 0 || grans.any (fun g => !(s.platEntry p g none).testBit 0), 3),
    (decide (2 ^ 22 < eb + en) || others.any (fun q => meets eb en (s.entryBase q) (s.entryCount q)) ||
      s.cad.any (fun e => (s.seqs.get? e.2.seq).any (fun x => x.parcel == p) && !(decide (eb ≤ e.1) && decide (e.1 < eb + en))), 4),
    (decide (2 ^ 14 < sb + sn) || others.any (fun q => meets sb sn (s.seqBase q) (s.seqCount q)) ||
      mine.any (fun e => !(decide (sb ≤ e.1) && decide (e.1 < sb + sn))), 5),
    (decide (frames < growth) || (s.usedFrames p).any (fun f => decide (frames ≤ f)), 6)]

/-- MEM_CMAP_COMMIT (Table 10-6); a commit outside its time is rejected for that, whatever the set holds (R290). -/
def State.cmapReason (s : State) (cap : Tbl W64) : Option Nat :=
  let slots := (upTo 384).map (fun k => s.stagedF cap (cmapKey k) 8 0)
  let used := slots.filter (fun c => c != 0x1FF)
  let healthy := (upTo 384).filter (fun c => !s.bit (Reg.memCh c) 2)
  firstReason [
    (s.boot.step == 0 || decide (7 ≤ s.boot.step), 3),
    (used.any (fun c => decide (383 < c)) || used.eraseDups.length != used.length, 1),
    (healthy.any (fun c => !(slots.take healthy.length).contains c) || used.any (fun c => !healthy.contains c), 2)]

/-- SITE_CFG_COMMIT (Table 11-4). -/
def State.siteReason (s : State) (cap : Tbl W64) : Option Nat :=
  let c (n : Nat) : Nat := s.staged cap (Reg.siteCfg n)
  let bn (n : Nat) : Bool := (c n).testBit 4
  let bs (n : Nat) : Bool := (c n).testBit 5
  let any (f : Nat → Bool) : Bool := (upTo 8).any f
  let home (n : Nat) : Nat := 8 - 2 * b2n (n % 4 != 0 && bs (n - 1)) - 2 * b2n (n % 4 != 3 && bn (n + 1))
  let bad (n : Nat) : Bool :=
    let w := fld (c n) 3 1
    let k := b2n (bn n) + b2n (bs n)
    if w = 0 then decide (0 < k)
    else if w ≤ 3 then !([4, 6, 8].contains (home n))
    else if w = 4 then home n != 8 || k != 0
    else if w = 5 then home n != 8 || k != 1
    else home n != 8 || k != 2
  firstReason [
    (any (fun n => fld (c n) 3 1 == 7 || decide (70 < fld (c n) 14 8)), 1),
    (any (fun n => (bn n && n % 4 == 0) || (bs n && n % 4 == 3)), 2),
    (any (fun n => n % 4 != 3 && bs n && bn (n + 1)), 3),
    (any bad, 4),
    (any (fun n => fld (c n) 20 16 == 0 || decide (30 < fld (c n) 20 16)), 5),
    (any (fun n => (c n).testBit 7 || (c n).testBit 15 || fld (c n) 63 21 != 0), 6)]

/-- GLB_VF_COMMIT_n (Table 13-6, R394). -/
def State.vfReason (s : State) (n : Nat) (cap : Tbl W64) : Option Nat :=
  let c := s.staged cap (Reg.glbVfCfg n)
  firstReason [
    (c.testBit 4 && !s.parcels.has (fld c 3 0), 1),
    ((fld c 4 0 != s.fieldOf (Reg.glbVfCfg n) 4 0 && s.ctxs.any (fun e => e.2.fn == n)) || (s.fn n).tdi == 1 || (s.fn n).tdi == 2, 2),
    ((c.testBit 4 && fld c 28 16 == 0) || decide (4096 < fld c 28 16) || decide (16384 < fld c 46 32) || decide (16 < fld c 52 48), 3)]

/-- The function queue of the PF. -/
def State.pfQueue (s : State) : Option (Nat × Queue) := s.queues.find? (fun e => e.2.ctx == 0 && e.2.fn == 0)

/-- CMD_FQ_COMMIT. -/
def State.fqReason (s : State) (cap : Tbl W64) : Option Nat :=
  let a := s.stagedF cap Reg.cmdFqRing 3 0
  let e := s.stagedF cap Reg.cmdFqEvent 4 0
  firstReason [
    ((a != 0 && decide (a < 4)) || (e != 0 && (decide (e < 4) || decide (16 < e))), 1),
    (match s.pfQueue with | some x => decide (0 < x.2.uncompleted) | none => false, 2)]

/-- CMD_WPOOL_COMMIT (Table 15-8). -/
def State.wpoolReason (s : State) (cap : Tbl W64) : Option Nat :=
  let b := s.stagedF cap Reg.cmdWpoolCfg 9 0
  let n := s.stagedF cap Reg.cmdWpoolCfg 25 16
  firstReason [
    (decide (0 < n) && (decide (2 * s.healthy - 8 < b + n) || (upTo n).any (fun k => decide (s.granOwner (b + k) < 16))), 1),
    (s.staged cap Reg.cmdWpoolCfg != (s.reg Reg.cmdWpoolCfg).toNat &&
      s.objs.any (fun o => o.2.wset.any (fun w => w.resident || w.loading)), 2)]

/-- SHR_P_COMMIT_p. -/
def State.shareReason (s : State) (p : Nat) (cap : Tbl W64) : Option Nat :=
  let cfg (m : Nat) : Nat := if m / 4 = p then s.staged cap (Reg.shrMCfg m) else s.active (Reg.shrMCfg m)
  let ms := (upTo 4).map (fun c => 4 * p + c)
  let sum := (s.parcels.map (fun e => ((upTo 4).map (fun c => fld (cfg (4 * e.1 + c)) 24 16)).sum)).sum
  let ways := (ms.map (fun m => fld (cfg m) 56 48)).sum
  firstReason [
    (ms.any (fun m => decide (fld (cfg m) 8 0 < fld (cfg m) 24 16) || decide (fld (cfg m) 40 32 < fld (cfg m) 56 48) ||
      decide (256 < fld (cfg m) 8 0) || decide (256 < fld (cfg m) 40 32)), 1),
    (!(s.staged cap (Reg.shrPFlags p)).testBit 0 && (decide (256 < sum) || decide (256 < ways)), 2)]

/-- PWR_CAP_COMMIT. -/
def State.capReason (s : State) (cap : Tbl W64) : Option Nat :=
  let h := s.stagedF cap Reg.pwrCapCfg 15 0
  let m := s.stagedF cap Reg.pwrCapCfg 31 16
  firstReason [
    (decide (h < 1700) || decide (3600 < h) || decide (m < 1700) || decide (6000 < m) || decide (70 < s.stagedF cap Reg.pwrCapCfg 41 32), 1),
    (decide (m < h), 2)]

/-- A bearing entry of an interface for a destination (Table 09-9). -/
def State.bearReason (s : State) (ni d e : Nat) : Option Nat :=
  let r := fld e 15 0
  let b := fld e 31 16
  let at_ (w : Nat) : Nat × Nat := (fld w 4 0, fld w 8 5)
  let mode (w : Nat) : Nat := fld w 12 11
  let lane (w : Nat) : Nat := fld w 15 13
  let ends (w : Nat) : Bool := (s.places d).contains (at_ w) && fld w 10 9 == portOf d
  let off (w : Nat) : Bool := (mode w == 2 && ((s.places ni).any (fun p => p.1 == fld w 4 0))) || (lane w != 0 && mode w != 2)
  let time (w : Nat) : Nat := (((s.places ni).head?).map (fun p => routeTime (mode w) (lane w) p (at_ w))).getD 0
  let v := e.testBit 32
  firstReason [
    (v && s.present d && !(ends r && ends b), 1),
    (v && mode b == 2, 2),
    (v && (off r || off b), 3),
    (v && s.present d && (fld e 39 34 != time r || fld e 45 40 != time b), 4),
    (v != s.present d, 5),
    (e.testBit 33 || fld e 63 46 != 0, 6)]

/-- DSP_EROUTE_COMMIT and PRC_PLAT_COMMIT: every entry of the set. -/
def State.groupKeys (s : State) (r : RegName) (i : Nat) (cap : Tbl W64) : List Nat :=
  ((s.regs.filter (fun e => inGroup r i e.1)).map Prod.fst ++ cap.keys).eraseDups

/-- The reason of a plat entry: of the entry itself, or of the change (REASON 0x05 and 0x06 of Table 16-10). -/
def State.platReason (s : State) (p k : Nat) (cap : Tbl W64) : Option Nat :=
  let g := k - platKey p 0
  let new := s.staged cap k
  let old := s.active k
  let ease (e : Nat) : Bool := e.testBit 0 && fld e 2 1 == 1
  match s.platBad p new with
  | some r => some r
  | none =>
    if new = old then none
    else firstReason [(ease new || ease old, 5), (s.poolBusy p g 1, 6)]

/-- Why a captured set is rejected, if it is.
(DEDUCED: log entry 56.) -/
def State.reason (s : State) (r : RegName) (i : Nat) (cap : Tbl W64) : Option Nat :=
  match r with
  | .cadPCommit => s.cadReason i cap
  | .memCmapCommit => s.cmapReason cap
  | .siteCfgCommit => s.siteReason cap
  | .glbVfCommit => s.vfReason i cap
  | .cmdFqCommit => s.fqReason cap
  | .cmdWpoolCommit => s.wpoolReason cap
  | .shrPCommit => s.shareReason i cap
  | .pwrCapCommit => s.capReason cap
  | .nocBearCommit => leastReason ((upTo 1024).filterMap (fun d => s.bearReason i d (s.staged cap (bearKey i d))))
  | .dspErouteCommit => leastReason ((s.groupKeys r i cap).filterMap (fun k => s.erouteBad i (s.staged cap k)))
  | .prcPlatCommit => leastReason ((s.groupKeys r i cap).filterMap (fun k => s.platReason i k cap))
  | _ => none

/-! ### The COMMIT register (R13, R14) -/

/-- The shadow of a group reloaded from its active set. -/
def State.discardSet (s : State) (r : RegName) (i : Nat) : State := { s with shadow := s.shadow.keep (fun k _ => !inGroup r i k) }

/-- The whole shadow set of a group at this instant: the words written since the last application, and the active value of the rest.
(DESIGN CHOICE: log entry 59.) -/
def State.capture (s : State) (r : RegName) (i : Nat) : Tbl W64 :=
  let mine := s.shadow.keep (fun k _ => inGroup r i k)
  let ks := (s.groupKeys r i mine ++ (if r = .nocBearCommit then (upTo 1024).map (bearKey i) else [])).eraseDups
  ks.foldl (fun m k => m.set k (match mine.get? k with | some v => v | none => BitVec.ofNat 64 (s.active k))) []

/-- APPLY: the shadow set captured, unless a set is pending. -/
def State.applyBit (s : State) (r : RegName) (i key : Nat) : State :=
  let c := s.commitOf key
  if c.pending.isSome then s else s.setCommit key { c with pending := some (s.capture r i) }

/-- DISCARD: at once, or after the application that is pending. -/
def State.discardBit (s : State) (r : RegName) (i key : Nat) : State :=
  let c := s.commitOf key
  if c.pending.isSome then s.setCommit key { c with discard := true } else s.discardSet r i

/-- REJECTED cleared, with REASON. -/
def State.rejectedBit (s : State) (key : Nat) : State := s.setCommit key { (s.commitOf key) with rejected := false, reason := 0 }

/-- A write of a COMMIT register: APPLY before DISCARD (R14). Where the write carries REJECTED as well, REJECTED clears first.
(DESIGN CHOICE: log entry 93.) -/
def State.commitWrite (s : State) (r : RegName) (i key v : Nat) : State :=
  let s1 := if v.testBit 3 then s.rejectedBit key else s
  let s2 := if v.testBit 0 then s1.applyBit r i key else s1
  if v.testBit 1 then s2.discardBit r i key else s2

/-! ### Application (R11, R12) -/

/-- The PF's function queue set up by an applied set: it starts with fetch index 0 in slot 0 of group 0; LOG2 0 means none. -/
def State.fqStart (s : State) : State :=
  let log2 := s.fieldOf Reg.cmdFqRing 3 0
  let k := match s.pfQueue with | some x => x.1 | none => s.queues.freeKey 16384
  let elog := s.fieldOf Reg.cmdFqEvent 4 0
  let s1 := if log2 = 0 then { s with queues := s.queues.erase k }
    else { s with
      groups := s.groups.set 0 ⟨0, 0⟩
      queues := s.queues.set k (Queue.blank 0 0 0 0 log2 (s.fieldOf Reg.cmdFqRing 63 12 * 4096) (s.fieldOf Reg.cmdFqReply 63 12 * 4096)) }
  { s1 with fnEvents := if elog = 0 then s1.fnEvents.erase 0 else s1.fnEvents.set 0 ⟨s.fieldOf Reg.cmdFqEvent 63 12 * 4096, elog, 0⟩ }

/-- What an applied set does beside taking the place of the old one.
(DEDUCED: log entry 60.) -/
def State.afterApply (s : State) (r : RegName) : State :=
  match r with
  | .cmdFqCommit => s.fqStart
  | .shrPCommit => s.reShare
  | .siteCfgCommit => s.recMod (fun b => { b with cfg := (upTo 8).foldl (fun (m : Tbl Nat) n => m.set n (s.reg (Reg.siteCfg n)).toNat) [] })
  | _ => s

/-- The end of an application: PENDING falls, and a DISCARD that waited takes effect. -/
def State.endCommit (s : State) (r : RegName) (i key : Nat) : State :=
  let c := s.commitOf key
  let s1 := s.setCommit key { c with pending := none, discard := false }
  if c.discard then s1.discardSet r i else s1

/-- Whether the packets of an interface, the streams of a parcel or the copies of a parcel that a set has admitted are still on their way.
(DEDUCED: log entry 94.) -/
def State.bearingBusy (s : State) (ni : Nat) : Bool := s.net.any (fun m => m.src.ep == ni) || s.toks.any (fun m => m.src.ep == ni)
/-- DEDUCED: log entry 94. -/
def State.streamsBusy (s : State) (p : Nat) : Bool :=
  s.ships.any (fun e => s.parcelOfShip e.1 == some p && !e.2.running.isEmpty)
/-- DEDUCED: log entry 94. -/
def State.copiesBusy (s : State) (p : Nat) : Bool :=
  s.ships.any (fun e => s.parcelOfShip e.1 == some p && !e.2.ledger.isEmpty)

/-- Whether a group's active set has admitted requests that are not complete (R11): the translated accesses of a plat's parcel, the copies
that a parcel's expert routes placed, the packets that an interface's bearing table sent, the gather streams that read a parcel's pool,
and a parcel's requests at the home slices. The other groups act only in commands that complete in one step.
(DEDUCED: log entry 94.) -/
def State.admitted (s : State) (r : RegName) (i : Nat) : Bool :=
  match r with
  | .prcPlatCommit => !(s.openIds (fun a => a.tag == i)).isEmpty
  | .dspErouteCommit => s.copiesBusy i
  | .nocBearCommit => s.bearingBusy i
  | .cadPCommit => s.streamsBusy i
  | .shrPCommit => s.shareBusy i
  | _ => false

/-- The end of a plat set that is in force: every XINVACK has come, no cache holds an old entry, and the accesses that may have used one
are complete (R464).
(DEDUCED: log entry 58.) -/
def State.platCommitEnd (s : State) (i key : Nat) : State :=
  if !s.xinvIdle i then s
  else
    let c := s.commitOf key
    let ids := match c.made with | some (true, l) => s.stillOpen l | _ => s.openIds (fun a => a.tag == i)
    let s1 := s.platDone i
    if ids.isEmpty then (s1.setCommit key { c with made := none }).endCommit .prcPlatCommit i key
    else s1.setCommit key { c with made := some (true, ids) }

/-- A captured set in force: its words, and the reset value of every word of the group that it does not hold. -/
def State.capWords (s : State) (r : RegName) (i : Nat) (cap : Tbl W64) : List (Nat × Nat) :=
  (s.groupKeys r i cap).map (fun k => (k, s.staged cap k))

/-- A captured set validated, and applied at one instant or rejected. A plat's change completes later (R464).
(DEDUCED: log entry 58.) -/
def State.commitDone (s : State) (r : RegName) (i key : Nat) (cap : Tbl W64) : State :=
  if (s.commitOf key).made.isSome then s.platCommitEnd i key
  else match s.reason r i cap with
    | some x => (s.setCommit key { (s.commitOf key) with rejected := true, reason := x }).endCommit r i key
    | none =>
      if s.admitted r i then s
      else
        let keep := s.shadow.keep (fun k v => cap.get? k != some v)
        let vals := s.capWords r i cap
        if r = .prcPlatCommit then
          let new := vals.filter (fun e => s.active e.1 != e.2)
          let s1 := { (s.platPut i (new.map (fun e => (e.1 - platKey i 0, e.2)))) with shadow := keep }
          let s2 := s1.platXinv i
          (s2.setCommit key { (s2.commitOf key) with made := some (false, []) }).platCommitEnd i key
        else
          let s1 := { (s.putActive vals) with shadow := keep }
          ((s1.applied key).afterApply r).endCommit r i key

/-! ### Who may write, and where (R15, R377, R514) -/

/-- A COMMIT register named by its offset, written by its owner. -/
def State.onCommit (s : State) (p : Party) (off : Nat) (f : RegName → Nat → Nat → State) : State :=
  match regAt? off with
  | some (r, ix) =>
    if r.commit && r.owner.is p && s.served p off then
      let i := s.groupNo r.name ix
      f r.name i (groupKey r.name i off)
    else s
  | none => s

/-- COMMIT_APPLY: a write of 1 to APPLY. -/
def execCommitApply (p : Party) (off : Nat) (s : State) : Host.Outcome State Fault Refusal :=
  .next (s.onCommit p off (fun r i key => s.applyBit r i key))

/-- COMMIT_DISCARD: a write of 1 to DISCARD. -/
def execCommitDiscard (p : Party) (off : Nat) (s : State) : Host.Outcome State Fault Refusal :=
  .next (s.onCommit p off (fun r i key => s.discardBit r i key))

/-- COMMIT_REJECTED_CLEAR: a write of 1 to REJECTED. -/
def execCommitRejectedClear (p : Party) (off : Nat) (s : State) : Host.Outcome State Fault Refusal :=
  .next (s.onCommit p off (fun _ _ key => s.rejectedBit key))

/-- The EROUTE_SET commands of a parcel whose set has been applied or rejected complete.
(DESIGN CHOICE: log entry 30.) -/
def State.erouteEnd (s : State) (p : Nat) (done : Commit) : State :=
  if (s.commitOf (erouteCommit p)).pending.isSome then s
  else s.queues.foldl (fun s e => e.2.cmds.foldl (fun s x => match x.2.st with
    | .serving d =>
      if d.headD 0 = 0xF032 ∧ d.getD 1 16 = p ∧ x.2.opcode = 0x079 then
        s.answer e.1 x.1 (if done.rejected then ⟨0x11, 0x80000000 + done.reason, 0⟩ else okAnswer)
      else s
    | _ => s) s) s

/-- The state of an expert route commit whose latest outcome is a rejection, seen from a commit that had none. -/
def State.outcome (old s : State) (key : Nat) : Commit :=
  let c := s.commitOf key
  { c with rejected := c.rejected && c.generation == (old.commitOf key).generation }

/-- COMMIT_APPLIED: the validation of a pending set of a group ends. -/
def execCommitApplied (off group : Nat) (s : State) : Host.Outcome State Fault Refusal :=
  .next (match regAt? off with
    | some (r, ix) =>
      if r.commit then
        let i := if groupKey r.name group off = off then ix.headD 0 else group
        let key := groupKey r.name i off
        match (s.commitOf key).pending with
        | some cap =>
          let s1 := s.commitDone r.name i key cap
          if r.name = .dspErouteCommit then s1.erouteEnd i (s.outcome s1 key) else s1
        | none => s
      else s
    | none => s)

/-- EROUTE_SET: the entries that the command's parameters name, whose packet layout the spec does not give: the command carries the parcel
and the entries. The field cores write them into the parcel's shadow table and commit it with APPLY and DISCARD (R14); the
command completes when the set is applied or rejected (R146, R147). The parcel of a VF's queue is the VF's own (R502).
(DESIGN CHOICE: log entry 30.) -/
def execErouteSet (q i parcel : Nat) (entries : List (Nat × Nat)) (s : State) : Host.Outcome State Fault Refusal :=
  .next (s.serve q i 0x079 (fun r =>
    let p := if r.fn = 0 then parcel else s.vfParcel r.fn
    let key := erouteCommit p
    if s.confidential ∧ r.fn = 0 then s.reply r denyConf
    else if !s.parcels.has p then s.reply r (noObject 8)
    else if (s.commitOf key).pending.isSome then s
    else
      let new := (entries.filter (fun e => decide (e.1 < 4096))).foldl (fun (m : Tbl W64) e => m.set (erouteKey p e.1) (BitVec.ofNat 64 e.2)) s.shadow
      let s1 := (({ s with shadow := new }).applyBit .dspErouteCommit p key).discardBit .dspErouteCommit p key
      s1.keepServing r [0xF032, p]))

/-! ### Writes -/

/-- Bits of a mask replaced. -/
def maskPut (old mask v : Nat) : Nat := (old &&& (2 ^ 64 - 1 - mask)) ||| (v &&& mask)

/-- The RW fields of a register that ignore writes for now: of the trace while it is enabled (R580), of dirty logging while it is on and
ENABLE while the interface is locked or running (R394, R398), of trace while it is closed (R581). -/
def State.lockedBits (s : State) (r : RegName) (ix : List Nat) : Nat :=
  let n := ix.headD 0
  let logging := s.bit (Reg.glbDirtyCtrl n) 0
  let tdi := (s.fn n).tdi
  match r with
  | .trnCtrl => (if s.bit Reg.trnCtrl 0 then 0x1F00 else 0) + (if s.debugOpen then 0 else 1)
  | .trnFilter => if s.bit Reg.trnCtrl 0 then 2 ^ 64 - 1 else 0
  | .trnBufBase => if s.bit Reg.trnCtrl 0 then 2 ^ 64 - 1 else 0
  | .glbDirtyCtrl => (if logging then (2 ^ 32 - 1) * 2 ^ 32 else 0) + (if tdi = 1 ∨ tdi = 2 then 1 else 0)
  | .glbDirtyBase => if logging then 2 ^ 64 - 1 else 0
  | .glbDirtyMapA => if logging then 2 ^ 64 - 1 else 0
  | .glbDirtyMapB => if logging then 2 ^ 64 - 1 else 0
  | _ => 0

/-- The outcome of a meaning as a state; every meaning here goes on. -/
def stateOf (s : State) : Host.Outcome State Fault Refusal → State
  | .next t => t
  | _ => s

/-- What the W1S and WO fields of a register do when they are written with 1, or with a value. -/
def State.triggers (s : State) (r : RegName) (ix : List Nat) (v : Nat) : State :=
  let n := ix.headD 0
  match r with
  | .siteCtrl => if v.testBit 0 then s.restartSite n else s
  | .lcsNonceCtrl => if v.testBit 0 then s.newNonce else s
  | .memCh =>
    let s1 := if v.testBit 3 then s.mapoutNext n else s
    if v.testBit 4 then stateOf s1 (execRetrain n s1) else s1
  | .cohAtomCtrl => if v.testBit 2 then stateOf s (execAtomClear n s) else s
  | .dspPredCtrl => if v.testBit 3 then stateOf s (execPredClear n s) else s
  | .glbBootCtrl => s.bootCtrl v
  | .trnCtrl => if v.testBit 1 then s.snapshot else s
  | .glbDirtyCtrl => if v.testBit 1 then s.dirtySwap n else s
  | .rasPoisonClear => if fld v 47 16 = 0 ∧ !s.poison.has 0 then s else stateOf s (execPoisonClear (fld v 47 16) s)
  | _ => s

/-- Trace as its ENABLE is written: SEQ counts from the rise. -/
def State.traceEdge (old s : State) : State :=
  if s.bit Reg.trnCtrl 0 && !old.bit Reg.trnCtrl 0 then { s with traceSeq := 0 } else s

/-- A write of the bits in `mask` of a register without a COMMIT layout: RW fields take effect, RWS fields go to the shadow, W1C fields
clear (Table 00-4). -/
def State.regWrite (s : State) (r : RegSpec) (ix : List Nat) (off mask v : Nat) : State :=
  if r.name = .pwrTrvCfg then s.trvWrite (maskPut (s.reg off).toNat mask v)
  else
    let rw := (r.rw &&& mask) &&& (2 ^ 64 - 1 - s.lockedBits r.name ix)
    let w := (s.reg off).toNat
    let w1 := maskPut w rw v
    let w2 := w1 &&& (2 ^ 64 - 1 - (v &&& (r.w1c &&& mask)))
    let s1 := if w2 = w then s else s.setReg off (BitVec.ofNat 64 w2)
    let k := s.keyOf r.name off
    let s2 := if r.rws = 0 then s1 else
      { s1 with shadow := s1.shadow.set k (BitVec.ofNat 64 (maskPut (match s.shadow.get? k with | some x => x.toNat | none => s.active k) (r.rws &&& mask) v)) }
    s.traceEdge (s2.triggers r.name ix (v &&& mask))

/-- The MSI-X table and PBA of a function: the word at an offset of its BAR0 (Table 13-4, Table 13-5). -/
def msixAt (n off : Nat) : Option (Nat × Nat) :=
  if n = 0 then (if 0x3000000 ≤ off ∧ off < 0x3008000 then some ((off - 0x3000000) / 16, off % 16 / 8) else none)
  else if 0x8000 ≤ off ∧ off < 0x8400 then some ((off - 0x8000) / 16, off % 16 / 8) else none

/-- A word of an MSI-X table entry written; entries start masked.
(PRESUMED: log entry 49.) -/
def State.msixWrite (s : State) (n v w mask x : Nat) : State :=
  let old := (s.regs.getD (msixKey n v w) (if w = 1 then BitVec.ofNat 64 (2 ^ 32) else 0)).toNat
  (s.setReg (msixKey n v w) (BitVec.ofNat 64 (maskPut old mask x))).unmask n v

/-- The bits and the value of an access of a size at an offset within its 64-bit word (R10). -/
def accMask (off size : Nat) : Nat := if size = 8 then 2 ^ 64 - 1 else (2 ^ 32 - 1) * 2 ^ (32 * (off / 4 % 2))
def accValue (off size v : Nat) : Nat := if size = 8 then v % 2 ^ 64 else v % 2 ^ 32 * 2 ^ (32 * (off / 4 % 2))

/-- A write by a party other than a VF, to a register that it may write. -/
def State.blockWrite (s : State) (p : Party) (off mask x : Nat) : State :=
  match regAt? off with
  | none => s
  | some (r, ix) =>
    if !r.owner.is p then s
    else if r.commit then
      let i := s.groupNo r.name ix
      s.commitWrite r.name i (groupKey r.name i off) (x &&& mask)
    else s.regWrite r ix off (mask &&& (2 ^ 64 - 1 - barred r.name p)) x

/-- REGISTER_WRITE: a write of 4 or 8 bytes to BAR0 by a function or one of the hub's own parties. `tee` says that it came on the
function's IDE stream with T set. -/
def State.write (s : State) (p : Party) (off size v : Nat) : State :=
  let at_ := off - off % 8
  let mask := accMask off size
  let x := accValue off size v
  if !s.served p off then s
  else match p with
    | .fn 0 =>
      (match msixAt 0 off with
       | some (k, w) => s.msixWrite 0 k w mask x
       | none => s.blockWrite p at_ mask x)
    | .fn n => (match msixAt n off with
       | some (k, w) => s.msixWrite n k w mask x
       | none => s)
    | _ => s.blockWrite p at_ mask x

/-- DEDUCED: log entry 57. -/
def execRegisterWrite (p : Party) (off size : Nat) (value : W64) (tee : Bool) (s : State) : Host.Outcome State Fault Refusal :=
  .next (if !s.barOpen p.fnOf tee then s
    else if badSize off size false then s.badAccess off true
    else s.write p off size value.toNat)

/-! ### Reads -/

/-- A word of a VF's BAR0 (Table 13-5, VF_STATUS). -/
def State.vfWord (s : State) (n off : Nat) : W64 :=
  if off = 0 then BitVec.ofNat 64 (putFld (s.view .datum Reg.glbId).toNat 31 16 0x1401)
  else if off = 8 then BitVec.ofNat 64 (s.fieldOf Reg.glbStatus 0 0 + b2n (s.vfBound n) * 2 + s.vfParcel n * 4 + (s.fn n).tdi % 4 * 64)
  else if off = 0x8400 then s.regs.getD (pbaKey n 0) 0
  else match msixAt n off with
    | some (v, w) => s.regs.getD (msixKey n v w) (if w = 1 then BitVec.ofNat 64 (2 ^ 32) else 0)
    | none => 0

/-- The word that a party reads at an 8-byte offset of BAR0. -/
def State.readWord (s : State) (p : Party) (off : Nat) : W64 :=
  if !s.served p off then 0
  else match p with
    | .fn 0 => (match msixAt 0 off with
      | some (v, w) => s.regs.getD (msixKey 0 v w) (if w = 1 then BitVec.ofNat 64 (2 ^ 32) else 0)
      | none => if 0x3008000 ≤ off ∧ off < 0x3008100 then s.regs.getD off 0 else s.view p off)
    | .fn n => s.vfWord n off
    | _ => s.view p off

/-- The RC fields that an access reads, cleared (Table 00-4).
(DEDUCED: log entry 57.) -/
def State.readClear (s : State) (p : Party) (off mask : Nat) : State :=
  match regAt? off with
  | some (r, _) =>
    if r.rc &&& mask = 0 ∨ !s.served p off ∨ !RegOwner.any.is p then s
    else s.setReg off (BitVec.ofNat 64 ((s.reg off).toNat &&& (2 ^ 64 - 1 - (r.rc &&& mask))))
  | none => s

/-- A read of a function's doorbell BAR: the current tail of the queue of the doorbell, zero where there is none (R385), and zero before
READY (R377). -/
def State.doorbellRead (s : State) (n off : Nat) : W64 :=
  if !s.bit Reg.glbStatus 0 then 0
  else match (s.doorbellOf n (off / 4096) (off % 4096 / 8)).bind s.queues.get? with
    | some x => if off % 4096 < 128 then BitVec.ofNat 64 x.tail else 0
    | none => 0

/-- The half or the whole of a 64-bit word that an access reads. -/
def accRead (off size : Nat) (w : W64) : W64 := if size = 8 then w else BitVec.ofNat 64 (w.toNat / 2 ^ (32 * (off / 4 % 2)) % 2 ^ 32)

/-- Whether a read of a register waits for a slice: it shows a table in reserved HBM whose channel is in one (R306). -/
def State.viewHeld (s : State) (p : Party) (off : Nat) : Bool :=
  match p, regAt? off with
  | .fn n, some (r, _) => n == 0 && r.name == .cadSeqView && s.served p off && s.channelHeld (s.channelOf (s.rsv (seqOff (s.fieldOf Reg.cadSeqSel 13 0))))
  | _, _ => false

/-- RC_READ: a read of 4 or 8 bytes of BAR0; its RC fields return their value and clear to zero. With `bar2`, the read is of the doorbell
BAR. One of a table in HBM waits for the end of its channel's slice (R306). -/
def execRcRead (p : Party) (off size : Nat) (tee bar2 : Bool) (s : State) : Host.Outcome State Fault Refusal :=
  .next (if !s.barOpen p.fnOf tee then s.emit (.completion p.fnOf 1 [])
    else if bar2 then s.emit (.regValue off (accRead off size (s.doorbellRead p.fnOf (off - off % 8))))
    else if badSize off size false then s.badAccess off false
    else if s.viewHeld p (off - off % 8) then { s with hostHeld := s.hostHeld ++ [.rcRead p off size tee bar2] }
    else (s.readClear p (off - off % 8) (accMask off size)).emit (.regValue off (accRead off size (s.readWord p (off - off % 8)))))

end Sys2Proof.Machine
end

