-- ==== Sys2Proof/Machine/Retrain.lean ====
section
/-! DEFINITION. The end of a retraining slice and the failure of a channel: what waited for the channel goes on in the order of its arrival (R302,
R303, R305, R306). -/

namespace Sys2Proof.Machine

/-- The hold store of a channel served in arrival order, then whatever else waits at the home slice (R303). -/
def State.serveHold (s : State) (c : Nat) : State :=
  let s1 := s.retrain.hold.foldl (fun s l => (s.serveNext l).2) { s with retrain := { s.retrain with hold := [], wbuf := [] } }
  s1.serveWhere (fun l => s.channelOf (l * 128) == c)

/-- The requests that interfaces kept at their source injected, in order (R302). -/
def State.releaseSource (s : State) : State :=
  s.retrain.source.foldl (fun s m => s.inject m) { s with retrain := { s.retrain with source := [] } }

/-- A host access that waited for a slice made (R305, R306). -/
def State.hostAgain (s : State) (i : Instr) : State :=
  match i with
  | .bar4Read n off len tee => stateOf s (execBar4Read n off len tee s)
  | .bar4Write n off bytes tee => stateOf s (execBar4Write n off bytes tee s)
  | .rcRead p off size tee bar2 => stateOf s (execRcRead p off size tee bar2 s)
  | _ => s

/-- What the slice of a channel held goes on: its hold store, the requests at their sources, and the host's accesses. -/
def State.releaseSlice (s : State) (c : Nat) : State :=
  let s1 := (s.serveHold c).releaseSource
  s1.hostHeld.foldl (fun s i => s.hostAgain i) { s1 with hostHeld := [] }

/-- CHANNEL_FAILED: the PHY of a channel in service loses lock. -/
def execChannelFailed (channel : Nat) (s : State) : Host.Outcome State Fault Refusal :=
  .next (if 384 ≤ channel || decide (3 ≤ s.fieldOf (Reg.memCh channel) 2 0) then s
    else if s.channelHeld channel then ((s.channelFail channel).setBit Reg.memRetrainStat 9 false).releaseSlice channel
    else s.channelFail channel)

/-- A channel trained: the temperature of its stack is kept for DRIFT (R300), and a retraining that the driver asked for meanwhile waits its turn. -/
def State.trained (s : State) (c : Nat) : State :=
  let s1 := { s with retrain := { s.retrain with phase := s.retrain.phase.erase c, temps := s.retrain.temps.set c (s.fieldOf (Reg.memStack (c / 32)) 7 0) } }
  let s2 := s1.setField (Reg.memCh c) 2 0 0
  if s2.bit (Reg.memCh c) 4 then s2.askRetrain c else s2

/-- SLICE_END: the phase of the slice in progress is kept, or discarded to be repeated; a channel whose phase fails three times in a row becomes FAILED
(R303). -/
def execSliceEnd (kept : Bool) (s : State) : Host.Outcome State Fault Refusal :=
  .next (if !s.bit Reg.memRetrainStat 9 then s
    else
      let c := s.fieldOf Reg.memRetrainStat 8 0
      let ph := s.retrain.phase.getD c 0
      let s1 := (s.setBit Reg.memRetrainStat 9 false).trace 4 1 (c / 2) (bytesOf 4 c ++ bytesOf 4 ph ++ bytesOf 4 (b2n kept))
      let s2 :=
        if kept then
          let s2 := s1.setField (Reg.memCh c) 35 32 0
          if ph = 3 then s2.trained c
          else ({ s2 with retrain := { s2.retrain with phase := s2.retrain.phase.set c (ph + 1) } }).setField (Reg.memCh c) 2 0 1
        else
          let s2 := s1.addSat (Reg.memCh c) 35 32 1
          if 3 ≤ s2.fieldOf (Reg.memCh c) 35 32 then s2.channelFail c else s2.setField (Reg.memCh c) 2 0 1
      s2.releaseSlice c)

end Sys2Proof.Machine
end

