-- ==== Sys2Proof/Machine/Scalar.lean ====
section
/-! DEFINITION. The scalar integer, predicate, select and FP32 instructions (Tables 03-4, 03-5). -/

namespace Sys2Proof.Machine

/-- A format A instruction on scalars a and b into scalar d: the modifier is reserved (R83). -/
def scalarAB (t : Nat) (f : FmtA) (op : W32 → W32 → W32) (s : State) : State :=
  regInstr t 4 (firstCode [(nz f.md, 0x12)]) [.s f.a.toNat, .s f.b.toNat, .s f.d.toNat]
    (fun th => Eff.sc f.d.toNat (op (th.sr f.a.toNat) (th.sr f.b.toNat))) s

/-- A format A instruction on scalar a into scalar d: b and the modifier are reserved.
(DEDUCED: log entry 15.) -/
def scalarA (t : Nat) (f : FmtA) (op : W32 → W32) (s : State) : State :=
  regInstr t 4 (firstCode [(nz f.b || nz f.md, 0x12)]) [.s f.a.toNat, .s f.d.toNat]
    (fun th => Eff.sc f.d.toNat (op (th.sr f.a.toNat))) s

/-- A format I instruction on scalar a and the immediate into scalar d: bits [17:14] are reserved. -/
def scalarImm (t : Nat) (f : FmtI) (op : W32 → BitVec 14 → W32) (s : State) : State :=
  regInstr t 4 (firstCode [(nz f.b, 0x12)]) [.s f.a.toNat, .s f.d.toNat]
    (fun th => Eff.sc f.d.toNat (op (th.sr f.a.toNat) f.imm)) s

/-- A predicate instruction p(d) := op (p(a)) (p(b)); fields above 3 are BAD_REGISTER. -/
def predAB (t : Nat) (f : FmtA) (op : Bool → Bool → Bool) (s : State) : State :=
  regInstr t 4 (firstCode [(badV f.d || badV f.a || badV f.b, 0x11), (nz f.md, 0x12)])
    [.p f.a.toNat, .p f.b.toNat, .p f.d.toNat]
    (fun th => Eff.pd th f.d.toNat (op (th.pred f.a.toNat) (th.pred f.b.toNat))) s

/-- A predicate instruction that names no second operand; `ua` says whether a is read, and fields not used are
reserved. -/
def predA (t : Nat) (f : FmtA) (ua : Bool) (op : Bool → Bool) (s : State) : State :=
  regInstr t 4 (firstCode [(badV f.d || (ua && badV f.a), 0x11), ((!ua && nz f.a) || nz f.b || nz f.md, 0x12)])
    (if ua then [.p f.a.toNat, .p f.d.toNat] else [.p f.d.toNat])
    (fun th => Eff.pd th f.d.toNat (op (th.pred f.a.toNat))) s

/-- The conditions of cmp by func (Table 03-4); none where the func is unassigned. -/
def cmpCond (c : Nat) (x y : W32) : Option Bool :=
  match c with
  | 0x00 => some (x == y)
  | 0x01 => some (x != y)
  | 0x02 => some (x.slt y)
  | 0x03 => some (x.ult y)
  | 0x04 => some (!x.slt y)
  | 0x05 => some (!x.ult y)
  | 0x08 => some (f32Eq x y)
  | 0x09 => some (f32Lt x y)
  | 0x0A => some (f32Le x y)
  | 0x0B => some (f32Un x y)
  | _ => none

/-- A shift kind of shi: 00 sll, 01 srl, 10 sra. -/
def shiftOp (k n : Nat) (x : W32) : W32 := if k = 0 then x <<< n else if k = 1 then x >>> n else x.sshiftRight n


/-- add: d := (a + b) mod 2^32. -/
def execAdd (t : Nat) (f : FmtA) (s : State) : Host.Outcome State Fault Refusal :=
  .next (scalarAB t f (fun x y => x + y) s)

/-- sub: d := (a − b) mod 2^32. -/
def execSub (t : Nat) (f : FmtA) (s : State) : Host.Outcome State Fault Refusal :=
  .next (scalarAB t f (fun x y => x - y) s)

/-- and. -/
def execAnd (t : Nat) (f : FmtA) (s : State) : Host.Outcome State Fault Refusal :=
  .next (scalarAB t f (fun x y => x &&& y) s)

/-- or. -/
def execOr (t : Nat) (f : FmtA) (s : State) : Host.Outcome State Fault Refusal :=
  .next (scalarAB t f (fun x y => x ||| y) s)

/-- xor. -/
def execXor (t : Nat) (f : FmtA) (s : State) : Host.Outcome State Fault Refusal :=
  .next (scalarAB t f (fun x y => x ^^^ y) s)

/-- sll: a shifted left by b[4:0]. -/
def execSll (t : Nat) (f : FmtA) (s : State) : Host.Outcome State Fault Refusal :=
  .next (scalarAB t f (fun x y => x <<< (y.toNat % 32)) s)

/-- srl: a shifted right by b[4:0], filling with zeros. -/
def execSrl (t : Nat) (f : FmtA) (s : State) : Host.Outcome State Fault Refusal :=
  .next (scalarAB t f (fun x y => x >>> (y.toNat % 32)) s)

/-- sra: a shifted right by b[4:0], filling with the sign. -/
def execSra (t : Nat) (f : FmtA) (s : State) : Host.Outcome State Fault Refusal :=
  .next (scalarAB t f (fun x y => x.sshiftRight (y.toNat % 32)) s)

/-- mul: the low 32 bits of a × b. -/
def execMul (t : Nat) (f : FmtA) (s : State) : Host.Outcome State Fault Refusal :=
  .next (scalarAB t f (fun x y => x * y) s)

/-- mulh: the high 32 bits of the signed product. -/
def execMulh (t : Nat) (f : FmtA) (s : State) : Host.Outcome State Fault Refusal :=
  .next (scalarAB t f (fun x y => BitVec.ofInt 32 (x.toInt * y.toInt / 2 ^ 32)) s)

/-- mulhu: the high 32 bits of the unsigned product. -/
def execMulhu (t : Nat) (f : FmtA) (s : State) : Host.Outcome State Fault Refusal :=
  .next (scalarAB t f (fun x y => BitVec.ofNat 32 (x.toNat * y.toNat / 2 ^ 32)) s)

/-- min: the signed minimum. -/
def execMin (t : Nat) (f : FmtA) (s : State) : Host.Outcome State Fault Refusal :=
  .next (scalarAB t f (fun x y => if y.slt x then y else x) s)

/-- max: the signed maximum. -/
def execMax (t : Nat) (f : FmtA) (s : State) : Host.Outcome State Fault Refusal :=
  .next (scalarAB t f (fun x y => if x.slt y then y else x) s)

/-- minu: the unsigned minimum. -/
def execMinu (t : Nat) (f : FmtA) (s : State) : Host.Outcome State Fault Refusal :=
  .next (scalarAB t f (fun x y => if y.ult x then y else x) s)

/-- maxu: the unsigned maximum. -/
def execMaxu (t : Nat) (f : FmtA) (s : State) : Host.Outcome State Fault Refusal :=
  .next (scalarAB t f (fun x y => if x.ult y then y else x) s)

/-- addi: d := (a + sext(imm)) mod 2^32. -/
def execAddi (t : Nat) (f : FmtI) (s : State) : Host.Outcome State Fault Refusal :=
  .next (scalarImm t f (fun x i => x + i.signExtend 32) s)

/-- andi: a and zext(imm). -/
def execAndi (t : Nat) (f : FmtI) (s : State) : Host.Outcome State Fault Refusal :=
  .next (scalarImm t f (fun x i => x &&& i.zeroExtend 32) s)

/-- ori: a or zext(imm). -/
def execOri (t : Nat) (f : FmtI) (s : State) : Host.Outcome State Fault Refusal :=
  .next (scalarImm t f (fun x i => x ||| i.zeroExtend 32) s)

/-- xori: a xor zext(imm). -/
def execXori (t : Nat) (f : FmtI) (s : State) : Host.Outcome State Fault Refusal :=
  .next (scalarImm t f (fun x i => x ^^^ i.zeroExtend 32) s)

/-- shi: a shifted by imm[4:0] as imm[13:12] says; 11 is ILLEGAL_OPCODE and imm[11:5] is reserved. -/
def execShi (t : Nat) (f : FmtI) (s : State) : Host.Outcome State Fault Refusal :=
  .next (regInstr t 4
    (firstCode [(fld f.imm.toNat 13 12 == 3, 0x10), (nz f.b || fld f.imm.toNat 11 5 != 0, 0x12)])
    [.s f.a.toNat, .s f.d.toNat]
    (fun th => Eff.sc f.d.toNat (shiftOp (fld f.imm.toNat 13 12) (fld f.imm.toNat 4 0) (th.sr f.a.toNat))) s)

/-- movi: d := the extension word; a, b and bits [13:0] are reserved (Table 03-4). -/
def execMovi (t : Nat) (f : FmtE) (s : State) : Host.Outcome State Fault Refusal :=
  .next (regInstr t 8 (firstCode [(nz f.a || nz f.b || nz f.imm, 0x12)]) [.s f.d.toNat]
    (fun _ => Eff.sc f.d.toNat f.ext) s)

/-- cmp: p(d) := condition(a, b). An unassigned func is ILLEGAL_OPCODE. -/
def execCmp (t : Nat) (cond : BitVec 6) (f : FmtA) (s : State) : Host.Outcome State Fault Refusal :=
  .next (regInstr t 4
    (firstCode [((cmpCond cond.toNat 0 0).isNone, 0x10), (badV f.d, 0x11), (nz f.md, 0x12)])
    [.s f.a.toNat, .s f.b.toNat, .p f.d.toNat]
    (fun th => Eff.pd th f.d.toNat ((cmpCond cond.toNat (th.sr f.a.toNat) (th.sr f.b.toNat)).getD false)) s)

/-- cmpi: p(d) := condition(a, sext(imm)); conditions 0x6 to 0xF are ILLEGAL_OPCODE. -/
def execCmpi (t : Nat) (f : FmtI) (s : State) : Host.Outcome State Fault Refusal :=
  .next (regInstr t 4 (firstCode [(decide (6 ≤ f.b.toNat), 0x10), (badV f.d, 0x11)])
    [.s f.a.toNat, .p f.d.toNat]
    (fun th => Eff.pd th f.d.toNat ((cmpCond f.b.toNat (th.sr f.a.toNat) (f.imm.signExtend 32)).getD false)) s)

/-- pand. -/
def execPand (t : Nat) (f : FmtA) (s : State) : Host.Outcome State Fault Refusal :=
  .next (predAB t f (fun x y => x && y) s)

/-- por. -/
def execPor (t : Nat) (f : FmtA) (s : State) : Host.Outcome State Fault Refusal :=
  .next (predAB t f (fun x y => x || y) s)

/-- pxor. -/
def execPxor (t : Nat) (f : FmtA) (s : State) : Host.Outcome State Fault Refusal :=
  .next (predAB t f (fun x y => x != y) s)

/-- pandn: p(a) and not p(b). -/
def execPandn (t : Nat) (f : FmtA) (s : State) : Host.Outcome State Fault Refusal :=
  .next (predAB t f (fun x y => x && !y) s)

/-- pnot: p(d) := not p(a). -/
def execPnot (t : Nat) (f : FmtA) (s : State) : Host.Outcome State Fault Refusal :=
  .next (predA t f true (fun x => !x) s)

/-- pset: p(d) := true. -/
def execPset (t : Nat) (f : FmtA) (s : State) : Host.Outcome State Fault Refusal :=
  .next (predA t f false (fun _ => true) s)

/-- pclr: p(d) := false. -/
def execPclr (t : Nat) (f : FmtA) (s : State) : Host.Outcome State Fault Refusal :=
  .next (predA t f false (fun _ => false) s)

/-- sel: d := a where p xor invert, else b; modifier [1:0] names p, [2] inverts, [7:3] is reserved. -/
def execSel (t : Nat) (f : FmtA) (s : State) : Host.Outcome State Fault Refusal :=
  .next (regInstr t 4 (firstCode [(fld f.md.toNat 7 3 != 0, 0x12)])
    [.s f.a.toNat, .s f.b.toNat, .s f.d.toNat, .p (fld f.md.toNat 1 0)]
    (fun th => Eff.sc f.d.toNat
      (if th.pred (fld f.md.toNat 1 0) != f.md.toNat.testBit 2 then th.sr f.a.toNat else th.sr f.b.toNat)) s)

/-- fadd: FP32 addition, round to nearest even (R116). -/
def execFadd (t : Nat) (f : FmtA) (s : State) : Host.Outcome State Fault Refusal :=
  .next (scalarAB t f (f32Add) s)

/-- fsub. -/
def execFsub (t : Nat) (f : FmtA) (s : State) : Host.Outcome State Fault Refusal :=
  .next (scalarAB t f (f32Sub) s)

/-- fmul. -/
def execFmul (t : Nat) (f : FmtA) (s : State) : Host.Outcome State Fault Refusal :=
  .next (scalarAB t f (f32Mul) s)

/-- ffma: d := d + a × b with one rounding. -/
def execFfma (t : Nat) (f : FmtA) (s : State) : Host.Outcome State Fault Refusal :=
  .next (regInstr t 4 (firstCode [(nz f.md, 0x12)]) [.s f.a.toNat, .s f.b.toNat, .s f.d.toNat]
    (fun th => Eff.sc f.d.toNat (f32Fma (th.sr f.d.toNat) (th.sr f.a.toNat) (th.sr f.b.toNat))) s)

/-- fmin: minimumNumber. -/
def execFmin (t : Nat) (f : FmtA) (s : State) : Host.Outcome State Fault Refusal :=
  .next (scalarAB t f (f32Min) s)

/-- fmax: maximumNumber. -/
def execFmax (t : Nat) (f : FmtA) (s : State) : Host.Outcome State Fault Refusal :=
  .next (scalarAB t f (f32Max) s)

/-- frcp: 1/a within a relative error of 2^-22 (R116). -/
def execFrcp (t : Nat) (f : FmtA) (s : State) : Host.Outcome State Fault Refusal :=
  .next (scalarA t f (fun x => f32Rcp (Config.frcp x) x) s)

/-- frsq: 1/√a within a relative error of 2^-22. -/
def execFrsq (t : Nat) (f : FmtA) (s : State) : Host.Outcome State Fault Refusal :=
  .next (scalarA t f (fun x => f32Rsq (Config.frsq x) x) s)

/-- fexp2: 2^a within a relative error of 2^-22. -/
def execFexp2 (t : Nat) (f : FmtA) (s : State) : Host.Outcome State Fault Refusal :=
  .next (scalarA t f (fun x => f32Exp2 (Config.fexp2 x) x) s)

/-- fcvt.i: INT32 by rounding to nearest even, saturating; NaN gives 0. -/
def execFcvtI (t : Nat) (f : FmtA) (s : State) : Host.Outcome State Fault Refusal :=
  .next (scalarA t f (f32ToInt) s)

/-- fcvt.f: INT32 as FP32. -/
def execFcvtF (t : Nat) (f : FmtA) (s : State) : Host.Outcome State Fault Refusal :=
  .next (scalarA t f (intToF32) s)

/-- fabs: the sign cleared, a NaN payload kept (R108). -/
def execFabs (t : Nat) (f : FmtA) (s : State) : Host.Outcome State Fault Refusal :=
  .next (scalarA t f (f32Abs) s)

/-- fneg: the sign inverted, a NaN payload kept. -/
def execFneg (t : Nat) (f : FmtA) (s : State) : Host.Outcome State Fault Refusal :=
  .next (scalarA t f (f32Neg) s)

end Sys2Proof.Machine
end

