-- ==== Sys2Proof/Machine/ThreadDecode.lean ====
section
/-! DEFINITION. The words of thread instructions (Table 03-3), their decoding by major opcode and func, the fetch of an
instruction (R41), and the issue of a core (R95). -/

namespace Sys2Proof.Machine

/-! ### Fields of a word (Table 03-3) -/

def wordA (w : W32) : FmtA := ⟨w.extractLsb' 22 4, w.extractLsb' 18 4, w.extractLsb' 14 4, w.extractLsb' 0 8⟩
def wordI (w : W32) : FmtI := ⟨w.extractLsb' 22 4, w.extractLsb' 18 4, w.extractLsb' 14 4, w.extractLsb' 0 14⟩
def wordM (w : W32) : FmtM := ⟨w.extractLsb' 22 4, w.extractLsb' 18 4, w.extractLsb' 14 4, w.extractLsb' 0 14⟩
def wordE (w x : W32) : FmtE := ⟨w.extractLsb' 22 4, w.extractLsb' 18 4, w.extractLsb' 14 4, w.extractLsb' 0 14, x⟩
def major (w : W32) : Nat := (w.extractLsb' 26 6).toNat
def func (w : W32) : BitVec 6 := w.extractLsb' 8 6

/-- Whether a major opcode has a second word. -/
def isExtended (m : Nat) : Bool := [0x07, 0x18, 0x19, 0x1A, 0x1B, 0x20, 0x21, 0x23, 0x28, 0x2A, 0x2B, 0x2C, 0x31, 0x32, 0x39].contains m

/-- The conditions of cmp. -/
def knownCond (c : Nat) : Bool := decide (c < 6) || (decide (8 ≤ c) && decide (c < 12))

/-- Format A instructions of major 0x01 by func. -/
def decodeA01 (t : Nat) (fn : Nat) (f : FmtA) : Option Instr :=
  match fn with
  | 0x00 => some (.add t f)
  | 0x01 => some (.sub t f)
  | 0x02 => some (.and t f)
  | 0x03 => some (.or t f)
  | 0x04 => some (.xor t f)
  | 0x05 => some (.sll t f)
  | 0x06 => some (.srl t f)
  | 0x07 => some (.sra t f)
  | 0x08 => some (.mul t f)
  | 0x09 => some (.mulh t f)
  | 0x0A => some (.mulhu t f)
  | 0x0B => some (.min t f)
  | 0x0C => some (.max t f)
  | 0x0D => some (.minu t f)
  | 0x0E => some (.maxu t f)
  | _ => none

/-- Format A instructions of major 0x08 by func. -/
def decodeA08 (t : Nat) (fn : Nat) (f : FmtA) : Option Instr :=
  match fn with
  | 0x00 => some (.fadd t f)
  | 0x01 => some (.fsub t f)
  | 0x02 => some (.fmul t f)
  | 0x03 => some (.ffma t f)
  | 0x04 => some (.fmin t f)
  | 0x05 => some (.fmax t f)
  | 0x06 => some (.frcp t f)
  | 0x07 => some (.frsq t f)
  | 0x08 => some (.fexp2 t f)
  | 0x09 => some (.fcvtI t f)
  | 0x0A => some (.fcvtF t f)
  | 0x0B => some (.fabs t f)
  | 0x0C => some (.fneg t f)
  | _ => none

/-- Format A instructions of major 0x0B by func. -/
def decodeA0B (t : Nat) (fn : Nat) (f : FmtA) : Option Instr :=
  match fn with
  | 0x00 => some (.pand t f)
  | 0x01 => some (.por t f)
  | 0x02 => some (.pxor t f)
  | 0x03 => some (.pandn t f)
  | 0x04 => some (.pnot t f)
  | 0x05 => some (.pset t f)
  | 0x06 => some (.pclr t f)
  | _ => none

/-- Format A instructions of major 0x22 by func. -/
def decodeA22 (t : Nat) (fn : Nat) (f : FmtA) : Option Instr :=
  match fn with
  | 0x00 => some (.aclr t f)
  | 0x01 => some (.amovf t f)
  | 0x02 => some (.amovt t f)
  | 0x03 => some (.ascl t f)
  | 0x04 => some (.aadd t f)
  | 0x05 => some (.amax t f)
  | 0x06 => some (.aexp2 t f)
  | 0x07 => some (.arcp t f)
  | 0x08 => some (.ared t f)
  | 0x09 => some (.armax t f)
  | 0x0A => some (.aired t f)
  | _ => none

/-- Format A instructions of major 0x24 by func. -/
def decodeA24 (t : Nat) (fn : Nat) (f : FmtA) : Option Instr :=
  match fn with
  | 0x00 => some (.vmov t f)
  | 0x01 => some (.vbc t f)
  | 0x02 => some (.vext t f)
  | 0x03 => some (.vins t f)
  | 0x04 => some (.vzero t f)
  | _ => none

/-- The instruction that a word, and for an extended one its second word, spells for a thread; none for ILLEGAL_OPCODE.
(DESIGN CHOICE: log entries 3, 106.) -/
def decodeThread (t : Nat) (w x : W32) : Option Instr :=
  let fn := func w
  match major w with
  | 0x01 => decodeA01 t fn.toNat (wordA w)
  | 0x02 => some (.addi t (wordI w))
  | 0x03 => some (.andi t (wordI w))
  | 0x04 => some (.ori t (wordI w))
  | 0x05 => some (.xori t (wordI w))
  | 0x06 => some (.shi t (wordI w))
  | 0x07 => some (.movi t (wordE w x))
  | 0x08 => decodeA08 t fn.toNat (wordA w)
  | 0x09 => if knownCond fn.toNat then some (.cmp t fn (wordA w)) else none
  | 0x0A => some (.cmpi t (wordI w))
  | 0x0B => decodeA0B t fn.toNat (wordA w)
  | 0x0C => if fn = 0 then some (.sel t (wordA w)) else none
  | 0x10 => some (.ld t (wordM w))
  | 0x11 => some (.st t (wordM w))
  | 0x12 => some (.ldl t (wordM w))
  | 0x13 => some (.stl t (wordM w))
  | 0x14 => some (.vld t (wordM w))
  | 0x15 => some (.vst t (wordM w))
  | 0x16 => some (.vldl t (wordM w))
  | 0x17 => some (.vstl t (wordM w))
  | 0x18 => some (.vldx t (wordE w x))
  | 0x19 => some (.vstx t (wordE w x))
  | 0x1A => some (.atom t (wordE w x))
  | 0x1B => some (.atoml t (wordE w x))
  | 0x20 => some (.vmac t (wordE w x))
  | 0x21 => some (.vmacc t (wordE w x))
  | 0x22 => decodeA22 t fn.toNat (wordA w)
  | 0x23 => some (.acvt t (wordE w x))
  | 0x24 => decodeA24 t fn.toNat (wordA w)
  | 0x28 => some (.gtopk t (wordE w x))
  | 0x29 => if fn.toNat < 2 then some (.gnorm t fn (wordA w)) else none
  | 0x2A => some (.dspt t (wordE w x))
  | 0x2B => some (.drecv t (wordE w x))
  | 0x2C => some (.dret t (wordE w x))
  | 0x30 => if fn = 0 then some (.fence t (wordA w)) else none
  | 0x31 => some (.fsig t (wordE w x))
  | 0x32 => some (.fwait t (wordE w x))
  | 0x33 => if fn = 0 then some (.bar t (wordA w)) else none
  | 0x34 => some (.evpost t (wordI w))
  | 0x38 => some (.br t (wordI w))
  | 0x39 => some (.jal t (wordE w x))
  | 0x3A => if fn = 0 then some (.jr t (wordA w)) else none
  | 0x3B => if fn = 0 then some (.endThread t (wordA w)) else none
  | 0x3C => if fn = 0 then some (.nopInstruction t (wordA w)) else none
  | 0x3D => if fn.toNat < 7 then some (.rdsr t fn (wordA w)) else if fn = 0x20 then some (.wrsr t (wordA w)) else none
  | _ => none

/-- The meaning of a thread instruction; commands of other kinds are not instructions and change nothing. -/
def runThread (i : Instr) (s : State) : Host.Outcome State Fault Refusal :=
  match i with
  | .add t f => execAdd t f s
  | .sub t f => execSub t f s
  | .and t f => execAnd t f s
  | .or t f => execOr t f s
  | .xor t f => execXor t f s
  | .sll t f => execSll t f s
  | .srl t f => execSrl t f s
  | .sra t f => execSra t f s
  | .mul t f => execMul t f s
  | .mulh t f => execMulh t f s
  | .mulhu t f => execMulhu t f s
  | .min t f => execMin t f s
  | .max t f => execMax t f s
  | .minu t f => execMinu t f s
  | .maxu t f => execMaxu t f s
  | .addi t f => execAddi t f s
  | .andi t f => execAndi t f s
  | .ori t f => execOri t f s
  | .xori t f => execXori t f s
  | .shi t f => execShi t f s
  | .movi t f => execMovi t f s
  | .fadd t f => execFadd t f s
  | .fsub t f => execFsub t f s
  | .fmul t f => execFmul t f s
  | .ffma t f => execFfma t f s
  | .fmin t f => execFmin t f s
  | .fmax t f => execFmax t f s
  | .frcp t f => execFrcp t f s
  | .frsq t f => execFrsq t f s
  | .fexp2 t f => execFexp2 t f s
  | .fcvtI t f => execFcvtI t f s
  | .fcvtF t f => execFcvtF t f s
  | .fabs t f => execFabs t f s
  | .fneg t f => execFneg t f s
  | .cmpi t f => execCmpi t f s
  | .pand t f => execPand t f s
  | .por t f => execPor t f s
  | .pxor t f => execPxor t f s
  | .pandn t f => execPandn t f s
  | .pnot t f => execPnot t f s
  | .pset t f => execPset t f s
  | .pclr t f => execPclr t f s
  | .sel t f => execSel t f s
  | .ld t f => execLd t f s
  | .st t f => execSt t f s
  | .ldl t f => execLdl t f s
  | .stl t f => execStl t f s
  | .vld t f => execVld t f s
  | .vst t f => execVst t f s
  | .vldl t f => execVldl t f s
  | .vstl t f => execVstl t f s
  | .vldx t f => execVldx t f s
  | .vstx t f => execVstx t f s
  | .atom t f => execAtom t f s
  | .atoml t f => execAtoml t f s
  | .vmac t f => execVmac t f s
  | .vmacc t f => execVmacc t f s
  | .aclr t f => execAclr t f s
  | .amovf t f => execAmovf t f s
  | .amovt t f => execAmovt t f s
  | .ascl t f => execAscl t f s
  | .aadd t f => execAadd t f s
  | .amax t f => execAmax t f s
  | .aexp2 t f => execAexp2 t f s
  | .arcp t f => execArcp t f s
  | .ared t f => execAred t f s
  | .armax t f => execArmax t f s
  | .aired t f => execAired t f s
  | .acvt t f => execAcvt t f s
  | .vmov t f => execVmov t f s
  | .vbc t f => execVbc t f s
  | .vext t f => execVext t f s
  | .vins t f => execVins t f s
  | .vzero t f => execVzero t f s
  | .gtopk t f => execGtopk t f s
  | .dspt t f => execDspt t f s
  | .drecv t f => execDrecv t f s
  | .dret t f => execDret t f s
  | .fence t f => execFence t f s
  | .fsig t f => execFsig t f s
  | .fwait t f => execFwait t f s
  | .bar t f => execBar t f s
  | .evpost t f => execEvpost t f s
  | .br t f => execBr t f s
  | .jal t f => execJal t f s
  | .jr t f => execJr t f s
  | .endThread t f => execEndThread t f s
  | .nopInstruction t f => execNopInstruction t f s
  | .cmp t c f => execCmp t c f s
  | .gnorm t n f => execGnorm t n f s
  | .rdsr t r f => execRdsr t r f s
  | .wrsr t f => execWrsr t f s
  | _ => .next s

/-! ### Fetch -/

/-- The values that a fetch of the word at a DPA may return in a launch (R41): the one memory holds, and each that a write has replaced since
the launch started.
(DEDUCED: log entry 21.) -/
def State.wordValues (s : State) (l : Launch) (dpa : Nat) : List Nat :=
  s.cohRead dpa 4 :: ((s.code.take (s.code.length - l.start)).filter (fun e => e.1 == dpa / 128)).map (fun e => getLine e.2 (dpa % 128) 4)

/-- One instruction word at a PVA for a thread, whether it was read as poison under TOLERATE, and the PPA it came from; or a fault code and PPA.
The fetch returns any of its values, and its read is counted (R285, R308).
(DEDUCED: log entry 21.) -/
def State.fetchWord (s : State) (th : Thread) (t pva : Nat) : Except Xfault (W32 × Bool × Nat) × State :=
  if inHost pva then (.error ⟨0x03, 0⟩, s)
  else match s.ctxs.get? (th.ctx % 4096), s.launches.get? th.launch with
    | some c, some l =>
      match s.translateAcc (th.ctx % 4096) c t pva 3 with
      | (.error f, s1) => (.error f, s1)
      | (.ok x, s1) =>
        match x.window with
        | some k =>
          let (v, s2) := s1.freshNat
          (.ok (BitVec.ofNat 32 v, false, x.ppa), s2.windowSpan c.parcel k none 1 x.dpa 4)
        | none =>
          if s1.poisoned x.dpa then (if l.tol then .ok (0, true, x.ppa) else .error ⟨0x0B, x.ppa⟩, s1)
          else
            let vs := (s1.wordValues l x.dpa).eraseDups
            let (i, s2) := s1.pick vs.length
            (.ok (BitVec.ofNat 32 (vs.getD i 0), false, x.ppa), s2.countRead (shipOf t) x.dpa 4)
    | _, _ => (.error ⟨0x01, 0⟩, s)

/-- Whether the fetch of a word waits for a slice: of a channel that its walk reads, or of its own (R302). -/
def State.wordHeld (s : State) (th : Thread) (t pva : Nat) : Bool :=
  match s.ctxs.get? (th.ctx % 4096) with
  | some c => s.walkHeld (th.ctx % 4096) c t pva 4 || (match s.translateFresh c (some (shipOf t)) pva 3 with
    | .ok (x, _, _) => s.spanHeld x.dpa 4
    | .error _ => false)
  | none => false

/-- Whether a thread moved on, waits, is gone, or has begun to read the bytes that its instruction needs from the scratchpad. -/
def State.moved (s s' : State) (t : Nat) : Bool :=
  match s.threads.get? t, s'.threads.get? t with
  | some a, some b => a != b || s'.accs.any (fun e => e.2.thread == t && e.2.isFetch && !s.accs.has e.1)
  | some _, none => true
  | none, _ => false

/-- Whether an instruction is a jump whose registers are free: it issues wherever it leads, to its own address too. -/
def State.jumps (s : State) (t : Nat) (i : Instr) : Bool :=
  match i with
  | .br _ f => s.onThread t false (fun th => th.free [.p (f.d.toNat % 4)])
  | .jal _ f => s.onThread t false (fun th => th.free (usesPair f.d.toNat))
  | .jr _ f => s.onThread t false (fun th => th.free (usesPair f.a.toNat))
  | _ => false

/-- The next instruction of a thread fetched, decoded and performed, and whether it issued: a fetch fault has access type 3; a word that
spells no instruction is ILLEGAL_OPCODE (Table 03-17). A poisoned word that is tolerated counts once the instruction issues. -/
def State.runNext (s : State) (t : Nat) : Bool × State :=
  match s.threads.get? t with
  | none => (false, s)
  | some th =>
    if s.wordHeld th t th.pc.toNat then (false, s)
    else match s.fetchWord th t th.pc.toNat with
    | (.error f, s1) => (true, s1.threadFault t f.code 3 th.pc.toNat f.ppa)
    | (.ok (w, bad, ppa), s0) =>
      let s1 := s0.modThread t (fun y => { y with fetched := some (th.pc.toNat, ppa) })
      let pc2 := (th.pc + 4#52).toNat
      if isExtended (major w) && s.wordHeld th t pc2 then (false, s) else
      match (if isExtended (major w) then s1.fetchWord th t pc2 else (.ok (0, false, 0), s1)) with
      | (.error f, s2) => (true, s2.threadFault t f.code 3 pc2 f.ppa)
      | (.ok (x, bad2, _), s2) =>
        let count (s : State) : State := (if bad2 then [bad, bad2] else [bad]).foldl (fun s b => if b then s.poisonRead th.spec.isSome t th.launch else s) s
        match decodeThread t w x with
        | some i =>
          match runThread i s2 with
          | .next s3 => if s2.jumps t i || s2.moved s3 t then (true, count s3) else (false, s3)
          | _ => (false, s2)
        | none => (true, count (s2.encFault t 0x10))

/-- The first thread in rotating order that issues: one whose next instruction is not ready leaves the choice to the next. -/
def State.issueFirst (s : State) (k : Nat) : List Nat → State
  | [] => s
  | h :: r =>
    if s.canIssue (k * 4 + h) then
      match s.runNext (k * 4 + h) with
      | (true, s1) => s1.setCore k { s1.core k with last := h }
      | (false, s1) => s1.issueFirst k r
    else s.issueFirst k r

/-- THREAD_ISSUE: a step of a core: what confirmed threads have still to perform goes on (R170), and the core issues at most one instruction, the
threads taking turns from the one after the last (R95); its step counter advances (R93).
(DESIGN CHOICE: log entries 4, 14, 89.) -/
def execThreadIssue (ship sec core : Nat) (s : State) : Host.Outcome State Fault Refusal :=
  let k := ship * 4096 + sec * 64 + core
  let x := s.ship ship
  let last := (s.core k).last
  .next (if x.halted || x.asleep || x.absent || x.test.isSome then s
    else
      let s1 := s.setCore k { s.core k with steps := ((s.core k).steps + 1) % 2 ^ 64 }
      let s2 := (upTo 4).foldl (fun s h => s.replay (k * 4 + h) 65) s1
      s2.issueFirst k ((upTo 4).map (fun i => (last + 1 + i) % 4)))

end Sys2Proof.Machine
end

