-- ==== Sys2Proof/Machine/Dispatch.lean ====
section
/-! DEFINITION. The meaning of each command, one arm for each row of the opcode table. -/

namespace Sys2Proof.Machine

def exec (i : Instr) (s : State) : Host.Outcome State Fault Refusal :=
  match i with
  | .add t f => Sys2Proof.Machine.execAdd t f s
  | .sub t f => Sys2Proof.Machine.execSub t f s
  | .and t f => Sys2Proof.Machine.execAnd t f s
  | .or t f => Sys2Proof.Machine.execOr t f s
  | .xor t f => Sys2Proof.Machine.execXor t f s
  | .sll t f => Sys2Proof.Machine.execSll t f s
  | .srl t f => Sys2Proof.Machine.execSrl t f s
  | .sra t f => Sys2Proof.Machine.execSra t f s
  | .mul t f => Sys2Proof.Machine.execMul t f s
  | .mulh t f => Sys2Proof.Machine.execMulh t f s
  | .mulhu t f => Sys2Proof.Machine.execMulhu t f s
  | .min t f => Sys2Proof.Machine.execMin t f s
  | .max t f => Sys2Proof.Machine.execMax t f s
  | .minu t f => Sys2Proof.Machine.execMinu t f s
  | .maxu t f => Sys2Proof.Machine.execMaxu t f s
  | .addi t f => Sys2Proof.Machine.execAddi t f s
  | .andi t f => Sys2Proof.Machine.execAndi t f s
  | .ori t f => Sys2Proof.Machine.execOri t f s
  | .xori t f => Sys2Proof.Machine.execXori t f s
  | .shi t f => Sys2Proof.Machine.execShi t f s
  | .movi t f => Sys2Proof.Machine.execMovi t f s
  | .cmp t cond f => Sys2Proof.Machine.execCmp t cond f s
  | .cmpi t f => Sys2Proof.Machine.execCmpi t f s
  | .pand t f => Sys2Proof.Machine.execPand t f s
  | .por t f => Sys2Proof.Machine.execPor t f s
  | .pxor t f => Sys2Proof.Machine.execPxor t f s
  | .pandn t f => Sys2Proof.Machine.execPandn t f s
  | .pnot t f => Sys2Proof.Machine.execPnot t f s
  | .pset t f => Sys2Proof.Machine.execPset t f s
  | .pclr t f => Sys2Proof.Machine.execPclr t f s
  | .sel t f => Sys2Proof.Machine.execSel t f s
  | .fadd t f => Sys2Proof.Machine.execFadd t f s
  | .fsub t f => Sys2Proof.Machine.execFsub t f s
  | .fmul t f => Sys2Proof.Machine.execFmul t f s
  | .ffma t f => Sys2Proof.Machine.execFfma t f s
  | .fmin t f => Sys2Proof.Machine.execFmin t f s
  | .fmax t f => Sys2Proof.Machine.execFmax t f s
  | .frcp t f => Sys2Proof.Machine.execFrcp t f s
  | .frsq t f => Sys2Proof.Machine.execFrsq t f s
  | .fexp2 t f => Sys2Proof.Machine.execFexp2 t f s
  | .fcvtI t f => Sys2Proof.Machine.execFcvtI t f s
  | .fcvtF t f => Sys2Proof.Machine.execFcvtF t f s
  | .fabs t f => Sys2Proof.Machine.execFabs t f s
  | .fneg t f => Sys2Proof.Machine.execFneg t f s
  | .ld t f => Sys2Proof.Machine.execLd t f s
  | .st t f => Sys2Proof.Machine.execSt t f s
  | .ldl t f => Sys2Proof.Machine.execLdl t f s
  | .stl t f => Sys2Proof.Machine.execStl t f s
  | .vld t f => Sys2Proof.Machine.execVld t f s
  | .vst t f => Sys2Proof.Machine.execVst t f s
  | .vldl t f => Sys2Proof.Machine.execVldl t f s
  | .vstl t f => Sys2Proof.Machine.execVstl t f s
  | .vldx t f => Sys2Proof.Machine.execVldx t f s
  | .vstx t f => Sys2Proof.Machine.execVstx t f s
  | .atom t f => Sys2Proof.Machine.execAtom t f s
  | .atoml t f => Sys2Proof.Machine.execAtoml t f s
  | .vmac t f => Sys2Proof.Machine.execVmac t f s
  | .vmacc t f => Sys2Proof.Machine.execVmacc t f s
  | .aclr t f => Sys2Proof.Machine.execAclr t f s
  | .amovf t f => Sys2Proof.Machine.execAmovf t f s
  | .amovt t f => Sys2Proof.Machine.execAmovt t f s
  | .ascl t f => Sys2Proof.Machine.execAscl t f s
  | .aadd t f => Sys2Proof.Machine.execAadd t f s
  | .amax t f => Sys2Proof.Machine.execAmax t f s
  | .aexp2 t f => Sys2Proof.Machine.execAexp2 t f s
  | .arcp t f => Sys2Proof.Machine.execArcp t f s
  | .ared t f => Sys2Proof.Machine.execAred t f s
  | .armax t f => Sys2Proof.Machine.execArmax t f s
  | .aired t f => Sys2Proof.Machine.execAired t f s
  | .acvt t f => Sys2Proof.Machine.execAcvt t f s
  | .vmov t f => Sys2Proof.Machine.execVmov t f s
  | .vbc t f => Sys2Proof.Machine.execVbc t f s
  | .vext t f => Sys2Proof.Machine.execVext t f s
  | .vins t f => Sys2Proof.Machine.execVins t f s
  | .vzero t f => Sys2Proof.Machine.execVzero t f s
  | .gtopk t f => Sys2Proof.Machine.execGtopk t f s
  | .gnorm t fn f => Sys2Proof.Machine.execGnorm t fn f s
  | .dspt t f => Sys2Proof.Machine.execDspt t f s
  | .drecv t f => Sys2Proof.Machine.execDrecv t f s
  | .dret t f => Sys2Proof.Machine.execDret t f s
  | .fence t f => Sys2Proof.Machine.execFence t f s
  | .fsig t f => Sys2Proof.Machine.execFsig t f s
  | .fwait t f => Sys2Proof.Machine.execFwait t f s
  | .bar t f => Sys2Proof.Machine.execBar t f s
  | .evpost t f => Sys2Proof.Machine.execEvpost t f s
  | .br t f => Sys2Proof.Machine.execBr t f s
  | .jal t f => Sys2Proof.Machine.execJal t f s
  | .jr t f => Sys2Proof.Machine.execJr t f s
  | .endThread t f => Sys2Proof.Machine.execEndThread t f s
  | .nopInstruction t f => Sys2Proof.Machine.execNopInstruction t f s
  | .rdsr t sr f => Sys2Proof.Machine.execRdsr t sr f s
  | .wrsr t f => Sys2Proof.Machine.execWrsr t f s
  | .threadIssue ship sec core => Sys2Proof.Machine.execThreadIssue ship sec core s
  | .macOccupationEnd ship sec core => Sys2Proof.Machine.execMacOccupationEnd ship sec core s
  | .loadDataReturn acc data => Sys2Proof.Machine.execLoadDataReturn acc data s
  | .hostError r => Sys2Proof.Machine.execHostError r s
  | .fwaitSatisfied t => Sys2Proof.Machine.execFwaitSatisfied t s
  | .barRelease t => Sys2Proof.Machine.execBarRelease t s
  | .dsptAccepted t => Sys2Proof.Machine.execDsptAccepted t s
  | .launchComplete launch => Sys2Proof.Machine.execLaunchComplete launch s
  | .scratchpadBankArbitration ship sec bank => Sys2Proof.Machine.execScratchpadBankArbitration ship sec bank s
  | .raisedRequest ship sec seq => Sys2Proof.Machine.execRaisedRequest ship sec seq s
  | .tcopy m => Sys2Proof.Machine.execTcopy m s
  | .admitCopy m => Sys2Proof.Machine.execAdmitCopy m s
  | .refuse m => Sys2Proof.Machine.execRefuse m s
  | .room m => Sys2Proof.Machine.execRoom m s
  | .confirm m => Sys2Proof.Machine.execConfirm m s
  | .refute m => Sys2Proof.Machine.execRefute m s
  | .tret m => Sys2Proof.Machine.execTret m s
  | .holdExpired ship entry => Sys2Proof.Machine.execHoldExpired ship entry s
  | .layerSettled launch => Sys2Proof.Machine.execLayerSettled launch s
  | .rds m => Sys2Proof.Machine.execRds m s
  | .rdx m => Sys2Proof.Machine.execRdx m s
  | .upg m => Sys2Proof.Machine.execUpg m s
  | .rdu m => Sys2Proof.Machine.execRdu m s
  | .wru m => Sys2Proof.Machine.execWru m s
  | .atn m => Sys2Proof.Machine.execAtn m s
  | .fwds m => Sys2Proof.Machine.execFwds m s
  | .fwdx m => Sys2Proof.Machine.execFwdx m s
  | .inv m => Sys2Proof.Machine.execInv m s
  | .rcl m => Sys2Proof.Machine.execRcl m s
  | .data m => Sys2Proof.Machine.execData m s
  | .datah m => Sys2Proof.Machine.execDatah m s
  | .wb m => Sys2Proof.Machine.execWb m s
  | .atr m => Sys2Proof.Machine.execAtr m s
  | .invack m => Sys2Proof.Machine.execInvack m s
  | .cmpack m => Sys2Proof.Machine.execCmpack m s
  | .wback m => Sys2Proof.Machine.execWback m s
  | .uack m => Sys2Proof.Machine.execUack m s
  | .specwait m => Sys2Proof.Machine.execSpecwait m s
  | .aged m => Sys2Proof.Machine.execAged m s
  | .headerResend router tries => Sys2Proof.Machine.execHeaderResend router tries s
  | .wake p => Sys2Proof.Machine.execWake p s
  | .wakeDone engine n => Sys2Proof.Machine.execWakeDone engine n s
  | .townshipSleep ship => Sys2Proof.Machine.execTownshipSleep ship s
  | .selfRefreshEntry engine => Sys2Proof.Machine.execSelfRefreshEntry engine s
  | .hbmReadBurst dpa uncorrectable => Sys2Proof.Machine.execHbmReadBurst dpa uncorrectable s
  | .poisonReloadStart page => Sys2Proof.Machine.execPoisonReloadStart page s
  | .poisonReloadDone page => Sys2Proof.Machine.execPoisonReloadDone page s
  | .poisonReloadFail page => Sys2Proof.Machine.execPoisonReloadFail page s
  | .refreshStepChange stack temp => Sys2Proof.Machine.execRefreshStepChange stack temp s
  | .retrainTrigger channel cause => Sys2Proof.Machine.execRetrainTrigger channel cause s
  | .sliceStart channel => Sys2Proof.Machine.execSliceStart channel s
  | .sliceEnd kept => Sys2Proof.Machine.execSliceEnd kept s
  | .channelFailed channel => Sys2Proof.Machine.execChannelFailed channel s
  | .mapoutNext channel => Sys2Proof.Machine.execMapoutNext channel s
  | .retrain channel => Sys2Proof.Machine.execRetrain channel s
  | .commitApply p off => Sys2Proof.Machine.execCommitApply p off s
  | .commitDiscard p off => Sys2Proof.Machine.execCommitDiscard p off s
  | .commitRejectedClear p off => Sys2Proof.Machine.execCommitRejectedClear p off s
  | .commitApplied off group => Sys2Proof.Machine.execCommitApplied off group s
  | .registerWrite p off size value tee => Sys2Proof.Machine.execRegisterWrite p off size value tee s
  | .rcRead p off size tee bar2 => Sys2Proof.Machine.execRcRead p off size tee bar2 s
  | .badAccess off size pasid write => Sys2Proof.Machine.execBadAccess off size pasid write s
  | .doorbell n page slot value tee => Sys2Proof.Machine.execDoorbell n page slot value tee s
  | .commandFetch q pkt => Sys2Proof.Machine.execCommandFetch q pkt s
  | .ringFetchFail q => Sys2Proof.Machine.execRingFetchFail q s
  | .commandStart q => Sys2Proof.Machine.execCommandStart q s
  | .statusReply q idx => Sys2Proof.Machine.execStatusReply q idx s
  | .nop q idx => Sys2Proof.Machine.execNop q idx s
  | .fenceSignal q idx => Sys2Proof.Machine.execFenceSignal q idx s
  | .fenceWait q idx => Sys2Proof.Machine.execFenceWait q idx s
  | .fenceWaitSatisfied q idx => Sys2Proof.Machine.execFenceWaitSatisfied q idx s
  | .fqCreate q idx => Sys2Proof.Machine.execFqCreate q idx s
  | .groupCreate q idx => Sys2Proof.Machine.execGroupCreate q idx s
  | .groupDestroy q idx => Sys2Proof.Machine.execGroupDestroy q idx s
  | .queueCreate q idx => Sys2Proof.Machine.execQueueCreate q idx s
  | .queueDestroy q idx => Sys2Proof.Machine.execQueueDestroy q idx s
  | .queueStop q idx => Sys2Proof.Machine.execQueueStop q idx s
  | .queueStopped q idx => Sys2Proof.Machine.execQueueStopped q idx s
  | .queueResume q idx => Sys2Proof.Machine.execQueueResume q idx s
  | .restore launch => Sys2Proof.Machine.execRestore launch s
  | .ledgerAnswer ship tx => Sys2Proof.Machine.execLedgerAnswer ship tx s
  | .ctxCreate q idx => Sys2Proof.Machine.execCtxCreate q idx s
  | .ctxRetire q idx => Sys2Proof.Machine.execCtxRetire q idx s
  | .ctxInvalidate q idx => Sys2Proof.Machine.execCtxInvalidate q idx s
  | .memCreate q idx => Sys2Proof.Machine.execMemCreate q idx s
  | .memHold q idx => Sys2Proof.Machine.execMemHold q idx s
  | .memFree q idx => Sys2Proof.Machine.execMemFree q idx s
  | .memQuery q idx => Sys2Proof.Machine.execMemQuery q idx s
  | .fenceCreate q idx => Sys2Proof.Machine.execFenceCreate q idx s
  | .fenceFree q idx => Sys2Proof.Machine.execFenceFree q idx s
  | .launch q idx => Sys2Proof.Machine.execLaunch q idx s
  | .launchPlaced launch => Sys2Proof.Machine.execLaunchPlaced launch s
  | .starve launch => Sys2Proof.Machine.execStarve launch s
  | .copy q idx => Sys2Proof.Machine.execCopy q idx s
  | .fill q idx => Sys2Proof.Machine.execFill q idx s
  | .copyPiece q idx => Sys2Proof.Machine.execCopyPiece q idx s
  | .work q idx => Sys2Proof.Machine.execWork q idx s
  | .workSent q idx => Sys2Proof.Machine.execWorkSent q idx s
  | .seqAdmit q idx => Sys2Proof.Machine.execSeqAdmit q idx s
  | .seqRetire q idx => Sys2Proof.Machine.execSeqRetire q idx s
  | .stepOpen q idx => Sys2Proof.Machine.execStepOpen q idx s
  | .stepClose q idx => Sys2Proof.Machine.execStepClose q idx s
  | .stepClosure q idx => Sys2Proof.Machine.execStepClosure q idx s
  | .gatherStreamStart ship sec => Sys2Proof.Machine.execGatherStreamStart ship sec s
  | .gatherChunk ship sec => Sys2Proof.Machine.execGatherChunk ship sec s
  | .wsetRegister q idx => Sys2Proof.Machine.execWsetRegister q idx s
  | .wsetLoad q idx => Sys2Proof.Machine.execWsetLoad q idx s
  | .wsetLoadDone wset bad => Sys2Proof.Machine.execWsetLoadDone wset bad s
  | .wsetPin q idx => Sys2Proof.Machine.execWsetPin q idx s
  | .wsetUnpin q idx => Sys2Proof.Machine.execWsetUnpin q idx s
  | .wsetEvict q idx => Sys2Proof.Machine.execWsetEvict q idx s
  | .parcelCreate q idx => Sys2Proof.Machine.execParcelCreate q idx s
  | .parcelResize q idx => Sys2Proof.Machine.execParcelResize q idx s
  | .parcelDestroy q idx => Sys2Proof.Machine.execParcelDestroy q idx s
  | .granuleZeroed q idx => Sys2Proof.Machine.execGranuleZeroed q idx s
  | .townshipLeave ship => Sys2Proof.Machine.execTownshipLeave ship s
  | .platEdit q idx => Sys2Proof.Machine.execPlatEdit q idx s
  | .easeCreate q idx => Sys2Proof.Machine.execEaseCreate q idx s
  | .easeMap q idx => Sys2Proof.Machine.execEaseMap q idx s
  | .easeUnmap q idx => Sys2Proof.Machine.execEaseUnmap q idx s
  | .easeDestroy q idx => Sys2Proof.Machine.execEaseDestroy q idx s
  | .shareSet q idx => Sys2Proof.Machine.execShareSet q idx s
  | .erouteSet q idx parcel entries => Sys2Proof.Machine.execErouteSet q idx parcel entries s
  | .arrayTest q idx => Sys2Proof.Machine.execArrayTest q idx s
  | .arrayTestBlock ship sect block cols mismatch => Sys2Proof.Machine.execArrayTestBlock ship sect block cols mismatch s
  | .arrayTestEnd ship => Sys2Proof.Machine.execArrayTestEnd ship s
  | .slotWindowEnd channel waited grants => Sys2Proof.Machine.execSlotWindowEnd channel waited grants s
  | .slackExpired m => Sys2Proof.Machine.execSlackExpired m s
  | .shrMissClear value => Sys2Proof.Machine.execShrMissClear value s
  | .keyInstall q idx blob => Sys2Proof.Machine.execKeyInstall q idx blob s
  | .keyRetire q idx => Sys2Proof.Machine.execKeyRetire q idx s
  | .confEnter q idx => Sys2Proof.Machine.execConfEnter q idx s
  | .confLeave q idx => Sys2Proof.Machine.execConfLeave q idx s
  | .confidentialLeaveEvent => Sys2Proof.Machine.execConfidentialLeaveEvent s
  | .secretsErase q idx => Sys2Proof.Machine.execSecretsErase q idx s
  | .lcRequest q idx envelope => Sys2Proof.Machine.execLcRequest q idx envelope s
  | .new => Sys2Proof.Machine.execNew s
  | .swap n => Sys2Proof.Machine.execSwap n s
  | .snap => Sys2Proof.Machine.execSnap s
  | .poisonClear page => Sys2Proof.Machine.execPoisonClear page s
  | .predClear ship => Sys2Proof.Machine.execPredClear ship s
  | .atomClear ship => Sys2Proof.Machine.execAtomClear ship s
  | .restart site => Sys2Proof.Machine.execRestart site s
  | .bootCtrlWrite value => Sys2Proof.Machine.execBootCtrlWrite value s
  | .traverseConfigWrite value => Sys2Proof.Machine.execTraverseConfigWrite value s
  | .bar4Read n off len tee => Sys2Proof.Machine.execBar4Read n off len tee s
  | .bar4Write n off bytes tee => Sys2Proof.Machine.execBar4Write n off bytes tee s
  | .busMasterEnable n on => Sys2Proof.Machine.execBusMasterEnable n on s
  | .vfFlr n => Sys2Proof.Machine.execVfFlr n s
  | .pfFlr => Sys2Proof.Machine.execPfFlr s
  | .perst asserted => Sys2Proof.Machine.execPerst asserted s
  | .atsInvalidationRequest n tag pasid page count => Sys2Proof.Machine.execAtsInvalidationRequest n tag pasid page count s
  | .atsTranslationCompletion n tag hostPage read write => Sys2Proof.Machine.execAtsTranslationCompletion n tag hostPage read write s
  | .completionTimeout r => Sys2Proof.Machine.execCompletionTimeout r s
  | .lockInterfaceRequest n => Sys2Proof.Machine.execLockInterfaceRequest n s
  | .tdiError n => Sys2Proof.Machine.execTdiError n s
  | .getMeasurements index nonce => Sys2Proof.Machine.execGetMeasurements index nonce s
  | .challenge nonce => Sys2Proof.Machine.execChallenge nonce s
  | .mlDsaSignatureRequest => Sys2Proof.Machine.execMlDsaSignatureRequest s
  | .ideKm stream set op => Sys2Proof.Machine.execIdeKm stream set op s
  | .measTimeout site => Sys2Proof.Machine.execMeasTimeout site s
  | .measReady site report => Sys2Proof.Machine.execMeasReady site report s
  | .requestUpdate components => Sys2Proof.Machine.execRequestUpdate components s
  | .requestFirmwareData component bytes => Sys2Proof.Machine.execRequestFirmwareData component bytes s
  | .activateFirmware _selfContained => Sys2Proof.Machine.execActivateFirmware _selfContained s
  | .entdaa addr => Sys2Proof.Machine.execEntdaa addr s
  | .setaasa => Sys2Proof.Machine.execSetaasa s
  | .mctpMessage pcie m => Sys2Proof.Machine.execMctpMessage pcie m s
  | .pldmSensorRead id => Sys2Proof.Machine.execPldmSensorRead id s
  | .debugAttach p => Sys2Proof.Machine.execDebugAttach p s
  | .debugDetach p => Sys2Proof.Machine.execDebugDetach p s
  | .debugHalt ship => Sys2Proof.Machine.execDebugHalt ship s
  | .debugResume ship => Sys2Proof.Machine.execDebugResume ship s
  | .mrst => Sys2Proof.Machine.execMrst s
  | .startUp f => Sys2Proof.Machine.execStartUp f s
  | .vin48InRange => Sys2Proof.Machine.execVin48InRange s
  | .benchmarkRecordWrite => Sys2Proof.Machine.execBenchmarkRecordWrite s
  | .vin48Loss => Sys2Proof.Machine.execVin48Loss s
  | .vaux33Loss => Sys2Proof.Machine.execVaux33Loss s
  | .siteResetRelease site => Sys2Proof.Machine.execSiteResetRelease site s
  | .noSideband site => Sys2Proof.Machine.execNoSideband site s
  | .sidebandReady site regs => Sys2Proof.Machine.execSidebandReady site regs s
  | .siteTrainingDone site active half repairs scratch read => Sys2Proof.Machine.execSiteTrainingDone site active half repairs scratch read s
  | .creditExchange site => Sys2Proof.Machine.execCreditExchange site s
  | .siteDown site cause => Sys2Proof.Machine.execSiteDown site cause s
  | .railTrip fault => Sys2Proof.Machine.execRailTrip fault s
  | .flitReceived site seq crcBad nak ctrl slots => Sys2Proof.Machine.execFlitReceived site seq crcBad nak ctrl slots s
  | .controlSlot site word => Sys2Proof.Machine.execControlSlot site word s
  | .replayExhausted site => Sys2Proof.Machine.execReplayExhausted site s
  | .ueSidebandMessage site err => Sys2Proof.Machine.execUeSidebandMessage site err s
  | .blkErrPoll site err => Sys2Proof.Machine.execBlkErrPoll site err s
  | .respUsExpiry site => Sys2Proof.Machine.execRespUsExpiry site s
  | .flush site => Sys2Proof.Machine.execFlush site s
  | .flushDone site => Sys2Proof.Machine.execFlushDone site s
  | .drop site => Sys2Proof.Machine.execDrop site s
  | .dropDone site => Sys2Proof.Machine.execDropDone site s
  | .flushMsExpiry site => Sys2Proof.Machine.execFlushMsExpiry site s
  | .workMessage site => Sys2Proof.Machine.execWorkMessage site s
  | .done site txid st detail result => Sys2Proof.Machine.execDone site txid st detail result s
  | .cancel site => Sys2Proof.Machine.execCancel site s
  | .cancelled site txid who => Sys2Proof.Machine.execCancelled site txid who s
  | .xlate site txid ctx page write => Sys2Proof.Machine.execXlate site txid ctx page write s
  | .xlated site => Sys2Proof.Machine.execXlated site s
  | .xinv site => Sys2Proof.Machine.execXinv site s
  | .xinvack site txid ctx => Sys2Proof.Machine.execXinvack site txid ctx s
  | .domainDown cause parcel dpa unit => Sys2Proof.Machine.execDomainDown cause parcel dpa unit s
  | .recoveryEnd parcel => Sys2Proof.Machine.execRecoveryEnd parcel s
  | .deviceError addr unit kind => Sys2Proof.Machine.execDeviceError addr unit kind s
  | .fieldCoreWatchdog core => Sys2Proof.Machine.execFieldCoreWatchdog core s
  | .datumControllerWatchdog => Sys2Proof.Machine.execDatumControllerWatchdog s
  | .gateRequest g => Sys2Proof.Machine.execGateRequest g s
  | .powerSample hub sites => Sys2Proof.Machine.execPowerSample hub sites s
  | .vceilAdjust => Sys2Proof.Machine.execVceilAdjust s
  | .vceilFastDrop => Sys2Proof.Machine.execVceilFastDrop s
  | .stack3Step => Sys2Proof.Machine.execStack3Step s
  | .floor => Sys2Proof.Machine.execFloor s
  | .sensorRead readings => Sys2Proof.Machine.execSensorRead readings s
  | .thermalCeilingStep => Sys2Proof.Machine.execThermalCeilingStep s
  | .pool f => Sys2Proof.Machine.execPool f s
  | .census f => Sys2Proof.Machine.execCensus f s
  | .throttle f => Sys2Proof.Machine.execThrottle f s
  | .release f => Sys2Proof.Machine.execRelease f s
  | .traverseFrameForward f => Sys2Proof.Machine.execTraverseFrameForward f s
  | .ringLost => Sys2Proof.Machine.execRingLost s
  | .throttleExpiry origin => Sys2Proof.Machine.execThrottleExpiry origin s
  | .throttleOriginate => Sys2Proof.Machine.execThrottleOriginate s
  | .traverseJoin => Sys2Proof.Machine.execTraverseJoin s
  | .bypassClose => Sys2Proof.Machine.execBypassClose s
  | .configurationRequest n c => Sys2Proof.Machine.execConfigurationRequest n c s
  | .tdispMessage n op => Sys2Proof.Machine.execTdispMessage n op s
  | .hostLinkStateChange e => Sys2Proof.Machine.execHostLinkStateChange e s
  | .vaux33PowerOn => Sys2Proof.Machine.execVaux33PowerOn s
  | .siteRailGood site => Sys2Proof.Machine.execSiteRailGood site s

end Sys2Proof.Machine
end

