-- ==== Sys2Proof/WellFormed.lean ====
section
/-! DEFINITION. The well-formed commands: operands inside the ranges that the spec numbers its units by. A command outside them is none that
a sender of the hub can make; the meanings are total all the same. -/

namespace Sys2Proof

/-- A global thread number (R22). -/
def wfThread (t : Nat) : Bool := decide (t < 2 ^ 22)
/-- A queue number: 16,384 queues. -/
def wfQueue (q : Nat) : Bool := decide (q < 16384)
/-- A logical township. -/
def wfShip (t : Nat) : Bool := decide (t < 256)
/-- A section of a township, or a core of a section. -/
def wfSec (k : Nat) : Bool := decide (k < 64)
/-- A scratchpad bank (R211), or 16 for the dual-port region (R218). -/
def wfBank (b : Nat) : Bool := decide (b < 17)
/-- A chiplet site. -/
def wfSite (n : Nat) : Bool := decide (n < 8)
/-- A PCIe function: the PF or one of 63 VFs (R374). -/
def wfFn (n : Nat) : Bool := decide (n < 64)
/-- A memory channel. -/
def wfChannel (c : Nat) : Bool := decide (c < 384)
/-- A channel-pair engine. -/
def wfEngine (e : Nat) : Bool := decide (e < 192)
/-- An HBM stack. -/
def wfStack (k : Nat) : Bool := decide (k < 12)
/-- A 64 KiB page of the 40-bit HBM window. -/
def wfPage (p : Nat) : Bool := decide (p < 2 ^ 24)
/-- A parcel. -/
def wfParcel (p : Nat) : Bool := decide (p < 16)
/-- A station of the traverse ring. -/
def wfOrigin (o : Nat) : Bool := decide (o < 256)
/-- An IDE stream: the Link IDE stream or one of four Selective IDE streams (R393). -/
def wfStream (k : Nat) : Bool := decide (k < 5)
/-- A TXID (Table 12-3). -/
def wfTxid (x : Nat) : Bool := decide (x < 4096)
/-- An offset of the 64 MiB of BAR0. -/
def wfOff (o : Nat) : Bool := decide (o < 2 ^ 26)
/-- A condition of cmp (Table 03-5). -/
def knownCmp (c : Nat) : Bool := decide (c < 6) || (decide (8 ≤ c) && decide (c < 12))

/-- A party: functions are numbered. -/
def Party.wf : Party → Bool
  | .fn n => wfFn n
  | .fieldCores => true
  | .datum => true

/-- An end of a message (R266): 288 agents, 384 homes, 15 hub endpoints. -/
def Node.wf : Node → Bool
  | .agent a => decide (a < 288)
  | .home c => decide (c < 384)
  | .hub e => decide (e < 15)

/-- A coherence message between ends that exist, with a parcel tag and a TXID. -/
def Msg.wf (m : Msg) : Bool := m.src.wf && m.dst.wf && m.req.wf && decide (m.tag ≤ 16) && wfTxid m.txid

/-- A token message between ends that exist. -/
def Tok.wf (m : Tok) : Bool := m.src.wf && m.dst.wf && decide (m.tag ≤ 16) && decide (m.expert < 4096)

/-- A held packet. -/
def Pkt.wf : Pkt → Bool
  | .coh m => m.wf
  | .tok m => m.wf

/-- A fault of a rail, at a site that exists. -/
def RailFault.wf : RailFault → Bool
  | .over n => wfSite n
  | .under n => wfSite n

/-- Whether a command is well formed.
(DESIGN CHOICE: log entry 86.) -/
def Instr.wf (i : Instr) : Bool :=
  match i with
  | .add t _ | .sub t _ | .and t _ | .or t _ | .xor t _ | .sll t _ | .srl t _ | .sra t _ | .mul t _ | .mulh t _ | .mulhu t _ | .min t _
  | .max t _ | .minu t _ | .maxu t _ | .addi t _ | .andi t _ | .ori t _ | .xori t _ | .shi t _ | .movi t _ | .cmpi t _ | .pand t _ | .por t _
  | .pxor t _ | .pandn t _ | .pnot t _ | .pset t _ | .pclr t _ | .sel t _ | .fadd t _ | .fsub t _ | .fmul t _ | .ffma t _ | .fmin t _
  | .fmax t _ | .frcp t _ | .frsq t _ | .fexp2 t _ | .fcvtI t _ | .fcvtF t _ | .fabs t _ | .fneg t _ | .ld t _ | .st t _ | .ldl t _ | .stl t _
  | .vld t _ | .vst t _ | .vldl t _ | .vstl t _ | .vldx t _ | .vstx t _ | .atom t _ | .atoml t _ | .vmac t _ | .vmacc t _ | .aclr t _
  | .amovf t _ | .amovt t _ | .ascl t _ | .aadd t _ | .amax t _ | .aexp2 t _ | .arcp t _ | .ared t _ | .armax t _ | .aired t _ | .acvt t _
  | .vmov t _ | .vbc t _ | .vext t _ | .vins t _ | .vzero t _ | .gtopk t _ | .dspt t _ | .drecv t _ | .dret t _ | .fence t _ | .fsig t _
  | .fwait t _ | .bar t _ | .evpost t _ | .br t _ | .jal t _ | .jr t _ | .endThread t _ | .nopInstruction t _ | .wrsr t _ | .fwaitSatisfied t
  | .barRelease t | .dsptAccepted t => wfThread t
  | .cmp t cond _ => wfThread t && knownCmp cond.toNat
  | .gnorm t fn _ => wfThread t && decide (fn.toNat < 2)
  | .rdsr t sr _ => wfThread t && decide (sr.toNat < 7)
  | .threadIssue ship sec core | .macOccupationEnd ship sec core => wfShip ship && wfSec sec && wfSec core
  | .loadDataReturn _ _ | .hostError _ | .launchComplete _ | .layerSettled _ | .hbmReadBurst _ _ | .sliceEnd _ | .restore _ | .launchPlaced _
  | .starve _ | .wsetLoadDone _ _ | .shrMissClear _ | .confidentialLeaveEvent | .new | .snap | .bootCtrlWrite _ | .traverseConfigWrite _
  | .pfFlr | .perst _ | .completionTimeout _ | .getMeasurements _ _ | .challenge _ | .mlDsaSignatureRequest | .requestUpdate _
  | .activateFirmware _ | .entdaa _ | .setaasa | .mctpMessage _ _ | .pldmSensorRead _ | .debugAttach _ | .debugDetach _ | .mrst | .startUp _
  | .vin48InRange | .benchmarkRecordWrite | .vin48Loss | .vaux33Loss | .deviceError _ _ _ | .fieldCoreWatchdog _ | .datumControllerWatchdog
  | .gateRequest _ | .powerSample _ _ | .vceilAdjust | .vceilFastDrop | .stack3Step | .floor | .sensorRead _ | .thermalCeilingStep | .pool _
  | .census _ | .throttle _ | .release _ | .traverseFrameForward _ | .ringLost | .throttleOriginate | .traverseJoin | .bypassClose
  | .hostLinkStateChange _ | .vaux33PowerOn => true
  | .scratchpadBankArbitration ship sec bank => wfShip ship && wfSec sec && wfBank bank
  | .raisedRequest ship sec _ | .gatherStreamStart ship sec | .gatherChunk ship sec => wfShip ship && wfSec sec
  | .tcopy m | .admitCopy m | .refuse m | .room m | .confirm m | .refute m | .tret m | .rds m | .rdx m | .upg m | .rdu m | .wru m | .atn m
  | .fwds m | .fwdx m | .inv m | .rcl m | .data m | .datah m | .wb m | .atr m | .invack m | .cmpack m | .wback m | .uack m | .specwait m
  | .aged m | .slackExpired m => m.wf
  | .holdExpired ship _ | .headerResend ship _ | .townshipSleep ship | .ledgerAnswer ship _ | .townshipLeave ship | .arrayTestBlock ship _ _ _ _
  | .arrayTestEnd ship | .predClear ship | .atomClear ship | .debugHalt ship | .debugResume ship => wfShip ship
  | .wake p => p.wf
  | .wakeDone engine n => (if engine then wfEngine n else wfShip n)
  | .selfRefreshEntry engine => wfEngine engine
  | .poisonReloadStart page | .poisonReloadDone page | .poisonReloadFail page | .poisonClear page => wfPage page
  | .refreshStepChange stack _ => wfStack stack
  | .retrainTrigger channel _ | .sliceStart channel | .channelFailed channel | .mapoutNext channel | .retrain channel
  | .slotWindowEnd channel _ _ => wfChannel channel
  | .commitApply p off | .commitDiscard p off | .commitRejectedClear p off | .registerWrite p off _ _ _ | .rcRead p off _ _ _ => p.wf && wfOff off
  | .commitApplied off _ | .badAccess off _ _ _ => wfOff off
  | .doorbell n page _ _ _ => wfFn n && decide (page < 4096)
  | .commandFetch q _ | .ringFetchFail q | .commandStart q | .statusReply q _ | .nop q _ | .fenceSignal q _ | .fenceWait q _
  | .fenceWaitSatisfied q _ | .fqCreate q _ | .groupCreate q _ | .groupDestroy q _ | .queueCreate q _ | .queueDestroy q _ | .queueStop q _
  | .queueStopped q _ | .queueResume q _ | .ctxCreate q _ | .ctxRetire q _ | .ctxInvalidate q _ | .memCreate q _ | .memHold q _ | .memFree q _
  | .memQuery q _ | .fenceCreate q _ | .fenceFree q _ | .launch q _ | .copy q _ | .fill q _ | .copyPiece q _ | .work q _ | .workSent q _
  | .seqAdmit q _ | .seqRetire q _ | .stepOpen q _ | .stepClose q _ | .stepClosure q _ | .wsetRegister q _ | .wsetLoad q _ | .wsetPin q _
  | .wsetUnpin q _ | .wsetEvict q _ | .parcelCreate q _ | .parcelResize q _ | .parcelDestroy q _ | .granuleZeroed q _ | .platEdit q _
  | .easeCreate q _ | .easeMap q _ | .easeUnmap q _ | .easeDestroy q _ | .shareSet q _ | .arrayTest q _ | .keyInstall q _ _ | .keyRetire q _
  | .confEnter q _ | .confLeave q _ | .secretsErase q _ | .lcRequest q _ _ => wfQueue q
  | .erouteSet q _ parcel _ => wfQueue q && wfParcel parcel
  | .swap n | .bar4Read n _ _ _ | .bar4Write n _ _ _ | .busMasterEnable n _ | .vfFlr n | .atsInvalidationRequest n _ _ _ _
  | .atsTranslationCompletion n _ _ _ _ | .lockInterfaceRequest n | .tdiError n | .configurationRequest n _ | .tdispMessage n _ => wfFn n
  | .restart site | .measTimeout site | .measReady site _ | .siteResetRelease site | .noSideband site | .sidebandReady site _
  | .siteTrainingDone site _ _ _ _ _ | .creditExchange site | .siteDown site _ | .flitReceived site _ _ _ _ _
  | .controlSlot site _ | .replayExhausted site | .ueSidebandMessage site _ | .blkErrPoll site _ | .respUsExpiry site | .flush site
  | .flushDone site | .drop site | .dropDone site | .flushMsExpiry site | .workMessage site | .cancel site | .xlated site | .xinv site
  | .siteRailGood site => wfSite site
  | .railTrip x => x.wf
  | .ideKm stream _ _ => wfStream stream
  | .requestFirmwareData component _ => decide (1 ≤ component) && decide (component ≤ 3)
  | .done site txid _ _ _ | .cancelled site txid _ | .xinvack site txid _ => wfSite site && wfTxid txid
  | .xlate site txid _ page _ => wfSite site && wfTxid txid && decide (page < 2 ^ 36)
  | .domainDown cause _ _ _ => decide (3 ≤ cause) && decide (cause ≤ 8)
  | .recoveryEnd parcel => wfParcel parcel
  | .throttleExpiry origin => wfOrigin origin

end Sys2Proof
end

