-- ==== Sys2Proof/Machine/ThreadEncode.lean ====
section
/-! DEFINITION. The words of thread instructions built from their fields, from the same table as the decoder (Table 03-3): the major opcode
in [31:26], d in [25:22], a in [21:18], b or the kind in [17:14], and below them func and the modifier, or the immediate. -/

namespace Sys2Proof.Machine

/-- A word of format A: func in [13:8], the modifier in [7:0]. -/
def encA (m fn : BitVec 6) (f : FmtA) : W32 := m ++ f.d ++ f.a ++ f.b ++ fn ++ f.md
/-- A word of format I: the immediate in [13:0]. -/
def encI (m : BitVec 6) (f : FmtI) : W32 := m ++ f.d ++ f.a ++ f.b ++ f.imm
/-- A word of format M: the kind in [17:14], the offset in [13:0]. -/
def encM (m : BitVec 6) (f : FmtM) : W32 := m ++ f.d ++ f.a ++ f.kind ++ f.imm
/-- The first word of format E. -/
def encE (m : BitVec 6) (f : FmtE) : W32 := m ++ f.d ++ f.a ++ f.b ++ f.imm

/-- The word and the second word (zero where there is none) of a thread instruction; none for a command of another kind. -/
def encodeThread (i : Instr) : Option (W32 × W32) :=
  match i with
  | .add _ f => some (encA 0x01 0x00 f, 0)
  | .sub _ f => some (encA 0x01 0x01 f, 0)
  | .and _ f => some (encA 0x01 0x02 f, 0)
  | .or _ f => some (encA 0x01 0x03 f, 0)
  | .xor _ f => some (encA 0x01 0x04 f, 0)
  | .sll _ f => some (encA 0x01 0x05 f, 0)
  | .srl _ f => some (encA 0x01 0x06 f, 0)
  | .sra _ f => some (encA 0x01 0x07 f, 0)
  | .mul _ f => some (encA 0x01 0x08 f, 0)
  | .mulh _ f => some (encA 0x01 0x09 f, 0)
  | .mulhu _ f => some (encA 0x01 0x0A f, 0)
  | .min _ f => some (encA 0x01 0x0B f, 0)
  | .max _ f => some (encA 0x01 0x0C f, 0)
  | .minu _ f => some (encA 0x01 0x0D f, 0)
  | .maxu _ f => some (encA 0x01 0x0E f, 0)
  | .addi _ f => some (encI 0x02 f, 0)
  | .andi _ f => some (encI 0x03 f, 0)
  | .ori _ f => some (encI 0x04 f, 0)
  | .xori _ f => some (encI 0x05 f, 0)
  | .shi _ f => some (encI 0x06 f, 0)
  | .movi _ f => some (encE 0x07 f, f.ext)
  | .fadd _ f => some (encA 0x08 0x00 f, 0)
  | .fsub _ f => some (encA 0x08 0x01 f, 0)
  | .fmul _ f => some (encA 0x08 0x02 f, 0)
  | .ffma _ f => some (encA 0x08 0x03 f, 0)
  | .fmin _ f => some (encA 0x08 0x04 f, 0)
  | .fmax _ f => some (encA 0x08 0x05 f, 0)
  | .frcp _ f => some (encA 0x08 0x06 f, 0)
  | .frsq _ f => some (encA 0x08 0x07 f, 0)
  | .fexp2 _ f => some (encA 0x08 0x08 f, 0)
  | .fcvtI _ f => some (encA 0x08 0x09 f, 0)
  | .fcvtF _ f => some (encA 0x08 0x0A f, 0)
  | .fabs _ f => some (encA 0x08 0x0B f, 0)
  | .fneg _ f => some (encA 0x08 0x0C f, 0)
  | .cmp _ c f => some (encA 0x09 c f, 0)
  | .cmpi _ f => some (encI 0x0A f, 0)
  | .pand _ f => some (encA 0x0B 0x00 f, 0)
  | .por _ f => some (encA 0x0B 0x01 f, 0)
  | .pxor _ f => some (encA 0x0B 0x02 f, 0)
  | .pandn _ f => some (encA 0x0B 0x03 f, 0)
  | .pnot _ f => some (encA 0x0B 0x04 f, 0)
  | .pset _ f => some (encA 0x0B 0x05 f, 0)
  | .pclr _ f => some (encA 0x0B 0x06 f, 0)
  | .sel _ f => some (encA 0x0C 0 f, 0)
  | .ld _ f => some (encM 0x10 f, 0)
  | .st _ f => some (encM 0x11 f, 0)
  | .ldl _ f => some (encM 0x12 f, 0)
  | .stl _ f => some (encM 0x13 f, 0)
  | .vld _ f => some (encM 0x14 f, 0)
  | .vst _ f => some (encM 0x15 f, 0)
  | .vldl _ f => some (encM 0x16 f, 0)
  | .vstl _ f => some (encM 0x17 f, 0)
  | .vldx _ f => some (encE 0x18 f, f.ext)
  | .vstx _ f => some (encE 0x19 f, f.ext)
  | .atom _ f => some (encE 0x1A f, f.ext)
  | .atoml _ f => some (encE 0x1B f, f.ext)
  | .vmac _ f => some (encE 0x20 f, f.ext)
  | .vmacc _ f => some (encE 0x21 f, f.ext)
  | .aclr _ f => some (encA 0x22 0x00 f, 0)
  | .amovf _ f => some (encA 0x22 0x01 f, 0)
  | .amovt _ f => some (encA 0x22 0x02 f, 0)
  | .ascl _ f => some (encA 0x22 0x03 f, 0)
  | .aadd _ f => some (encA 0x22 0x04 f, 0)
  | .amax _ f => some (encA 0x22 0x05 f, 0)
  | .aexp2 _ f => some (encA 0x22 0x06 f, 0)
  | .arcp _ f => some (encA 0x22 0x07 f, 0)
  | .ared _ f => some (encA 0x22 0x08 f, 0)
  | .armax _ f => some (encA 0x22 0x09 f, 0)
  | .aired _ f => some (encA 0x22 0x0A f, 0)
  | .acvt _ f => some (encE 0x23 f, f.ext)
  | .vmov _ f => some (encA 0x24 0x00 f, 0)
  | .vbc _ f => some (encA 0x24 0x01 f, 0)
  | .vext _ f => some (encA 0x24 0x02 f, 0)
  | .vins _ f => some (encA 0x24 0x03 f, 0)
  | .vzero _ f => some (encA 0x24 0x04 f, 0)
  | .gtopk _ f => some (encE 0x28 f, f.ext)
  | .gnorm _ n f => some (encA 0x29 n f, 0)
  | .dspt _ f => some (encE 0x2A f, f.ext)
  | .drecv _ f => some (encE 0x2B f, f.ext)
  | .dret _ f => some (encE 0x2C f, f.ext)
  | .fence _ f => some (encA 0x30 0 f, 0)
  | .fsig _ f => some (encE 0x31 f, f.ext)
  | .fwait _ f => some (encE 0x32 f, f.ext)
  | .bar _ f => some (encA 0x33 0 f, 0)
  | .evpost _ f => some (encI 0x34 f, 0)
  | .br _ f => some (encI 0x38 f, 0)
  | .jal _ f => some (encE 0x39 f, f.ext)
  | .jr _ f => some (encA 0x3A 0 f, 0)
  | .endThread _ f => some (encA 0x3B 0 f, 0)
  | .nopInstruction _ f => some (encA 0x3C 0 f, 0)
  | .rdsr _ r f => some (encA 0x3D r f, 0)
  | .wrsr _ f => some (encA 0x3D 0x20 f, 0)
  | _ => none

/-- The thread that issues an instruction. -/
def threadOf (i : Instr) : Nat :=
  match i with
  | .add t _ => t
  | .sub t _ => t
  | .and t _ => t
  | .or t _ => t
  | .xor t _ => t
  | .sll t _ => t
  | .srl t _ => t
  | .sra t _ => t
  | .mul t _ => t
  | .mulh t _ => t
  | .mulhu t _ => t
  | .min t _ => t
  | .max t _ => t
  | .minu t _ => t
  | .maxu t _ => t
  | .addi t _ => t
  | .andi t _ => t
  | .ori t _ => t
  | .xori t _ => t
  | .shi t _ => t
  | .movi t _ => t
  | .fadd t _ => t
  | .fsub t _ => t
  | .fmul t _ => t
  | .ffma t _ => t
  | .fmin t _ => t
  | .fmax t _ => t
  | .frcp t _ => t
  | .frsq t _ => t
  | .fexp2 t _ => t
  | .fcvtI t _ => t
  | .fcvtF t _ => t
  | .fabs t _ => t
  | .fneg t _ => t
  | .cmp t _ _ => t
  | .cmpi t _ => t
  | .pand t _ => t
  | .por t _ => t
  | .pxor t _ => t
  | .pandn t _ => t
  | .pnot t _ => t
  | .pset t _ => t
  | .pclr t _ => t
  | .sel t _ => t
  | .ld t _ => t
  | .st t _ => t
  | .ldl t _ => t
  | .stl t _ => t
  | .vld t _ => t
  | .vst t _ => t
  | .vldl t _ => t
  | .vstl t _ => t
  | .vldx t _ => t
  | .vstx t _ => t
  | .atom t _ => t
  | .atoml t _ => t
  | .vmac t _ => t
  | .vmacc t _ => t
  | .aclr t _ => t
  | .amovf t _ => t
  | .amovt t _ => t
  | .ascl t _ => t
  | .aadd t _ => t
  | .amax t _ => t
  | .aexp2 t _ => t
  | .arcp t _ => t
  | .ared t _ => t
  | .armax t _ => t
  | .aired t _ => t
  | .acvt t _ => t
  | .vmov t _ => t
  | .vbc t _ => t
  | .vext t _ => t
  | .vins t _ => t
  | .vzero t _ => t
  | .gtopk t _ => t
  | .gnorm t _ _ => t
  | .dspt t _ => t
  | .drecv t _ => t
  | .dret t _ => t
  | .fence t _ => t
  | .fsig t _ => t
  | .fwait t _ => t
  | .bar t _ => t
  | .evpost t _ => t
  | .br t _ => t
  | .jal t _ => t
  | .jr t _ => t
  | .endThread t _ => t
  | .nopInstruction t _ => t
  | .rdsr t _ _ => t
  | .wrsr t _ => t
  | _ => 0

end Sys2Proof.Machine
end

