-- ==== Sys2Proof/Safety.lean ====
section
/-! DEFINITION. The terms in which claims about the hub are stated: a thread that can issue, what an instruction that only writes
registers leaves, a command that runs on its queue, and the parts of the state that are plain tables. -/

namespace Sys2Proof.Machine

/-! ### Threads -/

/-- A thread that can issue and has no pending write in the registers that an instruction names (R95, R96). -/
abbrev State.canRun (s : State) (t : Nat) (th : Thread) (u : Uses) : Prop :=
  s.canIssue t = true ∧ s.threads.get? t = some th ∧ th.free u = true

/-- A thread that can issue, is not speculative, and has no pending write in the registers that an instruction names (R95, R96). -/
abbrev State.ready (s : State) (t : Nat) (th : Thread) (u : Uses) : Prop :=
  s.canIssue t = true ∧ s.threads.get? t = some th ∧ th.spec = none ∧ th.free u = true

/-- A thread after register writes under the visibility rule: a speculative one logs what it writes for the first time, and there is none where its
slot has no room for that (Table 05-5, R164, R166). -/
def Thread.write? (th : Thread) (e : Eff) : Option Thread :=
  match th.spec with
  | none => some (th.apply e)
  | some sp =>
    if logCost (th.logged sp.log e) ≤ 64 then some { th.apply e with spec := some { sp with log := th.logged sp.log e } } else none

/-- Whether the log of a speculative thread has still to take its accumulators, and what a MAC instruction writes with that (Table 05-7). -/
def Thread.logsAcc (th : Thread) : Bool := th.spec.any (fun sp => !hasAcc sp.log)
def Thread.macEff (th : Thread) (e : Eff) : Eff := if th.logsAcc then { e with a := some th.a } else e

/-- The state after an instruction that writes registers and nothing else and goes on at pc; a speculative thread whose slot is full waits for its
closure instead. -/
def State.wroteAt (s : State) (t : Nat) (th : Thread) (e : Eff) (pc : BitVec 52) : State :=
  match th.write? e with
  | some x => s.setThread t { x with pc := pc }
  | none => s.setThread t { th with wait := .closure }

/-- The same for an instruction of n bytes that is no jump. -/
def State.wrote (s : State) (t : Nat) (th : Thread) (e : Eff) (n : Nat) : State := s.wroteAt t th e (th.pc + BitVec.ofNat 52 n)

/-- The state after a store, a dret or another logged action of a speculative thread, with what it writes in registers: in its log, or the wait
for its closure where the slot is full (Table 05-5, Table 05-7). -/
def State.loggedAt (s : State) (t : Nat) (th : Thread) (sp : Spec) (e : Eff) (i : SpecItem) (n : Nat) : State :=
  let log := i :: th.logged sp.log e
  if logCost log ≤ 64 then s.setThread t { th.apply e with spec := some { sp with log := log }, pc := th.pc + BitVec.ofNat 52 n }
  else s.setThread t { th with wait := .closure }

/-- The state after a jump. -/
def State.jumped (s : State) (t : Nat) (th : Thread) (pc : BitVec 52) : State := s.setThread t { th with pc := pc }

/-- A thread whose accumulators are settled: its core's MAC vector is free and no product is pending (R98). -/
abbrev State.settledAcc (s : State) (t : Nat) (th : Thread) : Prop := (s.core (coreOf t)).mac = none ∧ th.prods = []

/-! ### Commands on queues -/

/-- A command of an opcode that has started on a queue and waits for its meaning: the queue and the command. -/
abbrev State.runs (s : State) (q i op : Nat) (x : Queue) (c : Cmd) : Prop :=
  s.queues.get? q = some x ∧ x.cmds.get? i = some c ∧ c.st = .started ∧ c.opcode = op

/-- A command of an opcode that is being served, with what it remembers. -/
abbrev State.serves (s : State) (q i op : Nat) (x : Queue) (c : Cmd) (d : List Nat) : Prop :=
  s.queues.get? q = some x ∧ x.cmds.get? i = some c ∧ c.st = .serving d ∧ c.opcode = op

/-- The request that a command of a queue makes. -/
abbrev State.req (s : State) (q i : Nat) (x : Queue) (c : Cmd) : Req :=
  ⟨q, i, x.fn, (s.ctxs.get? (c.context % 4096)).map (fun y => (c.context % 4096, y)), c.pkt⟩

/-- The context that a command names. -/
abbrev State.named (s : State) (c : Cmd) (n : Nat) (x : Context) : Prop := n = c.context % 4096 ∧ s.ctxs.get? n = some x

end Sys2Proof.Machine
end

