-- ==== Sys2Proof/Certificates/Slice0/Obligations.lean ====
section
/-! DEFINITION. The statements about the hub for the provers, by family of commands. -/

open Sys2Proof Sys2Proof.Machine

/-- A step takes the command at the front of the queue and runs it on the state with the queue's rest (00_scope.md,
14_commands_shared_objects.md). Where it goes beyond the rules it rests on the model's choices of log entry 1. -/
def Obligations.StepRunsTheFrontCommand : Prop :=
  (∀ (c : Instr) (r : List Instr) (s : State), s.pending = c :: r → step s = exec c { s with pending := r }) ∧
  (∀ s : State, s.pending = [] → step s = .next s)

/-- Scalar registers read what was last written, s0 reads as zero and discards writes, other registers are unchanged
(03_thread_instruction_set.md). -/
def Obligations.RegisterFileReadsWhatIsWritten : Prop :=
  (∀ (th : Thread) (d r : Nat) (x : W32), th.s.length = 16 → d < 16 →
    (th.apply (Eff.sc d x)).sr r = (if r = 0 then 0 else if r = d then x else th.sr r)) ∧
  (∀ (th : Thread) (p : Nat) (x : Nat), th.s.length = 16 → p % 2 = 0 → p < 16 → x < 2 ^ 64 →
    (th.apply (Eff.pr p x)).pr p = (if p = 0 then 0 else x)) ∧
  (∀ (th : Thread) (d : Nat) (x : W32),
    let t := th.apply (Eff.sc d x)
    t.v = th.v ∧ t.a = th.a ∧ t.p = th.p ∧ t.gen = th.gen ∧ t.pc = th.pc ∧ t.spec = th.spec ∧ t.pend = th.pend) ∧
  (∀ (th : Thread) (d r : Nat) (b : Bool), d < 4 → r < 4 →
    (th.apply (Eff.pd th d b)).pred r = (if r = d then b else th.pred r))

/-- The scalar integer instructions of two registers or of one and an immediate write their result to d, and nothing else
(R81, R96, R100, 03_thread_instruction_set.md). Where it goes beyond the rules it rests on the model's choices of log
entries 13, 15. -/
def Obligations.ScalarIntegerInstructions : Prop :=
  (∀ (s : State) (t : Nat) (th : Thread) (f : FmtA), s.canRun t th [.s f.a.toNat, .s f.b.toNat, .s f.d.toNat] → f.md = 0 →
    let a := th.sr f.a.toNat
    let b := th.sr f.b.toNat
    let d (x : W32) : Host.Outcome State Fault Refusal := .next (s.wrote t th (Eff.sc f.d.toNat x) 4)
    exec (.add t f) s = d (a + b) ∧ exec (.sub t f) s = d (a - b) ∧ exec (.and t f) s = d (a &&& b) ∧
    exec (.or t f) s = d (a ||| b) ∧ exec (.xor t f) s = d (a ^^^ b) ∧
    exec (.sll t f) s = d (a <<< (b.toNat % 32)) ∧ exec (.srl t f) s = d (a >>> (b.toNat % 32)) ∧
    exec (.sra t f) s = d (a.sshiftRight (b.toNat % 32)) ∧ exec (.mul t f) s = d (a * b) ∧
    exec (.mulh t f) s = d (BitVec.ofInt 32 (a.toInt * b.toInt / 2 ^ 32)) ∧
    exec (.mulhu t f) s = d (BitVec.ofNat 32 (a.toNat * b.toNat / 2 ^ 32)) ∧
    exec (.min t f) s = d (if b.slt a then b else a) ∧ exec (.max t f) s = d (if a.slt b then b else a) ∧
    exec (.minu t f) s = d (if b.ult a then b else a) ∧ exec (.maxu t f) s = d (if a.ult b then b else a)) ∧
  (∀ (s : State) (t : Nat) (th : Thread) (f : FmtI), s.canRun t th [.s f.a.toNat, .s f.d.toNat] → f.b = 0 →
    let a := th.sr f.a.toNat
    let d (x : W32) : Host.Outcome State Fault Refusal := .next (s.wrote t th (Eff.sc f.d.toNat x) 4)
    exec (.addi t f) s = d (a + f.imm.signExtend 32) ∧ exec (.andi t f) s = d (a &&& f.imm.zeroExtend 32) ∧
    exec (.ori t f) s = d (a ||| f.imm.zeroExtend 32) ∧ exec (.xori t f) s = d (a ^^^ f.imm.zeroExtend 32) ∧
    (fld f.imm.toNat 11 5 = 0 → fld f.imm.toNat 13 12 = 0 → exec (.shi t f) s = d (a <<< fld f.imm.toNat 4 0)) ∧
    (fld f.imm.toNat 11 5 = 0 → fld f.imm.toNat 13 12 = 1 → exec (.shi t f) s = d (a >>> fld f.imm.toNat 4 0)) ∧
    (fld f.imm.toNat 11 5 = 0 → fld f.imm.toNat 13 12 = 2 → exec (.shi t f) s = d (a.sshiftRight (fld f.imm.toNat 4 0)))) ∧
  (∀ (s : State) (t : Nat) (th : Thread) (f : FmtE), s.canRun t th [.s f.d.toNat] → f.a = 0 → f.b = 0 → f.imm = 0 →
    exec (.movi t f) s = .next (s.wrote t th (Eff.sc f.d.toNat f.ext) 8))

/-- Comparisons, predicate logic and sel write their predicate or register and step past their word (R96,
03_thread_instruction_set.md). Where it goes beyond the rules it rests on the model's choices of log entries 13, 15. -/
def Obligations.PredicateInstructions : Prop :=
  (∀ (s : State) (t : Nat) (th : Thread) (c : BitVec 6) (f : FmtA) (r : Bool),
    s.canRun t th [.s f.a.toNat, .s f.b.toNat, .p f.d.toNat] → f.d.toNat < 4 → f.md = 0 →
    cmpCond c.toNat (th.sr f.a.toNat) (th.sr f.b.toNat) = some r →
    exec (.cmp t c f) s = .next (s.wrote t th (Eff.pd th f.d.toNat r) 4)) ∧
  (∀ (s : State) (t : Nat) (th : Thread) (f : FmtI) (r : Bool), s.canRun t th [.s f.a.toNat, .p f.d.toNat] → f.d.toNat < 4 →
    f.b.toNat < 6 → cmpCond f.b.toNat (th.sr f.a.toNat) (f.imm.signExtend 32) = some r →
    exec (.cmpi t f) s = .next (s.wrote t th (Eff.pd th f.d.toNat r) 4)) ∧
  (∀ (s : State) (t : Nat) (th : Thread) (f : FmtA), s.canRun t th [.p f.a.toNat, .p f.b.toNat, .p f.d.toNat] →
    f.d.toNat < 4 → f.a.toNat < 4 → f.b.toNat < 4 → f.md = 0 →
    let a := th.pred f.a.toNat
    let b := th.pred f.b.toNat
    let d (x : Bool) : Host.Outcome State Fault Refusal := .next (s.wrote t th (Eff.pd th f.d.toNat x) 4)
    exec (.pand t f) s = d (a && b) ∧ exec (.por t f) s = d (a || b) ∧ exec (.pxor t f) s = d (a != b) ∧
    exec (.pandn t f) s = d (a && !b) ∧ (f.b = 0 → exec (.pnot t f) s = d (!a)) ∧
    (f.a = 0 → f.b = 0 → exec (.pset t f) s = d true ∧ exec (.pclr t f) s = d false)) ∧
  (∀ (s : State) (t : Nat) (th : Thread) (f : FmtA),
    s.canRun t th [.s f.a.toNat, .s f.b.toNat, .s f.d.toNat, .p (fld f.md.toNat 1 0)] → fld f.md.toNat 7 3 = 0 →
    exec (.sel t f) s = .next (s.wrote t th (Eff.sc f.d.toNat
      (if th.pred (fld f.md.toNat 1 0) != f.md.toNat.testBit 2 then th.sr f.a.toNat else th.sr f.b.toNat)) 4))

/-- The scalar FP32 instructions write their result to d and step past their word (R116, R108, R96). Where it goes beyond
the rules it rests on the model's choices of log entries 13, 15, 16. -/
def Obligations.ScalarFloatInstructions : Prop :=
  ∀ (s : State) (t : Nat) (th : Thread) (f : FmtA), s.canRun t th [.s f.a.toNat, .s f.b.toNat, .s f.d.toNat] → f.md = 0 →
    let a := th.sr f.a.toNat
    let b := th.sr f.b.toNat
    let d (x : W32) : Host.Outcome State Fault Refusal := .next (s.wrote t th (Eff.sc f.d.toNat x) 4)
    exec (.fadd t f) s = d (f32Add a b) ∧ exec (.fsub t f) s = d (f32Sub a b) ∧ exec (.fmul t f) s = d (f32Mul a b) ∧
    exec (.fmin t f) s = d (f32Min a b) ∧ exec (.fmax t f) s = d (f32Max a b) ∧
    exec (.ffma t f) s = d (f32Fma (th.sr f.d.toNat) a b) ∧
    (f.b = 0 →
      exec (.frcp t f) s = d (f32Rcp (Config.frcp a) a) ∧ exec (.frsq t f) s = d (f32Rsq (Config.frsq a) a) ∧
      exec (.fexp2 t f) s = d (f32Exp2 (Config.fexp2 a) a) ∧ exec (.fcvtI t f) s = d (f32ToInt a) ∧
      exec (.fcvtF t f) s = d (intToF32 a) ∧ exec (.fabs t f) s = d (a &&& 0x7FFFFFFF#32) ∧
      exec (.fneg t f) s = d (a ^^^ 0x80000000#32))

/-- The accumulator instructions act on all 16 accumulators of a settled thread, or reduce them into d (R98, R116, R117,
R104, R123). Where it goes beyond the rules it rests on the model's choices of log entries 13, 15, 16. -/
def Obligations.AccumulatorInstructions : Prop :=
  (∀ (s : State) (t : Nat) (th : Thread) (f : FmtA), s.canRun t th [.v f.a.toNat, .s f.a.toNat, .s f.d.toNat, .v f.d.toNat] →
    s.settledAcc t th → f.b = 0 → f.md = 0 →
    let v := (th.vr f.a.toNat).data
    let w (g : Nat → W32) : Host.Outcome State Fault Refusal := .next (s.wrote t th (Eff.accs ((upTo 16).map g)) 4)
    (f.d = 0 → f.a = 0 → exec (.aclr t f) s = w (fun _ => 0) ∧
      exec (.aexp2 t f) s = w (fun j => f32Exp2 (Config.fexp2 (th.acc j)) (th.acc j)) ∧
      exec (.arcp t f) s = w (fun j => f32Rcp (Config.frcp (th.acc j)) (th.acc j))) ∧
    (f.d = 0 → exec (.ascl t f) s = w (fun j => f32Mul (th.acc j) (th.sr f.a.toNat))) ∧
    (f.d = 0 → f.a.toNat < 4 → exec (.amovf t f) s = w (fun j => vword v j) ∧
      exec (.aadd t f) s = w (fun j => f32Add (th.acc j) (vword v j)) ∧
      exec (.amax t f) s = w (fun j => f32Max (th.acc j) (vword v j))) ∧
    (f.a = 0 → f.d.toNat < 4 →
      exec (.amovt t f) s = .next (s.wrote t th (Eff.vec f.d.toNat (VReg.write .fp32 (vdataOfWords th.acc))) 4)) ∧
    (f.a = 0 → exec (.ared t f) s = .next (s.wrote t th (Eff.sc f.d.toNat (pairTree f32Add th.acc 4 0)) 4) ∧
      exec (.armax t f) s = .next (s.wrote t th (Eff.sc f.d.toNat (pairTree f32Max th.acc 4 0)) 4) ∧
      exec (.aired t f) s = .next (s.wrote t th (Eff.sc f.d.toNat (pairTree (fun x y => x + y) th.acc 4 0)) 4))) ∧
  (∀ (s : State) (t : Nat) (th : Thread) (f : FmtE) (fmt : ElemFmt), s.canRun t th [.v f.d.toNat] → s.settledAcc t th →
    f.d.toNat < 4 → f.a = 0 → f.b = 0 → f.imm = 0 → fld f.ext.toNat 31 14 = 0 →
    ElemFmt.ofCode? (fld f.ext.toNat 3 0) = some fmt → fmt ≠ .none → fmt ≠ .fp32 → 16 * fld f.ext.toNat 6 4 < fmt.count →
    let sto := f.ext.toNat.testBit 7 && !fmt.isInt
    let draws := genRun th.gen 16
    let data := (upTo 16).foldl (fun d i => putElem fmt d (16 * fld f.ext.toNat 6 4 + i)
      (cvtElem fmt (f.ext.toNat.testBit 8) (fld f.ext.toNat 13 9) (if sto then (draws[i]?).map genDraw else none) (th.acc i)))
      (th.vr f.d.toNat).data
    exec (.acvt t f) s = .next (s.wrote t th
      { Eff.vec f.d.toNat (VReg.write fmt data) with g := if sto then draws.getLast? else none } 8))

/-- Vector moves, gnorm and gtopk write their register and step past their words (R78, R607, R98,
03_thread_instruction_set.md). Where it goes beyond the rules it rests on the model's choices of log entries 13, 15,
16, 18. -/
def Obligations.VectorMovesAndGateLists : Prop :=
  (∀ (s : State) (t : Nat) (th : Thread) (f : FmtA), s.canRun t th [.v f.a.toNat, .s f.a.toNat, .v f.d.toNat, .s f.d.toNat] → f.b = 0 →
    let d (e : Eff) : Host.Outcome State Fault Refusal := .next (s.wrote t th e 4)
    (f.md = 0 → f.d.toNat < 4 → f.a.toNat < 4 → exec (.vmov t f) s = d (Eff.vec f.d.toNat (th.vr f.a.toNat))) ∧
    (f.md = 0 → f.d.toNat < 4 →
      exec (.vbc t f) s = d (Eff.vec f.d.toNat (VReg.write .none (vdataOfWords (fun _ => th.sr f.a.toNat))))) ∧
    (f.md.toNat < 16 → f.a.toNat < 4 →
      exec (.vext t f) s = d (Eff.sc f.d.toNat (vword (th.vr f.a.toNat).data f.md.toNat))) ∧
    (f.md.toNat < 16 → f.d.toNat < 4 →
      exec (.vins t f) s = d (Eff.vec f.d.toNat (VReg.write (th.vr f.d.toNat).tag
        (putVword (th.vr f.d.toNat).data f.md.toNat (th.sr f.a.toNat))))) ∧
    (f.md = 0 → f.a = 0 → f.d.toNat < 4 → exec (.vzero t f) s = d (Eff.vec f.d.toNat VReg.zero)) ∧
    (∀ fn : BitVec 6, fn.toNat < 2 → f.md = 0 → f.a = 0 → f.d.toNat < 4 →
      let es := gateList (th.vr f.d.toNat).data
      let sc := (es.filter (fun e => e.valid)).map (fun e => e.score)
      exec (.gnorm t fn f) s = d (if sc = [] then Eff.none else
        Eff.vec f.d.toNat (VReg.write .none (putGate (th.vr f.d.toNat).data (putScores es (gnormScores (fn == 1) sc))))))) ∧
  (∀ (s : State) (t : Nat) (th : Thread) (f : FmtE), s.canRun t th [.s f.a.toNat, .v f.d.toNat] → s.settledAcc t th →
    f.d.toNat < 4 → f.b = 0 → f.imm = 0 → fld f.ext.toNat 31 10 = 0 →
    let k := fld f.ext.toNat 3 0
    let n := fld f.ext.toNat 8 4
    1 ≤ k → k ≤ 8 → 1 ≤ n → n ≤ 16 →
    let old := if f.ext.toNat.testBit 9 then [] else gateList (th.vr f.d.toNat).data
    exec (.gtopk t f) s = .next (({ s with free := s.free + 8 }).wrote t th
      (Eff.vec f.d.toNat (VReg.write .none (gateData (topk old (th.sr f.a.toNat).toNat k n th.acc s.free)))) 8))

/-- vmac and vmacc hand their products to the accumulators and occupy the core's MAC vector, which MAC_OCCUPATION_END
frees (R90, R97, R98, R113, R141). Where it goes beyond the rules it rests on the model's choices of log entries 13,
17, 99. -/
def Obligations.MacInstructions : Prop :=
  (∀ (s : State) (t : Nat) (th : Thread) (f : FmtE) (fa fb : ElemFmt),
    s.canRun t th [.v f.a.toNat, .v f.b.toNat, .s (fld f.ext.toNat 19 16), .s (fld f.ext.toNat 23 20)] →
    (th.logsAcc = true → th.prods = []) → (s.core (coreOf t)).mac = none →
    macForm f ≠ 3 → f.a.toNat < 4 → f.b.toNat < 4 → f.d = 0 → f.imm = 0 → f.ext.toNat.testBit 15 = false → fld f.ext.toNat 31 24 = 0 →
    macFmtA f = some fa → macFmtB f = some fb → macPairOk fa fb (macScaled f) = true → macBadQ (macForm f) (macQ f) = false →
    let ps := macProds fa fb (macForm f) (macQ f) (macScaled f) (elem fa (th.vr f.a.toNat).data) (elem fb (th.vr f.b.toNat).data)
      (fun i => ((th.vr f.a.toNat).flagsIn fa).getLsbD i) (fun i => ((th.vr f.b.toNat).flagsIn fb).getLsbD i)
      (fun n => fld (th.sr (fld f.ext.toNat 19 16)).toNat (8 * n + 7) (8 * n))
      (fun n => fld (th.sr (fld f.ext.toNat 23 20)).toNat (8 * n + 7) (8 * n))
    (∀ x, th.write? (th.macEff Eff.none) = some x → exec (.vmac t f) s = .next
      ((s.setThread t { x with prods := th.prods ++ ps, pc := th.pc + 8#52 }).setCore (coreOf t)
        { s.core (coreOf t) with mac := some (t, macOccupation fa ps.length) })) ∧
    (th.write? (th.macEff Eff.none) = none → exec (.vmac t f) s = .next (s.setThread t { th with wait := .closure }))) ∧
  (∀ (s : State) (t : Nat) (th : Thread) (f : FmtE) (fa fb : ElemFmt),
    s.canRun t th [.s f.a.toNat, .v f.b.toNat, .s f.d.toNat, .s (fld f.ext.toNat 23 20)] → (th.logsAcc = true → th.prods = []) → (s.core (coreOf t)).mac = none →
    macForm f ≠ 3 → macForm f ≠ 1 → f.b.toNat < 4 → f.imm = 0 → f.ext.toNat.testBit 15 = false → fld f.ext.toNat 31 24 = 0 →
    macFmtA f = some fa → macFmtB f = some fb → fa ≠ .bf16 → macPairOk fa fb (macScaled f) = true → macBadQ (macForm f) (macQ f) = false →
    let loc := (th.sr f.a.toNat).toNat % 2 ^ 17
    loc % 8 = 0 → badLocal loc (csbGroupLen fa (s.spRead t) loc) = false →
    let fetched (e : Nat × Acc) : Bool := s.owns t e.2 && e.2.isFetch
    (s.accs.find? fetched = none → s.padBusy t = false → s.acquiring t = false →
      exec (.vmacc t f) s = .next (s.enterPad t th (3 + t % 4) loc 8 (.load (.row (some fa))) .none false)) ∧
    (∀ id a, s.accs.find? fetched = some (id, a) → a.st = .done →
      let x := csbExpand fa (fun o n => (a.value >>> (8 * (o - loc))) % 2 ^ (8 * n)) (csbBlocks fa) loc
      let ps := macProds fa fb (macForm f) (macQ f) (macScaled f) (fun i => x.1.getD i 0) (elem fb (th.vr f.b.toNat).data)
        (fun i => fa.isZeroCode (x.1.getD i 0)) (fun i => ((th.vr f.b.toNat).flagsIn fb).getLsbD i) (fun n => x.2.1.getD n 0)
        (fun n => fld (th.sr (fld f.ext.toNat 23 20)).toNat (8 * n + 7) (8 * n))
      let u : State := { s with accs := s.accs.erase id }
      let e := th.macEff (Eff.sc f.d.toNat (BitVec.ofNat 32 (x.2.2 % 2 ^ 17)))
      (∀ th2, th.write? e = some th2 → exec (.vmacc t f) s = .next
        ((u.setThread t { th2 with prods := th.prods ++ ps, pc := th.pc + 8#52 }).setCore (coreOf t)
          { s.core (coreOf t) with mac := some (t, macOccupation fa ps.length) })) ∧
      (th.write? e = none → exec (.vmacc t f) s = .next (u.setThread t { th with wait := .closure })))) ∧
  (∀ (s : State) (ship sec core : Nat),
    let k := ship * 4096 + sec * 64 + core
    exec (.macOccupationEnd ship sec core) s = .next (s.setCore k { s.core k with mac := none }))

/-- Jumps, nop, end, rdsr and wrsr act on the program counter, the thread's presence and the special registers (R40, R93,
R129, 03_thread_instruction_set.md). Where it goes beyond the rules it rests on the model's choices of log entries 13,
14. -/
def Obligations.ControlFlowInstructions : Prop :=
  (∀ (s : State) (t : Nat) (th : Thread) (f : FmtI), s.canRun t th [.p (f.d.toNat % 4)] → f.a = 0 → f.b = 0 →
    exec (.br t f) s = .next (s.jumped t th (if f.d.getLsbD 3 = true ∨ th.pred (f.d.toNat % 4) ≠ f.d.getLsbD 2
      then th.pc + BitVec.ofInt 52 (f.imm.toInt * 4) else th.pc + 4#52))) ∧
  (∀ (s : State) (t : Nat) (th : Thread) (f : FmtE), s.canRun t th (usesPair f.d.toNat) → f.d.toNat % 2 = 0 → f.a = 0 → f.b = 0 → f.imm = 0 →
    exec (.jal t f) s = .next (s.wroteAt t th (Eff.pr f.d.toNat (th.pc + 8#52).toNat) (th.pc + BitVec.ofInt 52 (f.ext.toInt * 4)))) ∧
  (∀ (s : State) (t : Nat) (th : Thread) (f : FmtA), s.canRun t th (usesPair f.a.toNat) → f.a.toNat % 2 = 0 → f.d = 0 → f.b = 0 → f.md = 0 →
    th.pr f.a.toNat % 2 ^ 52 % 4 = 0 → exec (.jr t f) s = .next (s.jumped t th (BitVec.ofNat 52 (th.pr f.a.toNat % 2 ^ 52)))) ∧
  (∀ (s : State) (t : Nat) (th : Thread) (f : FmtA), s.canRun t th [] → f.d = 0 → f.a = 0 → f.b = 0 → f.md = 0 →
    exec (.nopInstruction t f) s = .next (s.jumped t th (th.pc + 4#52)) ∧
    (th.spec = none → s.padBusy t = false → exec (.endThread t f) s = .next (({ s with threads := s.threads.erase t }).endLayers th.launch t 256))) ∧
  (∀ (s : State) (t : Nat) (th : Thread) (r : BitVec 6) (f : FmtA), s.canRun t th [.s f.d.toNat] → r.toNat < 7 → f.a = 0 → f.b = 0 → f.md = 0 →
    exec (.rdsr t r f) s = .next (let u := if r.toNat < 2 then s.tickCore (coreOf t) else s
      u.wrote t th (Eff.sc f.d.toNat (u.special t th r.toNat)) 4)) ∧
  (∀ (s : State) (t : Nat) (th : Thread) (f : FmtA), s.canRun t th [.s f.a.toNat] → f.d = 0 → f.b = 0 → f.md = 0 →
    exec (.wrsr t f) s = .next (s.wrote t th { Eff.none with g := some (th.sr f.a.toNat) } 4))

/-- fence, fsig, fwait, bar and evpost wait for what they name and then have their effect, and a speculative thread waits
at what must not be undone (R62, R69, R71, R73, R94, R164, R610). Where it goes beyond the rules it rests on the
model's choices of log entry 22. -/
def Obligations.FencesBarriersAndEvents : Prop :=
  (∀ (s : State) (t : Nat) (th : Thread) (f : FmtA), s.ready t th [] → f.d = 0 → f.a = 0 → f.b = 0 → f.md.toNat < 4 →
    (s.quiet t = true → exec (.fence t f) s = .next ((s.synced t f.md.toNat).jumped t th (th.pc + 4#52))) ∧
    (∀ u, s.release t f.md.toNat = (true, u) → exec (.fence t f) s = .next (u.jumped t th (th.pc + 4#52)))) ∧
  (∀ (s : State) (t : Nat) (th : Thread) (f : FmtA), s.ready t th [] → f.d = 0 → f.a = 0 → f.b = 0 → f.md.toNat < 2 →
    exec (.bar t f) s = .next (s.setThread t { th with wait := .bar f.md.toNat })) ∧
  (∀ (s : State) (t : Nat) (th : Thread) (f : FmtI), s.ready t th [] → f.d = 0 → f.a = 0 → f.b = 0 →
    exec (.evpost t f) s = .next ((s.ctxEvent (th.ctx % 4096) f.imm.toNat t 0).advance t 4)) ∧
  (∀ (s u s1 : State) (t : Nat) (th : Thread) (f : FmtE) (dpa ppa : Nat), s.ready t th (usesPair f.a.toNat ++ usesPair f.b.toNat) →
    f.a.toNat % 2 = 0 → f.b.toNat % 2 = 0 → f.d = 0 → fld f.ext.toNat 31 2 = 0 → s.release t (fld f.ext.toNat 1 0) = (true, u) →
    let pva := globalAddr th f.a.toNat f.imm 8
    s.fenceHeld t th pva = false →
    let word : Part := { dpa := dpa, ppa := ppa, len := 8, via := .uncached, got := none }
    u.fencePlace t th pva 4 = (.ok (dpa, ppa), s1) → s1.clash t [word] = false →
    exec (.fsig t f) s = .next ((s1.advance t 8).enterAcc t th pva (.signal (th.pr f.b.toNat)) .none false 64 [word])) ∧
  (∀ (s : State) (t scope : Nat), s.quiet t = true → s.release t scope = (true, s.synced t scope)) ∧
  (∀ (s s1 : State) (t : Nat) (th : Thread) (f : FmtE) (x : Nat × Nat),
    s.canRun t th (usesPair f.a.toNat ++ usesPair f.b.toNat ++ [.p f.d.toNat]) →
    f.a.toNat % 2 = 0 → f.b.toNat % 2 = 0 → f.d.toNat < 4 → fld f.ext.toNat 31 2 = 0 → s.acquiring t = false →
    let pva := globalAddr th f.a.toNat f.imm 8
    s.fenceHeld t th pva = false → s.fencePlace t th pva 5 = (.ok x, s1) →
    exec (.fwait t f) s = .next ((s1.modThread t (fun x => { x with wait := .fwait f.d.toNat pva (th.pr f.b.toNat) (fld f.ext.toNat 1 0) })).acquireAt s1 t
      th.launch (fld f.ext.toNat 1 0) (x.1 / 128))) ∧
  (∀ (s s1 : State) (t p pva target scope dpa ppa : Nat) (th : Thread), s.threads.get? t = some th → th.wait = .fwait p pva target scope →
    (th.spec.isSome = true → s1.ownedElsewhere (shipOf t) (dpa / 128) = false) → th.replay = [] → th.raise = none → s.fenceHeld t th pva = false → s.fencePlace t th pva 5 = (.ok (dpa, ppa), s1) →
    s1.spanHeld dpa 8 = false →
    s1.clash t [{ dpa := dpa, ppa := ppa, len := if dpa % 16 = 0 then 16 else 8, via := .uncached, got := none }] = false →
    (s1.poisoned dpa = true → s1.launchTol th.launch = true) →
    let own := loggedStores th false
    let word := seenOver own pva 8 (if s1.poisoned dpa then 0 else s1.cohRead dpa 8)
    let flags := seenOver own (pva + 8) 1 (if s1.poisoned dpa then 0 else s1.cohRead (dpa + 8) 1)
    target ≤ word →
    exec (.fwaitSatisfied t) s = .next (s1.wrote t { th with wait := .none } (Eff.pd th p (dpa % 16 == 0 && flags.testBit 0)) 8)) ∧
  (∀ (s : State) (t scope : Nat) (th : Thread), s.threads.get? t = some th → th.wait = .bar scope →
    let mates := s.threads.filter (fun e => e.2.launch == th.launch && sameUnit scope t e.1)
    (∀ e ∈ mates, e.2.wait = .bar scope ∧ (s.quiet e.1 = true ∨ s.quietNear e.1 = true)) →
    exec (.barRelease t) s = .next
      (mates.foldl (fun s e => (((s.passStores e.1).synced e.1 scope).modThread e.1 (fun x => { x with wait := .none })).advance e.1 4) s)) ∧
  (∀ (s : State) (t : Nat) (th : Thread), th.spec.isSome = true →
    (∀ f : FmtA, s.canRun t th [] → f.d = 0 → f.a = 0 → f.b = 0 →
      (f.md.toNat < 4 → exec (.fence t f) s = .next (s.holdClosure t)) ∧ (f.md.toNat < 2 → exec (.bar t f) s = .next (s.holdClosure t)) ∧
      (f.md = 0 → exec (.endThread t f) s = .next (s.holdClosure t))) ∧
    (∀ f : FmtI, s.canRun t th [] → f.d = 0 → f.a = 0 → f.b = 0 → exec (.evpost t f) s = .next (s.holdClosure t)) ∧
    (∀ f : FmtE, s.canRun t th (usesPair f.a.toNat ++ usesPair f.b.toNat) → f.a.toNat % 2 = 0 → f.b.toNat % 2 = 0 → f.d = 0 →
      fld f.ext.toNat 31 2 = 0 → exec (.fsig t f) s = .next (s.holdClosure t)) ∧
    (∀ f : FmtE, let used := atUses f f.d.toNat ++ atUses f f.b.toNat ++ (if atOp f = 9 then atUses f (atCmp f) else [])
      (s.canRun t th (usesPair f.a.toNat ++ used) → firstCode (atCodes f (badP f.a)) = none → exec (.atom t f) s = .next (s.holdClosure t)) ∧
      (s.canRun t th (.s f.a.toNat :: used) → firstCode (atCodes f false ++ [(badLocal (localAddr th f.a.toNat f.imm (atSize f)) (atSize f), 0x14)]) = none →
        exec (.atoml t f) s = .next (s.holdClosure t))) ∧
    (∀ f : FmtE, f.imm = 0 →
      (s.canRun t th [.v f.a.toNat, .s f.b.toNat, .s f.d.toNat] → f.a.toNat < 4 → fld f.ext.toNat 31 19 = 0 →
        (ElemFmt.ofCode? (fld f.ext.toNat 9 6)).isSome = true → badLocal ((th.sr f.b.toNat).toNat % 2 ^ 17) (64 * fld f.ext.toNat 5 0) = false →
        exec (.dspt t f) s = .next (s.holdClosure t)) ∧
      (s.canRun t th [.s f.a.toNat, .s f.d.toNat, .p (fld f.ext.toNat 3 2)] → f.b = 0 → fld f.ext.toNat 31 4 = 0 → fld f.ext.toNat 1 0 = 0 →
        exec (.drecv t f) s = .next (s.holdClosure t))))

/-- Scratchpad loads, stores and atomics enter one request of their section and step past their words (R85, R86, R164,
R216, R217). Where it goes beyond the rules it rests on the model's choices of log entries 13, 118. -/
def Obligations.ScratchpadAccesses : Prop :=
  (∀ (s : State) (t : Nat) (th : Thread) (f : FmtM), s.padBusy t = false → s.acquiring t = false →
    let k := f.kind.toNat
    let loc := localAddr th f.a.toNat f.imm 1
    let vloc := localAddr th f.a.toNat f.imm 64
    (s.canRun t th (.s f.a.toNat :: dstUses (kindDst k f.d.toNat)) → k < 7 → (k = 5 → f.d.toNat % 2 = 0) →
      badLocal loc (kindSize k) = false → loc % kindSize k = 0 →
      (∀ x, th.write? (dstKeep th (kindDst k f.d.toNat)) = some x → exec (.ldl t f) s = .next
        (((s.setThread t x).enterPad t x (3 + t % 4) loc (kindSize k) (.load (kindDst k f.d.toNat)) (kindDst k f.d.toNat) false).advance t 4)) ∧
      (th.write? (dstKeep th (kindDst k f.d.toNat)) = none → exec (.ldl t f) s = .next (s.setThread t { th with wait := .closure }))) ∧
    (s.canRun t th (.s f.a.toNat :: (if k = 5 then usesPair f.d.toNat else [.s f.d.toNat])) → storeKind k = true →
      (k = 5 → f.d.toNat % 2 = 0) → badLocal loc (kindSize k) = false → loc % kindSize k = 0 →
      (th.spec = none → exec (.stl t f) s = .next
        (((s.setThread t th).enterPad t th (3 + t % 4) loc (kindSize k) (.store (kindValue th k f.d.toNat)) .none false).advance t 4)) ∧
      (∀ sp, th.spec = some sp → exec (.stl t f) s = .next
        (s.loggedAt t th sp Eff.none (.store true loc (kindSize k) (kindValue th k f.d.toNat)) 4))) ∧
    (∀ fmt : ElemFmt, s.canRun t th [.v f.d.toNat, .s f.a.toNat] → f.d.toNat < 4 → ElemFmt.ofCode? k = some fmt →
      badLocal vloc 64 = false → vloc % 64 = 0 →
      (∀ x, th.write? (dstKeep th (.vector f.d.toNat fmt)) = some x → exec (.vldl t f) s = .next
        (((s.setThread t x).enterPad t x (3 + t % 4) vloc 64 (.load (.vector f.d.toNat fmt)) (.vector f.d.toNat fmt) false).advance t 4)) ∧
      (th.write? (dstKeep th (.vector f.d.toNat fmt)) = none → exec (.vldl t f) s = .next (s.setThread t { th with wait := .closure }))) ∧
    (s.canRun t th [.v f.d.toNat, .s f.a.toNat] → f.d.toNat < 4 → f.kind = 0 → badLocal vloc 64 = false → vloc % 64 = 0 →
      (th.spec = none → exec (.vstl t f) s = .next
        (((s.setThread t th).enterPad t th (3 + t % 4) vloc 64 (.store (th.vr f.d.toNat).data.toNat) .none false).advance t 4)) ∧
      (∀ sp, th.spec = some sp → exec (.vstl t f) s = .next
        (s.loggedAt t th sp Eff.none (.store true vloc 64 (th.vr f.d.toNat).data.toNat) 4)))) ∧
  (∀ (s : State) (t : Nat) (th : Thread) (f : FmtE), s.padBusy t = false → s.acquiring t = false →
    let loc := localAddr th f.a.toNat f.imm 1
    xPad f = true → f.d.toNat < 4 → f.b = 0 → f.ext.toNat.testBit 3 = false → fld f.ext.toNat 11 8 = 0 →
    xConv f < 3 → xBadFmt f = false → loc % xAlign f = 0 →
    let dst : LoadDst := .convert f.d.toNat (xConv f) (xFmt f) (xScale f)
    (fld f.ext.toNat 31 16 = 0 → s.canRun t th (.s f.a.toNat :: dstUses dst) →
      badLocal loc (if xConv f = 2 then csbGroupLen (xFmt f) (s.spRead t) loc else xFirst f) = false →
      (∀ x, th.write? (dstKeep th dst) = some x → exec (.vldx t f) s = .next
        (((s.setThread t x).enterPad t x (3 + t % 4) loc (xFirst f) (.load dst) dst false).advance t 8)) ∧
      (th.write? (dstKeep th dst) = none → exec (.vldx t f) s = .next (s.setThread t { th with wait := .closure }))) ∧
    (fld f.ext.toNat 31 20 = 0 → s.canRun t th (.s f.a.toNat :: (if xConv f = 2 then [.v f.d.toNat, .s (xScale f), .s (xCount f)] else [.v f.d.toNat])) →
      let n := (xBytes th f).length
      let e := if xConv f = 2 then Eff.sc (xCount f) (BitVec.ofNat 32 n) else Eff.none
      badLocal loc n = false →
      (th.spec = none → exec (.vstx t f) s = .next
        (((s.setThread t (th.apply e)).enterPad t th (3 + t % 4) loc n (.store (ofBytes (xBytes th f))) .none false).advance t 8)) ∧
      (∀ sp, th.spec = some sp → exec (.vstx t f) s = .next (s.loggedAt t th sp e (.store true loc n (ofBytes (xBytes th f))) 8)))) ∧
  (∀ (s u : State) (t : Nat) (th : Thread) (f : FmtE), s.padBusy t = false → s.acquiring t = false →
    let loc := localAddr th f.a.toNat f.imm (atSize f)
    s.ready t th (.s f.a.toNat :: (atUses f f.d.toNat ++ atUses f f.b.toNat ++ (if atOp f = 9 then atUses f (atCmp f) else []))) →
    firstCode (atCodes f false ++ [(badLocal loc (atSize f), 0x14)]) = none → loc % atSize f = 0 →
    (atRelease f = false → u = s) → (atRelease f = true → s.release t 0 = (true, u)) →
    exec (.atoml t f) s = .next ((u.enterPad t th (3 + t % 4) loc (atSize f)
      (.atomic (atOp f) (atSize f) (atReg th f f.b.toNat) (atReg th f (atCmp f)) (atDst f)) (atDst f) (atAcquire f)).advance t 8))

/-- Global loads, stores and atomics of translated, aligned addresses enter one access and step past their words (R84,
R86, R99, R44, R56, R164, R252). Where it goes beyond the rules it rests on the model's choices of log entries 25, 90. -/
def Obligations.GlobalAccesses : Prop :=
  (∀ (s s1 : State) (t : Nat) (th : Thread) (c : Context) (f : FmtM) (ps : List Part),
    s.acquiring t = false → s.ctxs.get? (th.ctx % 4096) = some c →
    let k := f.kind.toNat
    let pva := globalAddr th f.a.toNat f.imm 1
    let vpva := globalAddr th f.a.toNat f.imm 64
    s1.clash t ps = false →
    let far := ps.any (fun p => p.via == .window || p.via == .host)
    (s.canRun t th (usesPair f.a.toNat ++ dstUses (kindDst k f.d.toNat)) → s.loadRoom t = true → k < 7 → f.a.toNat % 2 = 0 →
      (k = 5 → f.d.toNat % 2 = 0) → pva % kindSize k = 0 → s.placeBytes (th.ctx % 4096) c t 0 4 pva (kindSize k) = (.ok ps, s1) →
      s.walkHeld (th.ctx % 4096) c t pva (kindSize k) = false →
      (∀ th2, th.write? (dstKeep th (kindDst k f.d.toNat)) = some th2 → (th.spec.isSome = true → far = false) → exec (.ld t f) s = .next
        (((s1.setThread t th2).advance t 4).enterAcc t th2 pva (.load (kindDst k f.d.toNat)) (kindDst k f.d.toNat) false 0 ps)) ∧
      (th.write? (dstKeep th (kindDst k f.d.toNat)) = none ∨ (th.spec.isSome = true ∧ far = true) →
        exec (.ld t f) s = .next (s1.setThread t { th with wait := .closure }))) ∧
    (s.canRun t th (usesPair f.a.toNat ++ (if k = 5 then usesPair f.d.toNat else [.s f.d.toNat])) → s.storeRoom t = true → storeKind k = true →
      f.a.toNat % 2 = 0 → (k = 5 → f.d.toNat % 2 = 0) → pva % kindSize k = 0 →
      s.walkHeld (th.ctx % 4096) c t pva (kindSize k) = false → s.placeBytes (th.ctx % 4096) c t 1 4 pva (kindSize k) = (.ok ps, s1) →
      (th.spec = none → exec (.st t f) s = .next
        (((s1.setThread t th).enterAcc t th pva (.store (kindValue th k f.d.toNat)) .none false 0 ps).advance t 4)) ∧
      (∀ sp, th.spec = some sp → exec (.st t f) s = .next (if far then s1.setThread t { th with wait := .closure }
        else s1.loggedAt t th sp Eff.none (.store false pva (kindSize k) (kindValue th k f.d.toNat)) 4))) ∧
    (∀ fmt : ElemFmt, s.canRun t th (.v f.d.toNat :: usesPair f.a.toNat) → s.loadRoom t = true → f.d.toNat < 4 → f.a.toNat % 2 = 0 →
      ElemFmt.ofCode? k = some fmt → vpva % 64 = 0 → s.placeBytes (th.ctx % 4096) c t 0 4 vpva 64 = (.ok ps, s1) →
      s.walkHeld (th.ctx % 4096) c t vpva 64 = false →
      (∀ th2, th.write? (dstKeep th (.vector f.d.toNat fmt)) = some th2 → (th.spec.isSome = true → far = false) → exec (.vld t f) s = .next
        (((s1.setThread t th2).advance t 4).enterAcc t th2 vpva (.load (.vector f.d.toNat fmt)) (.vector f.d.toNat fmt) false 0 ps)) ∧
      (th.write? (dstKeep th (.vector f.d.toNat fmt)) = none ∨ (th.spec.isSome = true ∧ far = true) →
        exec (.vld t f) s = .next (s1.setThread t { th with wait := .closure }))) ∧
    (s.canRun t th (.v f.d.toNat :: usesPair f.a.toNat) → s.storeRoom t = true → f.d.toNat < 4 → f.a.toNat % 2 = 0 → f.kind = 0 → vpva % 64 = 0 →
      s.walkHeld (th.ctx % 4096) c t vpva 64 = false → s.placeBytes (th.ctx % 4096) c t 1 4 vpva 64 = (.ok ps, s1) →
      (th.spec = none → exec (.vst t f) s = .next
        (((s1.setThread t th).enterAcc t th vpva (.store (th.vr f.d.toNat).data.toNat) .none false 0 ps).advance t 4)) ∧
      (∀ sp, th.spec = some sp → exec (.vst t f) s = .next (if far then s1.setThread t { th with wait := .closure }
        else s1.loggedAt t th sp Eff.none (.store false vpva 64 (th.vr f.d.toNat).data.toNat) 4)))) ∧
  (∀ (s s1 : State) (t : Nat) (th : Thread) (c : Context) (f : FmtE) (ps : List Part),
    s.acquiring t = false → s.ctxs.get? (th.ctx % 4096) = some c → s1.clash t ps = false →
    let pva := globalAddr th f.a.toNat f.imm 1
    let dst : LoadDst := .convert f.d.toNat (xConv f) (xFmt f) (xScale f)
    let far := ps.any (fun p => p.via == .window || p.via == .host)
    xPad f = false → f.d.toNat < 4 → f.a.toNat % 2 = 0 → f.b = 0 → f.ext.toNat.testBit 3 = false → fld f.ext.toNat 11 8 = 0 →
    xConv f < 3 → xBadFmt f = false → pva % xAlign f = 0 →
    (fld f.ext.toNat 31 16 = 0 → s.canRun t th (usesPair f.a.toNat ++ dstUses dst) → s.loadRoom t = true →
      s.walkHeld (th.ctx % 4096) c t pva (xFirst f) = false → s.placeBytes (th.ctx % 4096) c t 0 4 pva (xFirst f) = (.ok ps, s1) →
      (∀ th2, th.write? (dstKeep th dst) = some th2 → (th.spec.isSome = true → far = false) →
        exec (.vldx t f) s = .next (((s1.setThread t th2).advance t 8).enterAcc t th2 pva (.load dst) dst false 0 ps)) ∧
      (th.write? (dstKeep th dst) = none ∨ (th.spec.isSome = true ∧ far = true) →
        exec (.vldx t f) s = .next (s1.setThread t { th with wait := .closure }))) ∧
    (fld f.ext.toNat 31 20 = 0 →
      s.canRun t th (usesPair f.a.toNat ++ (if xConv f = 2 then [.v f.d.toNat, .s (xScale f), .s (xCount f)] else [.v f.d.toNat])) →
      s.storeRoom t = true →
      let n := (xBytes th f).length
      let e := if xConv f = 2 then Eff.sc (xCount f) (BitVec.ofNat 32 n) else Eff.none
      s.walkHeld (th.ctx % 4096) c t pva n = false → s.placeBytes (th.ctx % 4096) c t 1 4 pva n = (.ok ps, s1) →
      (th.spec = none → exec (.vstx t f) s = .next
        (((s1.setThread t (th.apply e)).enterAcc t th pva (.store (ofBytes (xBytes th f))) .none false 0 ps).advance t 8)) ∧
      (∀ sp, th.spec = some sp → exec (.vstx t f) s = .next (if far then s1.setThread t { th with wait := .closure }
        else s1.loggedAt t th sp e (.store false pva n (ofBytes (xBytes th f))) 8)))) ∧
  (∀ (s u s1 : State) (t : Nat) (th : Thread) (c : Context) (f : FmtE) (p : Part) (ps : List Part),
    s.acquiring t = false → s.ctxs.get? (th.ctx % 4096) = some c →
    let pva := globalAddr th f.a.toNat f.imm (atSize f)
    s.ready t th (usesPair f.a.toNat ++ atUses f f.d.toNat ++ atUses f f.b.toNat ++ (if atOp f = 9 then atUses f (atCmp f) else [])) →
    firstCode (atCodes f (badP f.a)) = none → pva % atSize f = 0 → inHost pva = false →
    (atRelease f = false → u = s) → (atRelease f = true → s.release t (atScope f) = (true, u)) →
    u.walkHeld (th.ctx % 4096) c t pva (atSize f) = false → u.placeBytes (th.ctx % 4096) c t 2 1 pva (atSize f) = (.ok (p :: ps), s1) →
    (p.via = .window → u.windowAtomic ((windowSite? p.dpa).getD 0) (atSize f) = true) →
    let cached := p.via == .line || p.via == .stream
    let near := cached && u.goesNear (shipOf t) p.dpa
    let ctr := if cached then contendIdx p.dpa else 64
    let s2 := if cached && !near && u.ownsLine (shipOf t) (p.dpa / 128) then s1.contendAdd (shipOf t) ctr false else s1
    let q : Part := { p with via := if near then .uncached else p.via }
    s1.clash t [q] = false →
    let s3 := (s2.advance t 8).enterAcc t th pva
      (.atomic (atOp f) (atSize f) (atReg th f f.b.toNat) (atReg th f (atCmp f)) (atDst f)) (atDst f) (atAcquire f) ctr [q]
    exec (.atom t f) s = .next (if atAcquire f then s3.acquireAt s2 t th.launch (atScope f) (p.dpa / 128) else s3))

/-- Returned data reaches its register, a bank serves a waiting store, and a request stalled 16 steps is raised (R96, R99,
R211, R213, R215). Where it goes beyond the rules it rests on the model's choices of log entries 23, 119, 120. -/
def Obligations.LoadedDataAndBankArbitration : Prop :=
  (∀ (s : State) (id : Nat) (d : Option Nat) (a : Acc) (th : Thread), s.accs.get? id = some a → a.st = .done → s.saved a.launch = false → a.isFetch = false →
    s.threads.get? a.thread = some th → th.launch = a.launch →
    ∃ u, exec (.loadDataReturn id d) s = .next u ∧ u.accs.get? id = none ∧ u.mem = s.mem ∧ u.spm = s.spm ∧
      ∀ x, (if a.spec then th.write? (dstWrite a.dst a.value) else some (th.apply (dstWrite a.dst a.value))) = some x →
        u.threads.get? a.thread = some { x with pend := th.pend.filter (fun r => !(dstPend a.dst).contains r) }) ∧
  (∀ (s : State) (ship sec bank v : Nat) (r : SpReq), (s.sect (ship * 64 + sec)).reqs = [r] → r.op = .store v → r.off = 0 → r.hold = false →
    r.cur = r.len → 1 ≤ r.rank → bankOf r.row = bank → s.inInbox r.launch r.loc = false →
    ∃ u, exec (.scratchpadBankArbitration ship sec bank) s = .next u ∧ (u.sect (ship * 64 + sec)).reqs = [] ∧ u.mem = s.mem ∧
      u.spm = s.spm.writeN (spKey (ship * 64 + sec) r.loc) r.len v ∧
      ∀ k, (k < spKey (ship * 64 + sec) r.loc ∨ spKey (ship * 64 + sec) r.loc + r.len ≤ k) → u.spm.read k = s.spm.read k) ∧
  (∀ (s : State) (ship sec seq : Nat), exec (.raisedRequest ship sec seq) s = .next (s.modSect (ship * 64 + sec) (fun h =>
    { h with reqs := h.reqs.map (fun r => if r.seq = seq ∧ 16 ≤ r.stalls then { r with raised := true } else r) })))

/-- A step of a core advances its step counter and issues the first thread in rotation whose next instruction runs (R93,
R95, R96, R41, 03_thread_instruction_set.md). Where it goes beyond the rules it rests on the model's choices of log
entries 14, 21, 90. -/
def Obligations.CoreIssuesInRotation : Prop :=
  (∀ (s : State) (ship sec core : Nat),
    let k := ship * 4096 + sec * 64 + core
    let x := s.ship ship
    let h := (s.core k).last
    let s1 := (upTo 4).foldl (fun s h => s.replay (k * 4 + h) 65) (s.setCore k { s.core k with steps := ((s.core k).steps + 1) % 2 ^ 64 })
    (x.halted = false ∧ x.asleep = false ∧ x.absent = false ∧ x.test = none →
      exec (.threadIssue ship sec core) s = .next (s1.issueFirst k [(h + 1) % 4, (h + 2) % 4, (h + 3) % 4, (h + 4) % 4])) ∧
    (x.halted = true ∨ x.asleep = true ∨ x.absent = true ∨ x.test.isSome = true → exec (.threadIssue ship sec core) s = .next s)) ∧
  (∀ (s u : State) (k h : Nat) (r : List Nat),
    (s.canIssue (k * 4 + h) = true → s.runNext (k * 4 + h) = (true, u) → s.issueFirst k (h :: r) = u.setCore k { u.core k with last := h }) ∧
    (s.canIssue (k * 4 + h) = true → s.runNext (k * 4 + h) = (false, u) → s.issueFirst k (h :: r) = u.issueFirst k r) ∧
    (s.canIssue (k * 4 + h) = false → s.issueFirst k (h :: r) = s.issueFirst k r)) ∧
  (∀ (s s0 u : State) (t ppa : Nat) (th : Thread) (w : W32) (i : Instr), s.threads.get? t = some th → s.wordHeld th t th.pc.toNat = false →
    s.fetchWord th t th.pc.toNat = (.ok (w, false, ppa), s0) → isExtended (major w) = false → decodeThread t w 0 = some i →
    let s1 := s0.modThread t (fun y => { y with fetched := some (th.pc.toNat, ppa) })
    runThread i s1 = .next u → s.runNext t = (s1.jumps t i || s1.moved u t, u)) ∧
  (∀ (s : State) (t : Nat) (th : Thread), s.threads.get? t = some th → s.wordHeld th t th.pc.toNat = true → s.runNext t = (false, s))

/-- A waiting launch is placed on the townships that fit, every thread at its start, and ends once nothing of it is left
(R40, R430, R431, R432, R37, R155). Where it goes beyond the rules it rests on the model's choices of log entries 28,
83. -/
def Obligations.LaunchPlacementAndEnd : Prop :=
  (∀ (s : State) (id : Nat) (l : Launch) (ts : List Nat), s.launches.get? id = some l → l.st = .waiting → s.mayPlace id l = true →
    s.fits l = some ts →
    let l2 := { l with st := .placed, ships := ts, start := s.code.length }
    let secs := (ts.map (fun t => (upTo l.gs).map (fun x => t * 64 + x))).flatten
    let s2 := secs.foldl (fun s k => { s with
      spm := (match l.gather with | some g => s.spm.writeN (spKey k g.ctrl) 64 0 | none => s.spm)
      sections := s.sections.set k { SectionSt.empty with won := (s.sect k).won } }) (s.setLaunch id l2)
    exec (.launchPlaced id) s = .next (((upTo l2.size).foldl (fun s r => s.setThread (l2.threadAt r) (startThread id l2 (l2.threadAt r))) s2).trace
      1 0 (ts.headD 0) l2.traceBytes)) ∧
  (∀ (s : State) (id : Nat) (l : Launch), s.launches.get? id = some l → l.st = .waiting → s.aheadOf id l = [] →
    exec (.starve id) s = .next (s.setLaunch id { l with starved := true })) ∧
  (∀ (s : State) (id : Nat) (l : Launch), s.launches.get? id = some l → l.st = .placed → (∀ e ∈ s.threads, e.2.launch ≠ id) →
    (∀ e ∈ s.accs, e.2.launch = id → e.2.st = .done) → (∀ e ∈ s.sections, e.2.reqs = []) → s.toks = [] → s.signalDue id l = false →
    exec (.launchComplete id) s = .next (((s.clearDispatch l).endLaunch id
      (if l.poisoned = 0 then ⟨0, 0, l.result⟩ else ⟨0x50, l.poisoned, l.result⟩)).trace 2 0 (l.ships.headD 0) l.traceBytes))

/-- dspt, drecv and dret move tokens between an origin thread, an inbox and the origin again (R145, R151, R152, R153,
R156, R160, R163, R166, R216). Where it goes beyond the rules it rests on the model's choices of log entries 27, 28,
100, 107. -/
def Obligations.DispatchInstructions : Prop :=
  (∀ (s : State) (t : Nat) (th : Thread) (f : FmtE) (l : Launch), s.ready t th [.v f.a.toNat, .s f.b.toNat, .s f.d.toNat] →
    let len := fld f.ext.toNat 5 0
    let layer := fld f.ext.toNat 18 11
    let loc := (th.sr f.b.toNat).toNat % 2 ^ 17
    let commit := f.ext.toNat.testBit 10
    let fetched (e : Nat × Acc) : Bool := s.owns t e.2 && e.2.isFetch
    f.a.toNat < 4 → f.imm = 0 → fld f.ext.toNat 31 19 = 0 → (ElemFmt.ofCode? (fld f.ext.toNat 9 6)).isSome = true → badLocal loc (64 * len) = false →
    s.launches.get? th.launch = some l →
    (l.disp = none → exec (.dspt t f) s = .next (s.advance t 8)) ∧
    (∀ d, l.disp = some d → len = 0 →
      exec (.dspt t f) s = .next ((if commit then s.endLayers th.launch t (layer + 1) else s).advance t 8)) ∧
    (∀ d, l.disp = some d → len ≠ 0 → s.accs.find? fetched = none → s.padBusy t = false → s.acquiring t = false →
      exec (.dspt t f) s = .next (s.enterPad t th 2 loc (64 * len) (.load (.row none)) .none false)) ∧
    (∀ d id a, l.disp = some d → len ≠ 0 → s.accs.find? fetched = some (id, a) → a.st = .done →
      let u : State := { s with accs := s.accs.erase id }
      let row := bytesOf (64 * len) a.value
      let used := (s.ship (shipOf t)).ledger.length
      (commit = true → (∀ e ∈ s.copiesOf (shipOf t) th.launch t (th.sr f.d.toNat).toNat layer, e.2.spec = true → e.2.st ≠ .sent) →
        (used : Int) + s.dsptNeed t th f d ≤ 4096 → exec (.dspt t f) s = .next ((u.dsptCommit t th f d row).advance t 8)) ∧
      (commit = false →
        used + ((s.specTargets t th f l d).filter (s.routeOk ((s.parcelOfShip (shipOf t)).getD 16))).length ≤ 4096 → exec (.dspt t f) s = .next ((u.dsptSpec t th f l d row).advance t 8)))) ∧
  (∀ (s : State) (t : Nat) (th : Thread) (f : FmtE) (l : Launch) (d : DispDesc),
    let pd := fld f.ext.toNat 3 2
    let x := s.sect (sectOf t)
    let e := (th.sr f.a.toNat).toNat
    let cur := x.layers.getD e d.first
    let untaken (r : Record) : Bool := r.expert == e && r.layer == cur && r.launch == th.launch && r.taken.isNone
    s.ready t th [.s f.a.toNat, .s f.d.toNat, .p pd] → f.b = 0 → f.imm = 0 → fld f.ext.toNat 31 4 = 0 → fld f.ext.toNat 1 0 = 0 →
    s.launches.get? th.launch = some l → l.disp = some d →
    let ready (r : Record) : Prop := r ∈ x.records ∧ untaken r = true ∧ x.whole r = true ∧ (r.spec = false ∨ x.slot?.isSome = true)
    (∀ r, ready r → (∀ q, ready q → q ≠ r → r.order < q.order) →
      let eff : Eff := { Eff.pd th pd true with s := [(f.d.toNat, BitVec.ofNat 32 r.addr)] }
      let u := s.modSect (sectOf t) (fun y => { y with records := y.records.map (fun q => if q.addr = r.addr then { q with taken := some t } else q) })
      (r.spec = false → exec (.drecv t f) s = .next (u.wrote t th eff 8)) ∧
      (∀ n, r.spec = true → x.slot? = some n → exec (.drecv t f) s = .next
        ((((u.modSect (sectOf t) (fun y => { y with slots := setAt y.slots n (some t) })).setThread t
          { th with spec := some ⟨n, sectOf t, r.addr, th.pc.toNat, [], none, none, 0⟩ }).writeRegs t eff).advance t 8))) ∧
    (x.records.filter untaken = [] → cur < l.closedTo → exec (.drecv t f) s = .next
      ((s.modSect (sectOf t) (fun y => { y with layers := y.layers.set e (cur + 1) })).wrote t th (Eff.pd th pd false) 8))) ∧
  (∀ (s : State) (t : Nat) (th : Thread) (f : FmtE) (l : Launch), s.ready t th [.s f.a.toNat, .s f.d.toNat, .p (fld f.ext.toNat 3 2)] →
    f.b = 0 → f.imm = 0 → fld f.ext.toNat 31 4 = 0 → fld f.ext.toNat 1 0 = 0 → s.launches.get? th.launch = some l → l.disp = none →
    exec (.drecv t f) s = .next (s.wrote t th (Eff.pd th (fld f.ext.toNat 3 2) false) 8)) ∧
  (∀ (s : State) (t : Nat) (th : Thread) (f : FmtE), s.canRun t th [.s f.a.toNat, .s f.b.toNat] →
    let len := fld f.ext.toNat 5 0
    let row := (th.sr f.a.toNat).toNat % 2 ^ 17
    let rec_ := (th.sr f.b.toNat).toNat % 2 ^ 17
    let fetched (e : Nat × Acc) : Bool := s.owns t e.2 && e.2.isFetch
    f.d = 0 → f.imm = 0 → fld f.ext.toNat 31 10 = 0 → (ElemFmt.ofCode? (fld f.ext.toNat 9 6)).isSome = true → badLocal row (64 * len) = false →
    (∀ sp, th.spec = some sp → s.padBusy t = false → s.acquiring t = false →
      exec (.dret t f) s = .next (s.loggedAt t th sp Eff.none (.dret rec_ row len (fld f.ext.toNat 9 6)) 8)) ∧
    (th.spec = none → len = 0 → s.padBusy t = false → s.acquiring t = false →
      exec (.dret t f) s = .next ((s.returnRow t rec_ 0 (fld f.ext.toNat 9 6) 0).advance t 8)) ∧
    (th.spec = none → len ≠ 0 → s.accs.find? fetched = none → s.padBusy t = false → s.acquiring t = false →
      exec (.dret t f) s = .next (s.enterPad t th (3 + t % 4) row (64 * len) (.load (.row none)) .none false)) ∧
    (∀ id a, th.spec = none → len ≠ 0 → s.accs.find? fetched = some (id, a) → a.st = .done →
      exec (.dret t f) s = .next ((({ s with accs := s.accs.erase id } : State).returnRow t rec_ len (fld f.ext.toNat 9 6) a.value).advance t 8))) ∧
  (∀ (s : State) (t : Nat) (th : Thread), s.threads.get? t = some th → th.wait = .dspt →
    (∀ e ∈ (s.ship (shipOf t)).ledger, e.2.launch = th.launch → e.2.thread = t → e.2.spec = false → e.2.st ≠ .sent ∧ e.2.st ≠ .held) →
    exec (.dsptAccepted t) s = .next (s.setThread t { th with wait := .none }))

/-- Token packets that reach an open township of their parcel have their effect on the dispatch units (R151, R153, R154,
R156, R158, R167, R169, R361, R279). Where it goes beyond the rules it rests on the model's choices of log entries 27,
28, 29, 103. -/
def Obligations.TokenMessages : Prop :=
  (∀ (s : State) (m : Tok) (t : Nat), s.tokDeliverable m = true → m.dst = .agent t → t < 256 → s.shipOpen t = true → s.tagOk t m.tag = true →
    let u := s.takeTok m
    (m.kind = .tcopy → m.last = true →
      let v := u.addRow t m
      (∀ s2, v.2.admitAt t m.sub m v.1 = some s2 →
        exec (.tcopy m) s = .next ((if m.spec then s2.dspCount t 1 else s2).sendTok (m.reply .admitCopy))) ∧
      (v.2.admitAt t m.sub m v.1 = none →
        exec (.tcopy m) s = .next ((v.2.modSect (t * 64 + m.sub) (fun x =>
          { x with refused := x.refused ++ [(m.src.ep, m.expert, m.entry, m.launch)] })).sendTok (m.reply .refuse)))) ∧
    (m.kind = .tcopy → m.last = false → exec (.tcopy m) s = .next (u.addRow t m).2) ∧
    (m.kind = .admitCopy → ∀ c l, u.copyOf? t m = some c → u.launches.get? c.launch = some l →
      let w := u.modCopy t m.entry (fun x => { x with st := .admitted, row := [] })
      exec (.admitCopy m) s = .next (if c.spec = true ∧ c.layer < l.closedTo then w.sendRefute t m.entry else w)) ∧
    (m.kind = .refuse → ∀ c, u.copyOf? t m = some c → c.spec = true → exec (.refuse m) s = .next (u.dropCopy t m.entry)) ∧
    (m.kind = .refuse → ∀ c l d, u.copyOf? t m = some c → c.spec = false → u.launches.get? c.launch = some l → l.disp = some d →
      (d.policy = 0 → exec (.refuse m) s = .next (u.spill t m.entry)) ∧
      (d.policy = 1 → d.hold ≠ 0 → exec (.refuse m) s = .next (let w := u.modCopy t m.entry (fun x => { x with st := .held, counted := true })
        if c.counted then w else w.dspCount t 5)) ∧
      ((d.policy = 1 ∧ d.hold = 0) ∨ 2 ≤ d.policy → exec (.refuse m) s = .next (u.dropCounted t m.entry))) ∧
    (m.kind = .room → ∀ c, u.copyOf? t m = some c → c.st = .held → c.expert = m.expert →
      exec (.room m) s = .next ((u.modCopy t m.entry (fun x => { x with st := .sent })).sendCopy t m.entry)) ∧
    (m.kind = .confirm → ∀ r, u.recordOf (t * 64 + m.sub) m = some r → r.taken = none →
      exec (.confirm m) s = .next (u.confirmRecord (t * 64 + m.sub) r m.weight)) ∧
    (m.kind = .refute → ∀ r, u.recordOf (t * 64 + m.sub) m = some r → r.taken = none →
      exec (.refute m) s = .next (u.releaseRecord t m.sub r)) ∧
    (∀ r h th sp, u.recordOf (t * 64 + m.sub) m = some r → r.taken = some h → u.threads.get? h = some th → th.spec = some sp →
      (m.kind = .confirm → exec (.confirm m) s = .next (u.confirmThread h sp m.weight)) ∧
      (m.kind = .refute → exec (.refute m) s = .next ((u.refuteThread h sp).releaseRecord t m.sub r))) ∧
    (u.recordOf (t * 64 + m.sub) m = none →
      (m.kind = .confirm → exec (.confirm m) s = .next (u.saveClosure t (t * 64 + m.sub) m (some m.weight))) ∧
      (m.kind = .refute → exec (.refute m) s = .next (u.saveClosure t (t * 64 + m.sub) m none))) ∧
    (m.kind = .tret → ∀ c d, u.copyOf? t m = some c → (u.launches.get? c.launch).bind (fun l => l.disp) = some d →
      let vs := rowValues ((ElemFmt.ofCode? m.fmt).getD .none) m.row
      let v := vs.zipIdx.foldl (fun s (x : W32 × Nat) =>
        s.combine1 t m.entry c.launch ((d.base + c.token * d.stride + 4 * (c.got + x.2)) % 2 ^ 52) (f32Mul x.1 c.weight)) u
      let w (st : CopySt) : State := v.modCopy t m.entry (fun x => { x with st := st, got := x.got + vs.length })
      exec (.tret m) s = .next (if m.last then (w .settled).settleCopy t m.entry else w .returned))) ∧
  (∀ (s : State) (ship e : Nat) (c : Copy), s.copy? ship e = some c → c.st = .held →
    exec (.holdExpired ship e) s = .next ((s.dspCount ship 6).dropCounted ship e)) ∧
  (∀ (s : State) (id : Nat) (l : Launch) (d : DispDesc), s.launches.get? id = some l → l.disp = some d →
    let b := s.settledTo id l
    let s1 := s.setLaunch id { l with signalled := b }
    (d.first < b → l.signalled < b → d.fence = 0 → exec (.layerSettled id) s = .next s1) ∧
    (∀ c, d.first < b → l.signalled < b → d.fence ≠ 0 → s.ctxs.get? (l.ctx % 4096) = some c →
      exec (.layerSettled id) s = .next (s1.hubSignal (l.ctx % 4096) c d.fence b l.tol)) ∧
    (d.first < b → l.signalled < b → s.ctxs.get? (l.ctx % 4096) = none → exec (.layerSettled id) s = .next s1) ∧
    ((b ≤ d.first ∨ b ≤ l.signalled) → exec (.layerSettled id) s = .next s))

/-- A request that reaches the home of a line in state I or X is granted, performed in memory or forwarded to the owner
(R240, R243, R245, R246, R251, R252, R253). Where it goes beyond the rules it rests on the model's choices of log
entries 24, 35, 36, 97. -/
def Obligations.HomeServesARequest : Prop :=
  ∀ (s : State) (m : Msg) (ch : Nat), s.deliverable m = true → m.dst = .home ch → s.mayEnter m = true →
    let u := s.take m
    let line := m.dpa / 128
    let src := m.src.agent?.getD 0
    u.ownerOk m = true → u.channelHeld (u.channelOf m.dpa) = false → u.waitq.getD line [] = [] → u.sliceBusy (u.channelOf m.dpa) < 128 →
    (u.dir.get? line = none → (u.dirSet line).length < 8 →
      let e : DirEntry := ⟨0, .B, m.tag, u.easeLine m.dpa, u.tick, none⟩
      let x : Txn := ⟨m, true, false, 0, .X, vecOnly src, false, none, false⟩
      let v := { u with tick := u.tick + 1 }
      (m.kind = .rdS → (m.sonly = true ∨ u.easeLine m.dpa = true) →
        exec (.rds m) s = .next ((v.busy line e { x with next := .S }).grantMem m .S 0 true)) ∧
      (m.kind = .rdS → m.sonly = false → u.easeLine m.dpa = false → exec (.rds m) s = .next ((v.busy line e x).grantMem m .E 0 true)) ∧
      (m.kind = .rdX → exec (.rdx m) s = .next ((v.busy line e x).grantMem m .E 0 true)) ∧
      (m.kind = .upg → exec (.upg m) s = .next ((v.busy line e x).grantMem m .E 0 true))) ∧
    (u.dir.get? line = none →
      (m.kind = .rdU → exec (.rdu m) s = .next (u.memAccess m false)) ∧
      (m.kind = .wrU → exec (.wru m) s = .next (u.memAccess m false)) ∧
      (m.kind = .atN → exec (.atn m) s = .next (u.memAccess m false))) ∧
    (∀ e0, u.dir.get? line = some e0 → e0.st = .X →
      let owner := (vecList e0.vec).headD 0
      let e := { e0 with use := u.tick }
      let v := { u with tick := u.tick + 1 }
      let x : Txn := ⟨m, true, false, 0, .X, vecOnly src, false, some owner, false⟩
      (m.kind = .rdS → m.sonly = true → exec (.rds m) s = .next (v.send (homeMsg v .specWait m m.src))) ∧
      (m.kind = .rdS → m.sonly = false → exec (.rds m) s = .next
        ((v.busy line e { x with dataH := true, next := .S, nextVec := vecSet e0.vec src }).send (homeMsg v .fwdS m (.agent owner)))) ∧
      (m.kind = .rdX → exec (.rdx m) s = .next ((v.busy line e x).send (homeMsg v .fwdX m (.agent owner)))) ∧
      (m.kind = .upg → exec (.upg m) s = .next ((v.busy line e x).send (homeMsg v .fwdX m (.agent owner)))))

/-- WrU writes exactly its bytes, AtN its operand's result, and RdU nothing, at the home of a line that no agent holds
(R252, R253). Where it goes beyond the rules it rests on the model's choices of log entries 43, 96, 97, 121. -/
def Obligations.NearMemoryAccessIsPerformedAtTheHome : Prop :=
  ∀ (s : State) (m : Msg) (ch : Nat), s.deliverable m = true → m.dst = .home ch → s.mayEnter m = true →
    let u := s.take m
    let line := m.dpa / 128
    u.ownerOk m = true → u.channelHeld (u.channelOf m.dpa) = false → u.waitq.getD line [] = [] → u.sliceBusy (u.channelOf m.dpa) < 128 →
    u.dir.get? line = none → u.failedAt m.dpa = false →
    (m.kind = .rdU → ∃ t, exec (.rdu m) s = .next t ∧ t.mem = s.mem) ∧
    (m.kind = .wrU → m.flag = false → ∃ t, exec (.wru m) s = .next t ∧ t.mem = s.mem.writeN m.dpa m.size (m.pay.getD 0) ∧
      ∀ a, (a < m.dpa ∨ m.dpa + m.size ≤ a) → t.mem.read a = s.mem.read a) ∧
    (m.kind = .atN → u.memPoisoned m.dpa = false → u.memPoisoned (m.dpa + m.size - 1) = false → m.op ≠ 16 → ∃ t, exec (.atn m) s = .next t ∧
      t.mem = s.mem.writeN m.dpa m.size (atomResult m.op m.size (s.mem.readN m.dpa m.size) (m.pay.getD 0) m.cmp) ∧
      ∀ a, (a < m.dpa ∨ m.dpa + m.size ≤ a) → t.mem.read a = s.mem.read a)

/-- Forwards, invalidations, recalls and answers at an open township have the effect of the agent table (R245, R246, R247,
R249, R251, R258). Where it goes beyond the rules it rests on the model's choices of log entry 24. -/
def Obligations.TownshipAnswersTheHome : Prop :=
  ∀ (s : State) (m : Msg) (t : Nat), s.deliverable m = true → m.dst = .agent t → t < 256 → s.shipOpen t = true → s.tagOk t m.tag = true →
    s.lineFree t (m.dpa / 128) = true →
    let u := s.take m
    let line := m.dpa / 128
    (∀ st d po, (s.ship t).holding? line = some (st, d, po) → (st = .E ∨ st = .M) →
      (m.kind = .fwdS → exec (.fwds m) s = .next
        ((((u.afterForward t line true).send { Msg.blank .data (.agent t) m.req m.dpa m.tag m.txid with grant := .S, pay := some d, poison := po }).send
          { Msg.blank .dataH (.agent t) m.src m.dpa m.tag m.txid with pay := if st = .M then some d else none, poison := po }).serveShip t)) ∧
      (m.kind = .fwdX → exec (.fwdx m) s = .next (((u.afterForward t line false).send
        { Msg.blank .data (.agent t) m.req m.dpa m.tag m.txid with grant := st, pay := some d, poison := po }).serveShip t)) ∧
      (m.kind = .rcl → exec (.rcl m) s = .next (((u.afterForward t line false).send
        { Msg.blank .dataH (.agent t) m.src m.dpa m.tag m.txid with pay := if st = .M then some d else none, poison := po }).serveShip t))) ∧
    (m.kind = .inv → exec (.inv m) s = .next (((u.dropWay t line).send
      (Msg.blank .invAck (.agent t) m.req m.dpa (if m.tag = 16 then (s.parcelOfShip t).getD 16 else m.tag) m.txid)).serveShip t)) ∧
    (m.kind = .wbAck → m.flag = false → exec (.wback m) s = .next
      (((u.modShip t (fun x => { x with evb := x.evb.filter (fun b => !(b.line == line && b.tx == m.txid)) })).retryFills t).serveShip t)) ∧
    (∀ x, (u.ship t).misses.get? m.txid = some x →
      (m.kind = .data → x.kind = .rdU → exec (.data m) s = .next (u.answerUncached t m.txid (m.pay.getD 0) m.poison)) ∧
      (m.kind = .data → x.kind ≠ .rdU → ∀ v, v = (if m.src.agent?.isSome then u.transit (Reg.cohCnt t 2) 1 else u) →
        exec (.data m) s = .next ((v.modShip t (fun h => { h with misses := h.misses.set m.txid { x with got := some m } })).complete t m.txid)) ∧
      (m.kind = .atR → ∀ a op n b c i, u.accs.get? x.acc = some a → a.op = .atomic op n b c i → exec (.atr m) s = .next
        ((u.contendAdd t a.ctr m.flag).answerUncached t m.txid (m.pay.getD 0) m.poison))) ∧
    (m.kind = .uAck → exec (.uack m) s = .next (u.answerUncached t m.txid 0 false)) ∧
    (m.kind = .specWait → ∀ x, (u.ship t).misses.get? m.txid = some x → x.kind = .rdU →
      ∃ v w, exec (.specwait m) s = .next (v.serveShip t) ∧ w = (u.transit (Reg.cohCnt t 3) 1).modShip t (fun x => { x with misses := x.misses.erase m.txid }) ∧
        v = { w with accs := w.accs.mapV (fun id a => if [x.acc].contains id && a.spec then { a with st := .closure } else a) })

/-- DataH, WB, InvAck and CmpAck at the home move the transaction on, and a waiting request ages (R244, R245, R248, R249,
R261). -/
def Obligations.HomeCollectsAcknowledgements : Prop :=
  ∀ (s : State) (m : Msg) (ch : Nat), m.dst = .home ch →
    (s.deliverable m = true →
      let u := s.take m
      let line := m.dpa / 128
      (m.kind = .dataH → exec (.datah m) s = .next ((u.writeHome m).txnStep line (fun x => { x with dataH := false }))) ∧
      (m.kind = .wb → ∀ e, u.dir.get? line = some e → e.st = .X → vecBit e.vec (m.src.agent?.getD 0) = true →
        ∀ v, v = u.writeHome m →
        exec (.wb m) s = .next ((({ v with dir := v.dir.erase line }).send (homeMsg v .wbAck m m.src)).serveSet line)) ∧
      (m.kind = .invAck → exec (.invack m) s = .next (u.txnStep line (fun x => { x with invAcks := x.invAcks - 1 }))) ∧
      (m.kind = .cmpAck → exec (.cmpack m) s = .next (u.txnStep line (fun x => { x with cmpAck := false })))) ∧
    (∀ t, s.net.contains m = true → m.aged = false → m.kind.cls = 0 → m.src = .agent t → t < 256 → exec (.aged m) s = .next
      (({ s with net := s.net.map (fun x => if x = m then { x with aged := true } else x) }).transit (Reg.cohCnt t 4) 1))

/-- An idle township or engine sleeps, a packet wakes it and is held, and the wake ends the sleep (R282, R284, R546).
Where it goes beyond the rules it rests on the model's choices of log entry 37. -/
def Obligations.SleepAndWake : Prop :=
  (∀ (s : State) (ship : Nat), ship < 256 → (s.ship ship).asleep = false → ship ∉ s.busyShips → (s.ship ship).streams = [] → (s.ship ship).held = [] →
    (∀ e ∈ s.threads, shipOf e.1 ≠ ship) →
    exec (.townshipSleep ship) s = .next ((s.modShip ship (fun x => { x with asleep := true })).setBit (Reg.pwrT ship) 7 true)) ∧
  (∀ (s : State) (e : Nat), e < 192 → s.engSleep.has e = false → s.engHeld.has e = false → (∀ m ∈ s.net, ∀ c, m.dst = .home c → c / 2 ≠ e) → s.waitq = [] →
    s.channelHeld (2 * e) = false → s.channelHeld (2 * e + 1) = false →
    exec (.selfRefreshEntry e) s = .next { s with engSleep := s.engSleep.set e false }) ∧
  (∀ (s : State) (m : Msg), s.net.contains m = true → s.heldFor m.dst = [] → s.overtakes m.src m.dst m.kind.cls m.hdr false = false →
    (∀ t, m.dst = .agent t → (s.ship t).asleep = true → exec (.wake (.coh m)) s = .next
      ((s.modShip t (fun x => { x with waking := true, held := x.held ++ [⟨m.kind.cls, m.hdr.lastVc, m.hdr.seq⟩] })).transit (Reg.nocCnt t 3) 1)) ∧
    (∀ c, m.dst = .home c → s.engSleep.has (c / 2) = true → exec (.wake (.coh m)) s = .next
      { s with engSleep := s.engSleep.set (c / 2) true,
               engHeld := s.engHeld.set (c / 2) (s.engHeld.getD (c / 2) [] ++ [⟨m.kind.cls, m.hdr.lastVc, m.hdr.seq⟩]) })) ∧
  (∀ (s : State) (t : Nat), (s.ship t).waking = true →
    exec (.wakeDone false t) s = .next ((s.modShip t (fun x => { x with asleep := false, waking := false })).setBit (Reg.pwrT t) 7 false)) ∧
  (∀ (s : State) (e : Nat), s.engSleep.get? e = some true → exec (.wakeDone true e) s = .next { s with engSleep := s.engSleep.erase e }) ∧
  (∀ (s : State) (r n : Nat), r < 260 → ∀ s1, s1 = (s.shipAtRouter r).elim s (fun t => s.transit (Reg.nocCnt t 6) 1) →
    (n < 4 → exec (.headerResend r n) s = .next s1) ∧ (4 ≤ n → exec (.headerResend r n) s = .next (s1.deviceError 0x0B 0 r 5)))

/-- Read reports count and list pages as poisoned, a reload drops them, and a channel is marked to be mapped out (R297,
R299, R566, R569, R570, R571, R572). Where it goes beyond the rules it rests on the model's choices of log entry 42. -/
def Obligations.StackReportsAndPoison : Prop :=
  (∀ (s : State) (dpa : Nat), dpa < s.hbmTop → s.channelOf dpa < 384 →
    let c := s.channelOf dpa
    exec (.hbmReadBurst dpa false) s = .next (s.addSat (Reg.memCh c) 31 16 1) ∧
    (let s1 := s.addSat (Reg.memCh c) 15 8 1
     let lim := s.fieldOf Reg.memRetrainCtrl 55 48
     let s2 := if lim ≠ 0 ∧ lim ≤ s1.fieldOf (Reg.memCh c) 15 8 then s1.mapoutNext c else s1
     let own := s.granOwner (dpa / 2 ^ 30)
     exec (.hbmReadBurst dpa true) s = .next (({ s2 with badBursts := (if s.badBursts.contains (dpa / 64) then s.badBursts else dpa / 64 :: s.badBursts) }.record 0x01 1 (if own < 16 then own else 16) dpa c 1 (s.poisonDetail dpa)).poisonAdd dpa))) ∧
  (∀ (s : State) (dpa : Nat) (u : Bool), (s.hbmTop ≤ dpa ∨ 384 ≤ s.channelOf dpa) → exec (.hbmReadBurst dpa u) s = .next s) ∧
  (∀ (s : State) (c : Nat), c < 384 → s.driverRow = true →
    (s.bit (Reg.memCh c) 3 = false → exec (.mapoutNext c) s = .next
      ((s.setBit (Reg.memCh c) 3 true).recMod (fun r => { r with pendOut := c :: r.pendOut.erase c }))) ∧
    (s.bit (Reg.memCh c) 3 = true → exec (.mapoutNext c) s = .next s)) ∧
  (∀ (s : State) (page o : Nat) (w : WeightSet), s.setOfPage page = some (o, w) →
    (∀ c, s.poison.get? page = some 0 → w.source ≠ 0 → s.ctxOf w.sctx = some c → exec (.poisonReloadStart page) s = .next
      (({ s with poison := s.poison.set page 1 }).hostGet c.fn c.pasid 18
        (hostAddr c (if w.sealed then w.source + w.pageNo page * 65600 else w.source + w.pageNo page * 65536)) (if w.sealed then 65600 else 65536))) ∧
    (s.poison.get? page = some 1 → s.sealOk w = true → s.sourceWaits w = false →
      (s.linesHeld (fun l => l / 512 == page) = true → exec (.poisonReloadDone page) s = .next (s.evictLines (fun l => l / 512 == page))) ∧
      (s.linesHeld (fun l => l / 512 == page) = false → exec (.poisonReloadDone page) s = .next
        (((({ s with tick := s.tick + 1 }).writePage page s.tick).poisonDrop page).addWrap Reg.rasPoisonStat 47 32 1))) ∧
    (s.poison.get? page = some 2 → exec (.poisonReloadDone page) s = .next (({ s with poison := s.poison.set page 1 }).readPageSource page w)) ∧
    (∀ v, s.poison.get? page = some v → (v ≠ 0 ∨ w.source = 0) → exec (.poisonReloadFail page) s = .next
      ((({ s with poison := s.poison.set page 0 }).addSat Reg.rasPoisonStat 63 48 1).record 0x10 0 16 (page * 65536) w.ease 8 0))) ∧
  (∀ (s : State) (page : Nat), (s.poison.get? page = none ∨ s.setOfPage page = none) → exec (.poisonReloadStart page) s = .next s ∧
    exec (.poisonReloadDone page) s = .next s ∧ exec (.poisonReloadFail page) s = .next s) ∧
  (∀ (s : State) (page : Nat), s.driverRow = true → exec (.poisonClear page) s = .next (s.poisonDrop page)) ∧
  (∀ (s : State) (page c : Nat), s.driverRow = false → exec (.poisonClear page) s = .next s ∧ exec (.mapoutNext c) s = .next s)

/-- A stack's refresh step rises at 85, 95 and 105 °C and falls once the reading is 3 °C below the step's threshold
(R296). -/
def Obligations.RefreshStepsFollowTheTemperature : Prop :=
  ∀ (s : State) (stack : Nat) (temp : BitVec 8), stack < 12 → temp.toInt < 115 →
    ∃ u, exec (.refreshStepChange stack temp) s = .next u ∧ u.fieldOf (Reg.memStack stack) 7 0 = temp.toNat ∧
      (let k := u.fieldOf (Reg.memStack stack) 9 8
       let old := s.fieldOf (Reg.memStack stack) 9 8
       stepFor temp.toInt ≤ k ∧ (stepFor temp.toInt < k → k ≤ old ∧ stepThreshold k - 3 < temp.toInt) ∧
       (∀ j, k < j → j ≤ old → temp.toInt ≤ stepThreshold j - 3))

/-- A retraining is asked for, runs in slices that hold its channel's requests, keeps or repeats a phase, and fails at the
third failure (R298, R300, R301, R302, R303). Where it goes beyond the rules it rests on the model's choices of log
entries 39, 108. -/
def Obligations.RetrainingInSlices : Prop :=
  (∀ (s : State) (c : Nat), c < 384 → s.driverRow = true → exec (.retrain c) s = .next ((s.setBit (Reg.memCh c) 4 true).askRetrain c)) ∧
  (∀ (s : State) (c : Nat), c < 384 → s.bit Reg.memRetrainCtrl 0 = true →
    (s.fieldOf Reg.memRetrainCtrl 31 16 ≠ 0 → exec (.retrainTrigger c 0) s = .next (s.askRetrain c)) ∧
    (s.bit Reg.memRetrainCtrl 1 = true → s.drifted c = true → exec (.retrainTrigger c 1) s = .next (s.askRetrain c)) ∧
    (s.fieldOf Reg.memRetrainCtrl 47 40 ≠ 0 → s.ceRisen c = true → exec (.retrainTrigger c 2) s = .next (s.askRetrain c))) ∧
  (∀ (s : State) (c : Nat), s.bit Reg.memRetrainStat 9 = false → s.retrain.phase.has c = false → s.retrain.queue.head? = some c →
    s.bit Reg.memRetrainCtrl 0 = true → s.fieldOf (Reg.memCh c) 2 0 < 3 →
    ∃ u, exec (.sliceStart c) s = .next u ∧ u.mem = s.mem ∧ u.retrain.queue = s.retrain.queue.drop 1 ∧ u.retrain.phase.get? c = some 0 ∧
      u.engSleep = s.engSleep.erase (c / 2)) ∧
  (∀ (s : State), s.bit Reg.memRetrainStat 9 = true →
    let c := s.fieldOf Reg.memRetrainStat 8 0
    let ph := s.retrain.phase.getD c 0
    let s1 (kept : Bool) := (s.setBit Reg.memRetrainStat 9 false).trace 4 1 (c / 2) (bytesOf 4 c ++ bytesOf 4 ph ++ bytesOf 4 (b2n kept))
    let ok := (s1 true).setField (Reg.memCh c) 35 32 0
    let bad := (s1 false).addSat (Reg.memCh c) 35 32 1
    (ph = 3 → exec (.sliceEnd true) s = .next
      ((ok.trained c).releaseSlice c)) ∧
    (ph ≠ 3 → exec (.sliceEnd true) s = .next
      ((({ ok with retrain := { ok.retrain with phase := ok.retrain.phase.set c (ph + 1) } }).setField (Reg.memCh c) 2 0 1).releaseSlice c)) ∧
    (3 ≤ bad.fieldOf (Reg.memCh c) 35 32 → exec (.sliceEnd false) s = .next ((bad.channelFail c).releaseSlice c)) ∧
    (bad.fieldOf (Reg.memCh c) 35 32 < 3 → exec (.sliceEnd false) s = .next ((bad.setField (Reg.memCh c) 2 0 1).releaseSlice c))) ∧
  (∀ (s : State) (c : Nat), c < 384 → s.fieldOf (Reg.memCh c) 2 0 < 3 →
    (s.channelHeld c = false → exec (.channelFailed c) s = .next (s.channelFail c)) ∧
    (s.channelHeld c = true → exec (.channelFailed c) s = .next (((s.channelFail c).setBit Reg.memRetrainStat 9 false).releaseSlice c)))

/-- Errors take a domain down, concern the device or restart the firmware; recovery ends in a parcel reset (R162, R254,
R260, R334, R561, R562, R563, R564). Where it goes beyond the rules it rests on the model's choices of log entry 82. -/
def Obligations.DomainAndDeviceErrors : Prop :=
  (∀ (s : State) (at_ : Nat),
    (∀ e, s.dir.get? (at_ / 128) = some e →
      (e.ease = true → exec (.domainDown 0x03 16 at_ (s.channelOf at_)) s = .next ((s.record 0x03 0 16 at_ (s.channelOf at_) 2 0).rebuildEntry (at_ / 128))) ∧
      (e.ease = false → s.parcels.has e.parcel = true → exec (.domainDown 0x04 e.parcel at_ (s.channelOf at_)) s = .next (s.parcelError 0x04 e.parcel at_ (s.channelOf at_) 2 0))) ∧
    (∀ p, s.parcels.has p = true →
      (s.reservedOwner 0x06 at_ = some p → exec (.domainDown 0x06 p at_ 0) s = .next (s.parcelError 0x06 p at_ 0 0 0)) ∧
      (s.reservedOwner 0x07 at_ = some p → exec (.domainDown 0x07 p at_ 0) s = .next (s.parcelError 0x07 p at_ 0 0 0)) ∧
      (∀ t, s.shipAtRouter at_ = some t → s.parcelOfShip t = some p → exec (.domainDown 0x08 p 0 at_) s = .next (s.parcelError 0x08 p 0 at_ 3 0)))) ∧
  (∀ (s : State) (dpa : Nat), exec (.domainDown 0x05 17 dpa (s.channelOf dpa)) s = .next (s.wordFiveLost dpa)) ∧
  (∀ (s : State) (cause p dpa unit : Nat), s.errorAt cause dpa unit ≠ (p, dpa, unit) → exec (.domainDown cause p dpa unit) s = .next s) ∧
  (∀ (s : State) (p : Nat) (x : Parcel), s.parcels.get? p = some x → x.down = true → (∀ t ∈ x.ships, (s.ship t).test = none) →
    let s1 := s.parcelReset p x.ships x.sites
    exec (.recoveryEnd p) s = .next (x.sites.foldl (fun (s : State) n => s.beginRestart n)
      (({ s1 with parcels := s1.parcels.set p { x with down := false } }).reShare).flushEnd)) ∧
  (∀ (s : State) (a n k : Nat), exec (.deviceError a n k) s = .next (s.deviceError 0x0D a n k)) ∧
  (∀ (s : State), exec .datumControllerWatchdog s = .next (s.deviceError 0x0F 0 0 7)) ∧
  (∀ (s : State) (core q i : Nat) (x : Queue) (c : Cmd), s.queues.get? q = some x → x.ctx = 0 → x.cmds.get? i = some c →
    fwOpcode c.opcode = true → c.open_ = true →
    ∃ u y, exec (.fieldCoreWatchdog core) s = .next u ∧ u.mem = s.mem ∧ u.ctxs = s.ctxs ∧ u.queues.get? q = some y ∧
      y.cmds.get? i = some { c with st := .done ⟨0xF0, 0x0E, 0⟩ }) ∧
  (∀ (s : State) (t : Nat), t < 256 → s.driverRow = true → exec (.predClear t) s = .next (s.modShip t (fun x => { x with pred := [] })) ∧
    exec (.atomClear t) s = .next (s.modShip t (fun x => { x with contend := [] })))

/-- A function queue fetches its next packet, starts its oldest fetched command or answers it, and replies once it
completes (R400, R402, R404, R405, R406, R407, R408, R409). Where it goes beyond the rules it rests on the model's
choices of log entries 63, 64. -/
def Obligations.PacketsAreFetchedStartedAndAnswered : Prop :=
  (∀ (s : State) (q pkt : Nat) (x : Queue), s.queues.get? q = some x → x.ctx = 0 → x.dead = false → x.fetch ≠ x.tail → x.cmds.has x.fetch = false →
    s.hostOpen x.fn = true →
    let c : Cmd := ⟨packetMask (pkt % 2 ^ 512), x.ordinal + 1, [], .fetched, x.subOf, 0, none, none⟩
    let nx := (x.fetch + 1) % 2 ^ 32
    exec (.commandFetch q pkt) s = .next (((s.emit (.hostRead x.fn none (x.ring + 64 * (x.fetch % 2 ^ x.log2)) 64 noAcc)).setQueue q { x with
      fetch := nx, ordinal := x.ordinal + 1, cmds := x.cmds.set x.fetch c, subs := x.subs.filter (fun e => e.1 != nx) }).takeRefs q x.fetch x c)) ∧
  (∀ (s : State) (q : Nat) (x : Queue), s.queues.get? q = some x → x.ctx = 0 → x.dead = false → x.fetch ≠ x.tail →
    exec (.ringFetchFail q) s = .next (((s.setQueue q { x with dead := true }).fnEvent x.fn 0x8005 0x09).interrupt x.fn 0)) ∧
  (∀ (s : State) (q i : Nat) (x : Queue) (c : Cmd), s.queues.get? q = some x → x.next? = some (i, c) → x.st = .running → s.mayStart x c = true → x.ctx = 0 →
    (∀ a, s.startCheck x c = some a → exec (.commandStart q) s = .next (s.answer q i a)) ∧
    (s.startCheck x c = none → s.recordLost (ctxOff (c.context % 4096)) = false → s.recordLost (queueOff q) = false →
      exec (.commandStart q) s = .next (s.modCmd q i (fun c => { c with st := .started })))) ∧
  (∀ (s : State) (q i : Nat) (x : Queue) (c : Cmd) (b : Answer), s.queues.get? q = some x → x.cmds.get? i = some c → c.st = .done b →
    s.degraded = false → c.signalled = false → c.interrupts = false →
    exec (.statusReply q i) s = .next ((c.refs.foldl State.devDrop
      ((s.putReply q i c.seq b).modQueue q (fun y => { y with cmds := y.cmds.erase i }))).raiseQueueFence q))

/-- A command that may start but is unassigned, malformed, on the wrong kind of queue or not the PF's is answered and has
no effect (R409, R410). Where it goes beyond the rules it rests on the model's choices of log entry 61. -/
def Obligations.UnknownAndMisplacedPacketsAreAnswered : Prop :=
  ∀ (s : State) (q i : Nat) (x : Queue) (c : Cmd), s.queues.get? q = some x → x.next? = some (i, c) → x.cmds.get? i = some c → c.st = .fetched →
    x.st = .running → s.mayStart x c = true → x.ctx = 0 →
    let answered (a : Answer) : Prop := ∃ u, exec (.commandStart q) s = .next u ∧ u.cmd? q i = some { c with st := .done a } ∧
      u.mem = s.mem ∧ u.ctxs = s.ctxs ∧ u.objs = s.objs ∧ u.fences = s.fences ∧ u.launches = s.launches ∧ u.regs = s.regs ∧
      ∀ p, p ≠ q → u.queues.get? p = s.queues.get? p
    let kind := (opcodeKind c.opcode).1
    (kind = 0 → answered ⟨0x10, c.opcode, 0⟩) ∧
    (kind ≠ 0 → c.pkt.testBit 15 = true → answered ⟨0x11, 1, 0⟩) ∧
    (kind ≠ 0 → c.pkt.testBit 15 = false → fld c.pkt 55 52 ≠ 0 → answered ⟨0x11, 6, 0⟩) ∧
    (kind = 2 → c.pkt.testBit 15 = false → fld c.pkt 63 52 = 0 → answered ⟨0x60, 1, 0⟩) ∧
    (kind = 3 → c.pkt.testBit 15 = false → fld c.pkt 63 52 = 0 → (opcodeKind c.opcode).2 = true → x.fn ≠ 0 → c.opcode ≠ 0x079 → answered ⟨0x60, 2, 0⟩)

/-- NOP, the fence commands and FENCE_CREATE and FENCE_FREE complete as their fields name (R417, R426, R428, R409). Where
it goes beyond the rules it rests on the model's choices of log entries 26, 61. -/
def Obligations.ContextAndFenceCommands : Prop :=
  (∀ (s : State) (q i : Nat) (x : Queue) (c : Cmd), s.runs q i 0x001 x c → packetCheck c.pkt [] [] [] = none →
    exec (.nop q i) s = .next (s.answer q i ⟨0, 0, 0⟩)) ∧
  (∀ (s : State) (q i n k : Nat) (x : Queue) (c : Cmd) (y : Context) (f : FenceObj), s.named c n y → s.fenceOf (pb c.pkt 11 8) = some (k, f) →
    s.rsvLost (fenceOff (pb c.pkt 11 8 % 2 ^ 20)) = false →
    (f.parcel = y.parcel → packetCheck c.pkt [(8, 11), (16, 23)] [] [] = none →
      (s.runs q i 0x002 x c → s.poisoned f.word = false →
        exec (.fenceSignal q i) s = .next ((s.raiseWord f.word (pb c.pkt 23 16)).answer q i ⟨0, 0, 0⟩)) ∧
      (s.runs q i 0x003 x c → exec (.fenceWait q i) s = .next (s.modCmd q i (fun c => { c with st := .serving [f.word, f.pva, f.ppa] })))) ∧
    (s.runs q i 0x035 x c → packetCheck c.pkt [(8, 11)] [] [] = none → f.ctx = n →
      exec (.fenceFree q i) s = .next (({ s with fences := s.fences.erase k }).answer q i ⟨0, 0, 0⟩))) ∧
  (∀ (s : State) (q i n word pva ppa : Nat) (x : Queue) (c : Cmd) (y : Context), s.named c n y → s.serves q i 0x003 x c [word, pva, ppa] →
    s.poisoned word = false → pb c.pkt 23 16 ≤ s.cohRead word 8 →
    exec (.fenceWaitSatisfied q i) s = .next (s.answer q i ⟨0, 0, b2n (s.abandoned word)⟩)) ∧
  (∀ (s : State) (q i n dpa : Nat) (x : Queue) (c : Cmd) (y : Context), s.named c n y → s.runs q i 0x034 x c →
    packetCheck c.pkt [(8, 23)] [(pvaHigh c.pkt 8, 8)] [(pb c.pkt 15 8 % 16 != 0, 8)] = none →
    s.fenceWord y none (pb c.pkt 15 8) 4 = .ok dpa → s.fences.length < 2 ^ 20 →
    let k := s.fences.freeKey (2 ^ 20)
    let g := nextGen (s.gens.getD (genKey 2 k) 0) 4095
    let s1 := s.cohWrite dpa (bytesOf 8 (pb c.pkt 23 16) ++ bytesOf 8 0)
    exec (.fenceCreate q i) s = .next (({ s1 with
      fences := s1.fences.set k ⟨g, n, y.parcel, pb c.pkt 15 8, s.ppaAt y (pb c.pkt 15 8), dpa⟩
      gens := s1.gens.set (genKey 2 k) g }).answer q i ⟨0, 0, k + g * 2 ^ 20⟩))

/-- Queues, groups and function queues are created in the lowest free number and destroyed when idle (R399, R421, R422,
R423). Where it goes beyond the rules it rests on the model's choices of log entries 61, 109. -/
def Obligations.QueueAndGroupCommands : Prop :=
  (∀ (s : State) (q i : Nat) (x : Queue) (c : Cmd), s.runs q i 0x011 x c → x.fn = 0 → packetCheck c.pkt [] [] [] = none → s.groups.length < 4096 →
    let g := (s.groups.freeFrom? 1 4096).getD 0
    exec (.groupCreate q i) s = .next (({ s with groups := s.groups.set g ⟨0, g⟩ }).answer q i ⟨0, 0, g + g * 2 ^ 16⟩)) ∧
  (∀ (s : State) (q i : Nat) (x : Queue) (c : Cmd) (g : Group), s.runs q i 0x012 x c → packetCheck c.pkt [(8, 9)] [] [] = none →
    s.groups.get? (pb c.pkt 9 8) = some g → g.fn = x.fn → g.page ≠ 0 → (∀ e ∈ s.queues, e.2.group ≠ pb c.pkt 9 8) →
    exec (.groupDestroy q i) s = .next (({ s with groups := s.groups.erase (pb c.pkt 9 8) }).answer q i ⟨0, 0, 0⟩)) ∧
  (∀ (s : State) (q i : Nat) (x : Queue) (c : Cmd), s.runs q i 0x010 x c → reservedByte c.pkt [(8, 8), (16, 41)] = none →
    let n := pb c.pkt 8 8
    1 ≤ n → n < 64 → pb c.pkt 23 16 % 4096 = 0 → pb c.pkt 31 24 % 4096 = 0 → pb c.pkt 39 32 = 0 → 4 ≤ pb c.pkt 40 40 → pb c.pkt 40 40 < 16 →
    s.vfBound n = true → (∀ e ∈ s.queues, e.2.ctx = 0 → e.2.fn ≠ n) → s.vfGroups n ≠ 0 → s.groups.length < 4096 → s.queues.length < 16384 →
    let g := s.groups.freeKey 4096
    exec (.fqCreate q i) s = .next (({ s with
      groups := s.groups.set g ⟨n, 0⟩
      queues := s.queues.set (s.queues.freeKey 16384) (Queue.blank 0 n g 0 (pb c.pkt 40 40) (pb c.pkt 23 16) (pb c.pkt 31 24))
      fnEvents := s.fnEvents.erase n }).answer q i ⟨0, 0, 0⟩)) ∧
  (∀ (s : State) (q i n : Nat) (x : Queue) (c : Cmd) (y : Context) (g : Group), s.runs q i 0x013 x c → s.named c n y →
    reservedByte c.pkt [(8, 14), (16, 35)] = none → pvaHigh c.pkt 16 = false → pvaHigh c.pkt 24 = false →
    let p := c.pkt
    pb p 9 8 < 4096 → pb p 10 10 < 16 → 4 ≤ pb p 11 11 → pb p 11 11 ≤ 15 → pb p 13 12 = 0xFFFF → pb p 14 14 < 4 → pb p 23 16 % 4096 = 0 →
    pb p 31 24 % 4096 = 0 → pb p 35 32 = 0 → s.groups.get? (pb p 9 8) = some g → g.fn = x.fn → (g.page = 0 ∨ pb p 9 8 = 0 → pb p 10 10 ≠ 0) →
    s.queueAt (pb p 9 8) (pb p 10 10) = none → s.queues.length < 16384 → x.fn = 0 →
    let k := s.queues.freeKey 16384
    exec (.queueCreate q i) s = .next ((s.setQueue k { Queue.blank (ctxHandle n y) 0 (pb p 9 8) (pb p 10 10) (pb p 11 11) (pb p 23 16) (pb p 31 24) with
      vector := 0xFFFF, prio := pb p 14 14, fence := 0 }).answer q i ⟨0, 0, k⟩)) ∧
  (∀ (s : State) (q i : Nat) (x y : Queue) (c : Cmd), s.runs q i 0x014 x c → packetCheck c.pkt [(8, 9)] [] [(decide (16383 < pb c.pkt 9 8), 8)] = none →
    let k := pb c.pkt 9 8
    s.queues.get? k = some y → y.fn = x.fn → y.ctx ≠ 0 → y.st = .stopped →
    exec (.queueDestroy q i) s = .next
      (({ (s.flushQueue k ⟨0x41, 0, 0⟩) with queues := (s.flushQueue k ⟨0x41, 0, 0⟩).queues.erase k }).answer q i ⟨0, 0, 0⟩))

/-- Contexts and memory objects are created with a fresh generation, held, queried and freed (R360, R418, R419, R424,
R425). Where it goes beyond the rules it rests on the model's choices of log entries 61, 65, 109. -/
def Obligations.ContextAndMemoryCommands : Prop :=
  (∀ (s : State) (q i : Nat) (x : Queue) (c : Cmd), s.runs q i 0x020 x c → reservedByte c.pkt [(8, 8), (12, 40)] = none →
    let p := c.pkt
    fld p 119 116 = 0 → pb p 15 15 = 0 → pvaHigh p 32 = false → pb p 23 16 % 65536 = 0 → pb p 31 24 % 4096 = 0 → pb p 39 32 = 0 →
    pb p 23 16 < 2 ^ 48 → x.fn = 0 → s.confidential = false → s.ctxs.length < 4096 → s.parcels.has (pb p 8 8) = true → (∀ e ∈ s.ctxs, e.2.fn = 0 → e.2.pasid ≠ fld p 115 96) →
    let n := s.ctxs.freeKey 4096
    let g := nextGen (s.gens.getD (genKey 0 n) 0) 15
    let y : Context := ⟨g, pb p 8 8, 0, fld p 115 96, pb p 23 16, pb p 31 24, none, .live, none, 0, [], 0⟩
    exec (.ctxCreate q i) s = .next (({ (s.setCtx n y) with gens := s.gens.set (genKey 0 n) g }).answer q i ⟨0, 0, n + g * 4096⟩)) ∧
  (∀ (s : State) (q i n : Nat) (x : Queue) (c : Cmd) (y : Context), s.named c n y →
    (s.runs q i 0x022 x c → packetCheck c.pkt [] [] [] = none →
      let s1 := (s.dropTlb n).sendXinv n y
      let ids := s.openIds (fun a => a.ctx % 4096 == n)
      (s1.invalidated n ids = true → exec (.ctxInvalidate q i) s = .next (s1.answer q i ⟨0, 0, 0⟩)) ∧
      (s1.invalidated n ids = false → exec (.ctxInvalidate q i) s = .next (s1.modCmd q i (fun c => { c with st := .serving (n :: ids) })))) ∧
    (∀ d, s.serves q i 0x022 x c d → s.invalidated (d.headD 4096) (d.drop 1) = true → s.queues.get? q = some x →
      exec (.ctxInvalidate q i) s = .next (s.answer q i ⟨0, 0, 0⟩)) ∧
    (s.runs q i 0x030 x c → reservedByte c.pkt [(8, 27), (32, 39)] = none →
      let base := pb c.pkt 15 8
      let size := pb c.pkt 23 16
      base % 4096 = 0 → size ≠ 0 → size % 4096 = 0 → pb c.pkt 27 24 = 0 → s.objs.length < 2 ^ 20 → base + size ≤ 2 ^ 48 →
      (∀ g, base / 2 ^ 30 ≤ g → g ≤ (base + size - 1) / 2 ^ 30 → (s.platEntry y.parcel g none).testBit 0 = true) → y.holds.length < 16384 →
      let k := s.objs.freeKey (2 ^ 20)
      let g := nextGen (s.gens.getD (genKey 1 k) 0) 4095
      exec (.memCreate q i) s = .next ((({ s with
        objs := s.objs.set k ⟨g, y.parcel, base, size, 0, 0, 0, pb c.pkt 39 32, none⟩
        gens := s.gens.set (genKey 1 k) g }).holdAdd n k 1).answer q i ⟨0, 0, k + g * 2 ^ 20⟩)) ∧
    (∀ k o, s.objOf (pb c.pkt 11 8) y.parcel = some (k, o) → s.rsvLost (objOff (pb c.pkt 11 8 % 2 ^ 20)) = false →
      let cnt := pb c.pkt 15 12
      (packetCheck c.pkt [(8, 15)] [] [] = none → 0 < cnt → y.holds.has k = true →
        (s.runs q i 0x031 x c → o.host + cnt < 2 ^ 32 → exec (.memHold q i) s = .next (((s.touchSets [k]).holdAdd n k cnt).answer q i ⟨0, 0, 0⟩)) ∧
        (s.runs q i 0x032 x c → cnt < y.holds.getD k 0 →
          let s1 := (s.touchSets [k]).modCtx n (fun c => { c with holds := c.holds.set k (y.holds.getD k 0 - cnt) })
          exec (.memFree q i) s = .next
            ((({ s1 with objs := s1.objs.modify k (fun o => { o with host := o.host - cnt }) }).releaseIfFree k).answer q i ⟨0, 0, 0⟩))) ∧
      (s.runs q i 0x033 x c → packetCheck c.pkt [(8, 11)] [] [] = none →
        exec (.memQuery q i) s = .next ((s.touchSets [k]).answer q i ⟨0, 0, o.host % 2 ^ 32 + o.dev % 2 ^ 32 * 2 ^ 32⟩))))

/-- A weight set is registered to an easement, loaded into free bays, pinned, unpinned and evicted (R450, R451, R453,
R454, R456, R507). Where it goes beyond the rules it rests on the model's choices of log entries 42, 65. -/
def Obligations.WeightSetCommands : Prop :=
  (∀ (s : State) (q i n : Nat) (x : Queue) (c : Cmd) (y : Context) (pc : Parcel) (e : Easement), s.runs q i 0x060 x c → s.named c n y →
    let p := c.pkt
    reservedByte p [(8, 26)] = none → pvaHigh p 8 = false → pb p 15 8 % 65536 = 0 → inHost (pb p 15 8) = true → pb p 23 16 ≠ 0 → pb p 23 16 % 65536 = 0 →
    pb p 25 24 < 256 → pb p 26 26 < 2 → s.parcels.get? y.parcel = some pc → (∃ m ∈ pc.eases, m.2 = pb p 25 24) → s.eases.get? (pb p 25 24) = some e →
    pb p 23 16 ≤ e.size * 2 ^ 30 → e.wset = 0 → s.objs.length < 2 ^ 20 → y.holds.length < 16384 →
    let k := s.objs.freeKey (2 ^ 20)
    let g := nextGen (s.gens.getD (genKey 1 k) 0) 4095
    let h := k + g * 2 ^ 20
    let w : WeightSet := ⟨pb p 15 8, ctxHandle n y, pb p 23 16, pb p 25 24, pb p 26 26 == 1, [], false, false, 0, 0⟩
    exec (.wsetRegister q i) s = .next ((({ s with
      objs := s.objs.set k ⟨g, y.parcel, 0, pb p 23 16, 0, 0, 0, 0, some w⟩
      gens := s.gens.set (genKey 1 k) g
      eases := s.eases.set (pb p 25 24) { e with wset := h } }).holdAdd n k 1).answer q i ⟨0, 0, h⟩)) ∧
  (∀ (s : State) (q i n k : Nat) (x : Queue) (c : Cmd) (y : Context) (o : MemObj) (w : WeightSet), s.named c n y → packetCheck c.pkt [(8, 11)] [] [] = none →
    s.objOf (pb c.pkt 11 8) y.parcel = some (k, o) → o.wset = some w → s.rsvLost (objOff (pb c.pkt 11 8 % 2 ^ 20)) = false →
    let s1 := s.touchSets [k]
    (s.runs q i 0x061 x c →
      (w.resident = true → exec (.wsetLoad q i) s = .next (s1.answer q i ⟨0, 0, w.bays.length⟩)) ∧
      (w.resident = false → w.loading = false → ∀ s2, s1.loadSet k = .ok s2 →
        exec (.wsetLoad q i) s = .next (s2.modCmd q i (fun c => { c with st := .serving [0xF001, k] })))) ∧
    (s.runs q i 0x062 x c → w.resident = true →
      exec (.wsetPin q i) s = .next ((s1.modWset k (fun w => { w with pins := satAdd 8 w.pins 1 })).answer q i ⟨0, 0, 0⟩)) ∧
    (s.runs q i 0x063 x c → w.pins ≠ 0 →
      exec (.wsetUnpin q i) s = .next ((s1.modWset k (fun w => { w with pins := w.pins - 1 })).answer q i ⟨0, 0, 0⟩)) ∧
    (s.runs q i 0x064 x c → w.resident = true → w.loading = false → w.pins = 0 → o.dev = 0 →
      exec (.wsetEvict q i) s = .next ((s1.evictSet k).answer q i ⟨0, 0, 0⟩))) ∧
  (∀ (s : State) (k : Nat) (w : WeightSet), s.wset? k = some w → w.loading = true → w.sealed = false → s.sourceWaits w = false →
    (s.linesHeld (inGranules w.bays) = true → exec (.wsetLoadDone k none) s = .next (s.evictLines (inGranules w.bays))) ∧
    (s.linesHeld (inGranules w.bays) = false →
    let s1 := w.bays.foldl State.loadGranule s
    let s2 := { s1 with eases := s1.eases.modify w.ease (fun e => { e with map := (w.bays.zipIdx).foldl (fun m (x : Nat × Nat) => m.set x.2 x.1) [] }) }
    let s3 := (s2.addWrap Reg.cmdWpoolStat 47 32 1).modWset k (fun w => { w with loading := false, resident := true })
    exec (.wsetLoadDone k none) s = .next { s3 with queues := s3.queues.mapV (fun _ q => { q with cmds := q.cmds.mapV (fun _ c =>
      if c.loads? = some k then { c with st := .started } else c) }) }))

/-- LAUNCH waits for townships, COPY and FILL go in pieces of 4 KiB, and WORK goes to its site's engine (R30, R33, R415,
R416, R430, R433, R434, R608). Where it goes beyond the rules it rests on the model's choices of log entries 46, 66. -/
def Obligations.LaunchesCopiesAndWork : Prop :=
  (∀ (s : State) (q i n : Nat) (x : Queue) (c : Cmd) (y : Context) (d : Option DispDesc) (g : Option GatherDesc), s.runs q i 0x040 x c → s.named c n y →
    s.launchCheck (s.req q i x c) y c = .ok (d, g) → c.early = none → c.refs = [] →
    (∀ r ∈ s.launchReads (s.req q i x c) y c, s.engineHeld y r.1 r.2 = false) →
    let p := c.pkt
    let s0 := { (s.launchAsk (s.req q i x c) y c) with tick := (s.launchAsk (s.req q i x c) y c).tick + 1 }
    (pb p 25 24 * pb p 26 26 * pb p 27 27 * pb p 28 28 = 0 → exec (.launch q i) s = .next (s0.answer q i ⟨0, 0, 0⟩)) ∧
    (pb p 25 24 * pb p 26 26 * pb p 27 27 * pb p 28 28 ≠ 0 →
      ∃ u l, exec (.launch q i) s = .next u ∧ u.launches.get? s0.launches.nextKey = some l ∧ l.st = .waiting ∧ l.queue = q ∧ l.idx = i ∧
        l.ctx = ctxHandle n y ∧ l.parcel = y.parcel ∧ (l.gt, l.gs, l.gc, l.gh) = (pb p 25 24, pb p 26 26, pb p 27 27, pb p 28 28) ∧
        l.entry = pb p 15 8 ∧ l.args = pb p 23 16 ∧ l.disp = d ∧ l.gather = g ∧ u.mem = s0.mem ∧ u.threads = s0.threads)) ∧
  (∀ (s : State) (q i : Nat) (x : Queue) (c : Cmd), c.early = none → c.refs = [] →
    let p := c.pkt
    let s0 := { s with tick := s.tick + 1 }
    (s.runs q i 0x041 x c → reservedByte p [(8, 39)] = none → pvaHigh p 8 = false → pvaHigh p 16 = false → pb p 31 24 ≤ 2 ^ 40 →
      overlaps (pb p 15 8) (pb p 23 16) (pb p 31 24) = false →
      (pb p 31 24 = 0 → exec (.copy q i) s = .next (s0.answer q i ⟨0, 0, 0⟩)) ∧
      (pb p 31 24 ≠ 0 → exec (.copy q i) s = .next (s0.modCmd q i (fun c => { c with st := .serving [0] })))) ∧
    (s.runs q i 0x042 x c → reservedByte p [(8, 35)] = none → pvaHigh p 8 = false → pb p 23 16 ≤ 2 ^ 40 →
      (pb p 23 16 = 0 → exec (.fill q i) s = .next (s0.answer q i ⟨0, 0, 0⟩)) ∧
      (pb p 23 16 ≠ 0 → exec (.fill q i) s = .next (s0.modCmd q i (fun c => { c with st := .serving [0] })))) ∧
    (∀ n y, s.runs q i 0x043 x c → s.named c n y → reservedByte p [(8, 9), (12, 63)] = none → pb p 8 8 < 8 → pb p 9 9 < 64 →
      s0.parcelOfSite (pb p 8 8) = some y.parcel → pb p 9 9 < fld ((s0.site (pb p 8 8)).sb.getD 8 0).toNat 9 3 → s0.fieldOf (Reg.siteStat (pb p 8 8)) 2 0 = 4 →
      exec (.work q i) s = .next (({ s with tick := s.tick + 2 }).modCmd q i (fun c => { c with st := .serving [pb p 8 8, pb p 9 9, 0, s.tick + 1] })))) ∧
  (∀ (s : State) (q i n off : Nat) (x : Queue) (c : Cmd) (y : Context) (s1 : State), s.serves q i 0x042 x c [off] → s.named c n y → x.st ≠ .stopped →
    let p := c.pkt
    s.linkHeld y (pb p 15 8 + off) = false → c.poison = 0 → off < pb p 23 16 →
    s.fillRuns y x.prio (pb p 31 24) 3 (pb p 15 8 + off) (min 4096 (pb p 23 16 - off)) = .ok s1 →
    let m := min 4096 (pb p 23 16 - off)
    let s2 := (s1.countRuns y (s.copyShip y.parcel off) true 3 (pb p 15 8 + off) m).modCmd q i (fun c => { c with poison := satAdd 32 c.poison 0 })
    (pb p 23 16 ≤ off + 4096 → s2.writesOpen x.fn = false → exec (.copyPiece q i) s = .next (s2.answer q i ⟨0, 0, 0⟩)) ∧
    ((off + 4096 < pb p 23 16 ∨ s2.writesOpen x.fn = true) → exec (.copyPiece q i) s = .next (s2.modCmd q i (fun c => { c with st := .serving [off + 4096] })))) ∧
  (∀ (s : State) (q i n e k cn : Nat) (x : Queue) (c : Cmd) (y : Context), s.serves q i 0x043 x c [n, e, 0, k] → s.named c cn y →
    s.parcelOfSite n = some y.parcel → (s.site n).atEngine e < s.engDepth n e → (s.site n).works.length < 4096 → s.workAhead q n e k = false →
    let id := (s.site n).works.freeKey 4096
    let s1 := s.modSite n (fun x => { x with works := x.works.set id ⟨q, i, cn, e, false, []⟩ })
    exec (.workSent q i) s = .next ((s1.txSend 680 n (txPacket 0x28 0 (s1.parcelTag n) 680 e id 0 cn [c.pkt % 2 ^ 256, c.pkt / 2 ^ 256])).modCmd q i (fun c => { c with st := .serving [n, e, 1, id] })))

/-- QUEUE_STOP stops the queues it names, QUEUE_STOPPED answers it, QUEUE_RESUME runs them again and RESTORE puts a launch
back (R435, R436, R443, R445, R448, R449). Where it goes beyond the rules it rests on the model's choices of log
entries 6, 63. -/
def Obligations.StopsResumesAndRestores : Prop :=
  (∀ (s : State) (q i k : Nat) (x y : Queue) (c : Cmd), pb c.pkt 8 8 = 0 → k = pb c.pkt 11 10 → s.queues.get? k = some y → y.ctx ≠ 0 → y.fn = x.fn →
    (s.runs q i 0x015 x c → reservedByte c.pkt [(8, 12)] = none → pb c.pkt 9 9 = 0 →
      exec (.queueStop q i) s = .next ((s.stopQueue k 0).modCmd q i (fun c => { c with st := .serving [0, 0, k] }))) ∧
    (s.runs q i 0x016 x c → reservedByte c.pkt [(8, 12)] = none → pb c.pkt 9 9 = 0 → y.st ≠ .stopping → (∀ e ∈ s.launches, e.2.st ≠ .saved) →
      exec (.queueResume q i) s = .next ((s.modQueue k (fun x => { x with st := .running, grade := 0 })).answer q i ⟨0, 0, 0⟩))) ∧
  (∀ (s : State) (q i k a b : Nat) (x : Queue) (c : Cmd), s.serves q i 0x015 x c [a, b, k] → s.stopReady k = true →
    (∀ e ∈ s.launches, e.2.queue = k → s.parcelHalted e.2.parcel = false) →
    let ls := s.launches.filter (fun e => [k].contains e.2.queue && e.2.st == .stopping)
    let s1 := ls.foldl (fun s e => (e.2.ships.foldl (fun s t => s.saveImage e.1 e.2 t) s).setLaunch e.1 { e.2 with st := .saved }) s
    (ls = [] ∨ s.slicing = false →
      exec (.queueStopped q i) s = .next ((s1.stopped k).answer q i ⟨0, a, 1 + b % 65536 * 2 ^ 16⟩)) ∧
    (ls ≠ [] → s.slicing = true → exec (.queueStopped q i) s = .next s)) ∧
  (∀ (s : State) (id : Nat) (l : Launch), s.launches.get? id = some l → l.st = .restoring → s.mayPlace id l = true → (s.fits l).isSome = true →
    let s1 := (l.ships.foldl (fun s t => (s.saveBursts false (s.frameRuns t)).restoreShip t) s).setLaunch id { l with st := .placed, starved := false }
    let s2 := l.ships.foldl (fun s t => ((s.ship t).returns.filter (fun e => match s.accs.get? e.2.acc with
      | some a => a.launch == id
      | none => true)).foldl (fun s e => s.applyReturn t e.1 e.2) s) s1
    (s.slicing = false → s.frameLost l = none → exec (.restore id) s = .next (s2.applyClosures id)) ∧
    (s.slicing = true → exec (.restore id) s = .next s)) ∧
  (∀ (s : State) (t tx : Nat) (e : Returned) (a : Acc), (s.ship t).returns.get? tx = some e → s.accs.get? e.acc = some a → a.st = .done → e.answer = none →
    exec (.ledgerAnswer t tx) s = .next (s.modShip t (fun x => { x with returns := x.returns.set tx { e with answer := some a.value } })))

/-- Sequences are admitted and retired, and a step opens, closes and makes its tokens final (R185, R186, R187, R189, R191,
R193, R194, R195, R196). Where it goes beyond the rules it rests on the model's choices of log entries 31, 32, 113,
116. -/
def Obligations.SequencesAndSteps : Prop :=
  (∀ (s : State) (q i n sn cb : Nat) (x : Queue) (c : Cmd) (y : Context), s.runs q i 0x050 x c → s.named c n y →
    let p := c.pkt
    let mx := pb p 11 8
    let prompt := pb p 15 12
    let sh := pb p 21 21
    reservedByte p [(8, 21), (24, 27)] = none → mx ≠ 0 → prompt ≤ mx → 6 ≤ sh → sh ≤ 19 → 2 ^ sh ≤ s.pageSize y.parcel →
    let tpp := s.tpp y.parcel sh
    let need := ceilDiv mx tpp
    let f := min (ceilDiv (prompt + pb p 19 16) tpp) need
    s.freeSeq y.parcel = some sn → s.entryRun y.parcel need = some cb → f + s.growthFloor y.parcel ≤ (s.freeFrames y.parcel).length →
    (∀ off ∈ seqOff sn :: (upTo need).map (fun k => cadOff (cb + k)), s.rsvLost off = false) →
    let ord := s.orders.getD y.parcel 0
    let z : Seq := ⟨.joining, pb p 20 20, sh, y.parcel, cb, mx, 0, 0, prompt, 0, ord, pb p 27 24, ctxHandle n y⟩
    let s1 := (s.takeFrames f (s.freeFrames y.parcel)).2
    let s2 := { s1 with
      seqs := s1.seqs.set sn z
      orders := s1.orders.set y.parcel ((ord + 1) % 2 ^ 32)
      cad := (upTo need).foldl (fun c k => c.set (cb + k) ⟨sn, none, 0⟩) s1.cad }
    let s3 := s2.attach sn (s2.batch y.parcel z.batch).steps 0 (s.takeFrames f (s.freeFrames y.parcel)).1
    exec (.seqAdmit q i) s = .next ((s3.cadInvalidate y.parcel ((upTo need).map (fun k => cb + k))).answer q i ⟨0, 0, sn + ord * 2 ^ 32⟩)) ∧
  (∀ (s : State) (q i n : Nat) (x : Queue) (c : Cmd) (y : Context), s.named c n y →
    (∀ z, s.runs q i 0x051 x c → packetCheck c.pkt [(8, 9)] [(fld c.pkt 79 78 != 0, 9)] [] = none →
      (∀ off ∈ s.retireReads (fld c.pkt 77 64), s.rsvLost off = false) → s.seqs.get? (fld c.pkt 77 64) = some z →
      z.parcel = y.parcel → exec (.seqRetire q i) s = .next ((s.retireSeq (fld c.pkt 77 64)).answer q i ⟨0, 0, 0⟩)) ∧
    (s.runs q i 0x052 x c → reservedByte c.pkt [(8, 8), (12, 27)] = none → pvaHigh c.pkt 16 = false → pb c.pkt 23 16 % 16 = 0 → pb c.pkt 27 24 ≠ 0 →
      let b := pb c.pkt 8 8
      (s.batch y.parcel b).open_ = false → (∀ off ∈ s.stepReads y.parcel b, s.rsvLost off = false) →
      let a := (s.stepSeqs y.parcel b).foldl (stepSeq y.parcel (pb c.pkt 15 12)) ⟨s, [], 0, 0, []⟩
      a.slots.length ≤ pb c.pkt 27 24 →
      let s1 := { a.s with batches := a.s.batches.set (batchKey y.parcel b) ⟨true, (a.s.batch y.parcel b).steps⟩ }
      let r := min a.slots.length (2 ^ 32 - 1) + min a.stalled 65535 * 2 ^ 32 + min a.appends 65535 * 2 ^ 48
      (a.slots = [] → exec (.stepOpen q i) s = .next ((s1.cadInvalidate y.parcel a.changed).answer q i ⟨0, 0, r⟩)) ∧
      (∀ s2, a.slots ≠ [] → s1.engineWrite y (pb c.pkt 23 16) a.slots.flatten = .ok s2 →
        exec (.stepOpen q i) s = .next ((s2.cadInvalidate y.parcel a.changed).answer q i ⟨0, 0, r⟩))) ∧
    (s.runs q i 0x053 x c → packetCheck c.pkt [(8, 8)] [] [] = none → (s.batch y.parcel (pb c.pkt 8 8)).open_ = true →
      exec (.stepClose q i) s = .next (s.modCmd q i (fun z => { z with st := .serving [(s.batch y.parcel (pb c.pkt 8 8)).steps] }))) ∧
    (∀ d, s.serves q i 0x053 x c d → (s.batch y.parcel (pb c.pkt 8 8)).open_ = true → d.headD 0 = (s.batch y.parcel (pb c.pkt 8 8)).steps →
      s.specPending y.parcel = false →
      let b := pb c.pkt 8 8
      let mine := s.seqs.filter (fun e => e.2.parcel == y.parcel && e.2.batch == b)
      (∀ e ∈ mine, ∀ off ∈ (if e.2.st = .leaving then s.seqReads e.1 else [seqOff e.1]), s.rsvLost off = false) →
      let s1 := { s with seqs := s.seqs.mapV (fun _ x =>
        if x.parcel = y.parcel ∧ x.batch = b ∧ x.st = SeqSt.running then { x with tokens := x.ptokens } else x) }
      let s2 := (mine.filter (fun e => e.2.st == .leaving)).foldl (fun s e => s.releaseSeq e.1) s1
      exec (.stepClosure q i) s = .next
        (({ s2 with batches := s2.batches.set (batchKey y.parcel b) ⟨false, (s.batch y.parcel b).steps + 1⟩ }).answer q i ⟨0, 0, 0⟩)))

/-- A gather stream takes its bound, copies its chunks while the ring has room, and a context retires (R199, R200, R201,
R202, R203, R360, R420). Where it goes beyond the rules it rests on the model's choices of log entries 26, 65, 114,
115. -/
def Obligations.GatherStreamsAndRetirement : Prop :=
  (∀ (s : State) (t sec ln : Nat) (l : Launch) (g : GatherDesc), s.launchOn t = some (ln, l) → l.gather = some g → (s.ship t).streams.has sec = false →
    sec < l.gs → l.st = .placed →
    let item := g.items.getD (l.gridSection t sec) 0
    let k := t * 64 + sec
    let b := s.streamBound l.parcel item
    let v := (({ s with tick := s.tick + 1 }).padEngine k 1 ln (g.ctrl + 8) 4 b.1 true).padEngine k 1 ln (g.ctrl + 12) 1 b.2.1 true
    ∃ y : Stream, exec (.gatherStreamStart t sec) s = .next (v.modShip t (fun h => { h with streams := h.streams.set sec y })) ∧
      y.launch = ln ∧ y.seq = fld item 13 0 ∧ y.first = pb item 7 4 ∧ (b.2.2.isSome = true → y.rows = b.1) ∧ (b.2.2.isSome = false → y.rows = 0) ∧ y.chunk = 0 ∧
      y.status = b.2.1 ∧ (b.2.2.isSome = true → y.ended = decide (b.1 = 0)) ∧ (b.2.2.isSome = false → y.ended = true)) ∧
  (∀ (s : State) (t sec ln : Nat) (l : Launch) (g : GatherDesc) (x : Stream), s.launchOn t = some (ln, l) → l.gather = some g →
    s.stream? t sec = some x → x.ended = false → x.launch = ln → (s.sect (t * 64 + sec)).gathering = false →
    let k := t * 64 + sec
    let per := g.units / x.len
    let c := x.chunk
    let rows := (upTo per).filter (fun j => decide (c * per + j < x.rows))
    c - min (s.spm.readN (spKey k (g.ctrl + 4)) 4) c < g.chunks → (∀ j ∈ rows, s.rowHeld t l x (c * per + j) = false) →
    let s1 := rows.foldl (fun s j =>
      s.gatherRow t sec l g (c * per + j) (g.ring + c % g.chunks * g.units * 64 + j * x.len * 64)) s
    (s1.stream? t sec).isNone = false →
    exec (.gatherChunk t sec) s = .next ((s1.padEngine k 1 ln g.ctrl 4 (c + 1) true).modShip t (fun h => { h with
      streams := h.streams.modify sec (fun y => { y with chunk := c + 1, ended := decide (x.rows ≤ (c + 1) * per) }) }))) ∧
  (∀ (s : State) (q i n : Nat) (x : Queue) (c : Cmd) (y : Context), s.runs q i 0x021 x c → s.named c n y → packetCheck c.pkt [] [] [] = none →
    let s1 := ((s.retireStop n y).dropTlb n).sendXinv n y
    let aborted := ((s.ctxQueues (ctxHandle n y)).map (fun k => ((s.queues.get? k).map Queue.uncompleted).getD 0)).sum
    let left := ((s.worksOf n).filter (fun w => !((s.site w.1).sb.getD 8 0).toNat.testBit 13)).length
    (∀ z, s1.ctxs.get? n = some z → z.xinv = 0 → exec (.ctxRetire q i) s = .next (s1.retireEnd n (s.req q i x c) [n, aborted, left])) ∧
    (∀ z, s1.ctxs.get? n = some z → z.xinv ≠ 0 →
      exec (.ctxRetire q i) s = .next (s1.modCmd q i (fun c => { c with st := .serving [n, aborted, left] }))))

/-- A parcel is created, resized and destroyed by its commands, its holding changing at one instant once granules are
zeroed (R459, R461, R467, R468, R469, R470, R471, R256). Where it goes beyond the rules it rests on the model's
choices of log entries 6, 69. -/
def Obligations.ParcelsAreMadeResizedAndDestroyed : Prop :=
  (∀ (s : State) (q i : Nat) (x : Queue) (c : Cmd), s.parcelBusy = false → s.haltedFor q i 0x070 = false → s.runs q i 0x070 x c →
    reservedByte c.pkt [(8, 11), (16, 47)] = none →
    let p := pb c.pkt 8 8
    let hbm := pb c.pkt 11 10
    let ships := bitsOf 256 (pb c.pkt 47 16)
    let sites := bitsOf 8 (pb c.pkt 9 9)
    p < 16 → hbm ≤ 768 → s.confidential = false → s.parcels.has p = false → (∀ t ∈ ships, s.shipFree t = true) → (∀ n ∈ sites, s.parcelOfSite n = none) →
    (hbm = 0 → exec (.parcelCreate q i) s = .next ((s.parcelMake p ships sites []).answer q i ⟨0, 0, 0⟩)) ∧
    (0 < hbm → hbm ≤ s.freeGrans.length →
      exec (.parcelCreate q i) s = .next (s.modCmd q i (fun c => { c with st := .serving (0xF020 :: p :: s.freeGrans.take hbm) })))) ∧
  (∀ (s : State) (q i p : Nat) (gs : List Nat) (x : Queue) (c : Cmd), s.serves q i 0x070 x c (0xF020 :: p :: gs) →
    (s.linesHeld (inGranules gs) = true → exec (.granuleZeroed q i) s = .next (s.evictLines (inGranules gs))) ∧
    (s.linesHeld (inGranules gs) = false →
      let ships := bitsOf 256 (pb c.pkt 47 16)
      let sites := bitsOf 8 (pb c.pkt 9 9)
      (s.holdBusy ships sites gs = none → exec (.granuleZeroed q i) s = .next ((s.parcelMake p ships sites gs).answer q i ⟨0, 0, 0⟩)) ∧
      (∀ a, s.holdBusy ships sites gs = some a → exec (.granuleZeroed q i) s = .next (s.gate.answer q i a)))) ∧
  (∀ (s : State) (q i p : Nat) (l : List Nat) (x : Queue) (c : Cmd), s.serves q i 0x071 x c (0xF021 :: p :: 0 :: l) →
    s.linesHeld (inGranules (resizeOf l).add) = false →
    exec (.granuleZeroed q i) s = .next (s.resizeEnd ⟨q, i, x.fn, none, c.pkt⟩ p true (resizeOf l))) ∧
  (∀ (s : State) (q i : Nat) (x : Queue) (c : Cmd) (y : Parcel) (z : Resize), s.parcelBusy = false → s.haltedFor q i 0x071 = false → s.runs q i 0x071 x c →
    reservedByte c.pkt [(8, 11), (16, 47)] = none → pb c.pkt 8 8 < 16 → pb c.pkt 11 10 ≤ 768 → s.confidential = false →
    s.parcels.get? (pb c.pkt 8 8) = some y → s.resizeCheck (pb c.pkt 8 8) y (bitsOf 256 (pb c.pkt 47 16)) (bitsOf 8 (pb c.pkt 9 9)) (pb c.pkt 11 10) = .ok z →
    exec (.parcelResize q i) s = .next (((y.sites.filter (fun n => !z.sites.contains n)).foldl State.flushSite s).resizeEnd (s.req q i x c)
      (pb c.pkt 8 8) z.add.isEmpty z)) ∧
  (∀ (s : State) (q i : Nat) (x : Queue) (c : Cmd) (y : Parcel), s.parcelBusy = false → s.haltedFor q i 0x072 = false → s.runs q i 0x072 x c →
    reservedByte c.pkt [(8, 8)] = none → pb c.pkt 8 8 < 16 → s.confidential = false → s.parcels.get? (pb c.pkt 8 8) = some y →
    (∀ e ∈ s.ctxs, e.2.parcel ≠ pb c.pkt 8 8) → (∀ n, 1 ≤ n → n < 64 → s.vfBound n = true → s.vfParcel n ≠ pb c.pkt 8 8) →
    let up := y.sites.filter (fun n => s.fieldOf (Reg.siteStat n) 2 0 == 4)
    exec (.parcelDestroy q i) s = .next ((up.foldl State.flushSite s).destroyEnd (s.req q i x c) (pb c.pkt 8 8) up)) ∧
  (∀ (s : State) (t p : Nat), s.parcelOfShip t = some p → (s.ship t).leaving = true → (s.ship t).image = none → t ∉ s.busyShips →
    (∀ e ∈ (s.ship t).returns, e.2.answer ≠ none) → (s.ship t).test = none → s.shipQuiet t = true →
    let s2 := (s.writeBackShip t).modShip t (fun h => { h.forget (fun _ => true) with leaving := false, returns := [] })
    exec (.townshipLeave t) s = .next { s2 with parcels := s2.parcels.modify p (fun y => { y with ships := y.ships.filter (fun r => r != t) }) })

/-- Plat edits, easement maps and expert routes change the parcel's tables once their checks pass (R146, R147, R463, R464,
R466, R473, R474, R502). Where it goes beyond the rules it rests on the model's choices of log entries 30, 58, 69, 70,
94. -/
def Obligations.PlatsEasementsAndRoutes : Prop :=
  (∀ (s : State) (q i : Nat) (x : Queue) (c : Cmd), s.parcelBusy = false → s.haltedFor q i 0x073 = false → s.runs q i 0x073 x c →
    let p := pb c.pkt 8 8
    let op := pb c.pkt 9 9
    let first := pb c.pkt 19 16
    let cnt := pb c.pkt 23 20
    let dpa := pb c.pkt 27 24
    reservedByte c.pkt [(8, 9), (16, 27)] = none → first < 2 ^ 18 → dpa < 2 ^ 18 → p < 16 → op ≤ 2 → first + cnt ≤ 2 ^ 18 → 0 < cnt →
    s.confidential = false → s.parcels.has p = true →
    let new := (upTo cnt).map (fun j => (first + j, if op = 0 then 0 else platMap (if op = 1 then 0 else 2) (dpa + j)))
    (∀ e ∈ new, s.platBad p e.2 = none) → (∀ e ∈ new, fld (s.platEntry p e.1 none) 2 1 ≠ 1) → s.poolBusy p first cnt = false → s.platHeld p = false →
    exec (.platEdit q i) s = .next ((s.platPut p new).platFinish (s.req q i x c) p)) ∧
  (∀ (s : State) (q i : Nat) (x : Queue) (c : Cmd) (y : Parcel) (z : Easement), s.parcelBusy = false →
    let p := pb c.pkt 8 8
    let e := pb c.pkt 9 9
    let first := pb c.pkt 19 16
    p < 16 → s.confidential = false → s.parcels.get? p = some y → s.eases.get? e = some z → s.platHeld p = false →
    (s.haltedFor q i 0x075 = false → s.runs q i 0x075 x c → reservedByte c.pkt [(8, 9), (16, 19)] = none → first < 2 ^ 18 → first + z.size ≤ 2 ^ 18 → (∀ m ∈ y.eases, m.2 ≠ e) →
      (∀ j, j < z.size → (s.platEntry p (first + j) none).testBit 0 = false) →
      exec (.easeMap q i) s = .next ((({ s with parcels := s.parcels.set p { y with eases := y.eases.set first e } }).platPut p
        ((upTo z.size).map (fun j => (first + j, platEase e j)))).platFinish (s.req q i x c) p)) ∧
    (∀ at_, s.haltedFor q i 0x076 = false → s.runs q i 0x076 x c → reservedByte c.pkt [(8, 9)] = none → y.eases.find? (fun z => z.2 == e) = some (at_, e) →
      exec (.easeUnmap q i) s = .next ((({ s with parcels := s.parcels.set p { y with eases := y.eases.erase at_ } }).platPut p
        ((upTo z.size).map (fun j => (at_ + j, 0)))).platFinish (s.req q i x c) p))) ∧
  (∀ (s : State) (q i : Nat) (x : Queue) (c : Cmd) (z : Easement), s.parcelBusy = false → s.runs q i 0x077 x c → reservedByte c.pkt [(9, 9)] = none →
    s.confidential = false → s.eases.get? (pb c.pkt 9 9) = some z → s.easeParcels (pb c.pkt 9 9) = [] → z.wset = 0 →
    exec (.easeDestroy q i) s = .next (({ s with eases := s.eases.erase (pb c.pkt 9 9) }).gate.answer q i ⟨0, 0, 0⟩)) ∧
  (∀ (s : State) (q i p : Nat) (es : List (Nat × Nat)) (x : Queue) (c : Cmd), s.runs q i 0x079 x c → x.fn = 0 → s.confidential = false →
    s.parcels.has p = true → (s.commitOf (erouteCommit p)).pending.isSome = false →
    let s1 := { s with shadow := (es.filter (fun (e : Nat × Nat) => decide (e.1 < 4096))).foldl (fun (m : Tbl W64) (e : Nat × Nat) => m.set (erouteKey p e.1) (BitVec.ofNat 64 e.2)) s.shadow }
    exec (.erouteSet q i p es) s = .next
      (((s1.applyBit .dspErouteCommit p (erouteCommit p)).discardBit .dspErouteCommit p (erouteCommit p)).modCmd q i (fun c => { c with st := .serving [0xF032, p] })))

/-- EASE_CREATE returns the lowest free easement number, or NO_MEMORY when 256 easements exist (R472). -/
def Obligations.EasementsAreCreatedInOrder : Prop :=
  ∀ (s : State) (q i : Nat) (x : Queue) (c : Cmd), s.parcelBusy = false → s.runs q i 0x074 x c → reservedByte c.pkt [(8, 9)] = none →
    1 ≤ pb c.pkt 9 8 → pb c.pkt 9 8 ≤ 1024 → s.confidential = false →
    (256 ≤ s.eases.length → exec (.easeCreate q i) s = .next (s.answer q i ⟨0x30, 0, 0⟩)) ∧
    (s.eases.length < 256 → ∃ e, e < 256 ∧ s.eases.has e = false ∧ (∀ k, k < e → s.eases.has k = true) ∧
      exec (.easeCreate q i) s = .next (({ s with eases := s.eases.set e ⟨pb c.pkt 9 8, [], 0⟩ }).gate.answer q i ⟨0, 0, e⟩))

/-- SHARE_SET applies or is refused as oversubscribed, and misses and expiries are counted, shown and reported (R478,
R479, R480, R482, R483, R484). Where it goes beyond the rules it rests on the model's choices of log entries 12, 72,
73, 94. -/
def Obligations.SharesAndTheirMisses : Prop :=
  (∀ (s : State) (q i : Nat) (x : Queue) (c : Cmd), s.parcelBusy = false → s.haltedFor q i 0x078 = false → s.runs q i 0x078 x c →
    let p := pb c.pkt 8 8
    let v (k o : Nat) : Nat := pb c.pkt (16 + 10 * k + o + 1) (16 + 10 * k + o)
    reservedByte c.pkt [(8, 9), (16, 55)] = none → p < 16 → pb c.pkt 9 9 = 0 → s.parcels.has p = true →
    (∀ k, k < 4 → v k 0 ≤ 256 ∧ v k 2 ≤ v k 0 ∧ v k 4 ≤ 256 ∧ v k 6 ≤ v k 4 ∧ v k 8 ≤ 0x3FF) →
    let l := ((upTo 4).map (fun k =>
      [(Reg.shrMCfg (4 * p + k), v k 0 + v k 2 * 2 ^ 16 + v k 4 * 2 ^ 32 + v k 6 * 2 ^ 48), (Reg.shrMSlack (4 * p + k), v k 8)])).flatten
    let s1 := s.putActive ((Reg.shrPFlags p, 0) :: l)
    (256 < s1.slotSum → exec (.shareSet q i) s = .next (s.answer q i ⟨0x70, 65536 / s1.slotSum, 0⟩)) ∧
    (s1.slotSum ≤ 256 → 256 < s1.waySum p → exec (.shareSet q i) s = .next (s.answer q i ⟨0x70, 65536 / s1.waySum p + 2 ^ 16, 0⟩)) ∧
    (s1.slotSum ≤ 256 → s1.waySum p ≤ 256 → s.shareBusy p = false → (s.commitOf (Reg.shrPCommit p)).pending.isSome = false →
      exec (.shareSet q i) s = .next (((s1.applied (Reg.shrPCommit p)).reShare).answer q i ⟨0, 0, 0⟩))) ∧
  (∀ (s : State) (m : Msg), (s.waitq.getD (m.dpa / 128) []).contains m = true → m.tag < 16 → 0 < m.hdr.slack → m.hdr.slack ≠ 0x3FF →
    let k := 4 * m.tag + m.prio % 4
    let s1 := { s with waitq := s.waitq.set (m.dpa / 128) ((s.waitq.getD (m.dpa / 128) []).map (fun x =>
      if x = m then { x with hdr := { x.hdr with slack := 0 } } else x)) }
    exec (.slackExpired m) s = .next ((s1.count (Reg.shrMCnt k 1) 1).shareEvent k true)) ∧
  (∀ (s : State) (ch m : Nat), ch < 384 → m < 64 → 0 < s.fieldOf (Reg.shrMApplied m) 8 0 →
    exec (.slotWindowEnd ch [m] []) s = .next
      ((({ s with slots := s.slots.keep (fun k _ => k / 64 != ch && k != 24576 + ch) } : State).count (Reg.shrMCnt m 0) 1).shareEvent m false)) ∧
  (∀ (s : State) (v : W64), exec (.shrMissClear v) s = .next (if s.driverRow then s.setReg Reg.shrMissStatus (s.reg Reg.shrMissStatus &&& ~~~ v) else s))

/-- An expiry sets the master's bit and reports event 0x8004 only when the bit was 0 and the mask or forcing asks (R480).
Where it goes beyond the rules it rests on the model's choices of log entry 72. -/
def Obligations.MissesReportOnceUntilCleared : Prop :=
  ∀ (s : State) (m : Msg), (s.waitq.getD (m.dpa / 128) []).contains m = true → m.tag < 16 → 0 < m.hdr.slack → m.hdr.slack ≠ 0x3FF →
    let k := 4 * m.tag + m.prio % 4
    ∃ u, exec (.slackExpired m) s = .next u ∧ u.bit Reg.shrMissStatus k = true ∧
      (∀ j, j < 64 → j ≠ k → u.bit Reg.shrMissStatus j = s.bit Reg.shrMissStatus j) ∧
      (s.bit Reg.trnCtrl 0 = false → (s.bit Reg.shrMissStatus k = true ∨ (s.bit Reg.shrMissMask k = false ∧ s.bit Reg.shrGlobal 15 = false)) → u.out = s.out)

/-- ARRAY_TEST takes townships at command boundaries, its blocks repair or withdraw, and it completes with the last
township (R17, R226, R227, R228, R229, R230, R231, R232). Where it goes beyond the rules it rests on the model's
choices of log entries 34, 98. -/
def Obligations.ArrayTestsOfTownships : Prop :=
  (∀ (s : State) (q i : Nat) (x : Queue) (c : Cmd),
    (s.runs q i 0x080 x c → reservedByte c.pkt [(8, 39)] = none → s.confidential = false →
      let ts := bitsOf 256 (pb c.pkt 39 8)
      (∀ t ∈ ts, (s.ship t).absent = false ∧ s.bit (Reg.nocCoord t) 12 = false) →
      (ts = [] → exec (.arrayTest q i) s = .next (s.answer q i ⟨0, 0, 0⟩)) ∧
      (ts ≠ [] → exec (.arrayTest q i) s = .next (s.takeTests (s.req q i x c) ts ts ((ts.filterMap s.parcelOfShip).eraseDups.flatMap s.running)))) ∧
    (∀ n k l, s.serves q i 0x080 x c (0xF030 :: n :: k :: l) → n ≠ 0 → exec (.arrayTest q i) s =
      .next (s.takeTests (s.req q i x c) (l.take n) ((l.drop n).take k) (l.drop (n + k))))) ∧
  (∀ (s : State) (t : Nat) (y : TestSt) (b : Option Nat) (cols : List Nat) (bad : Bool), (s.ship t).test = some y →
    (b = none → y.at_ b < 273) → (∀ i, b = some i → i < 66 ∧ y.at_ b < 85) →
    let s1 := (s.modShip t (fun x => { x with test := some (y.next b) })).setField (Reg.rasArrStat t) 24 16 (y.next b).left
    (cols = [] → bad = false → exec (.arrayTestBlock t b (y.at_ b) cols bad) s = .next s1) ∧
    ((cols ≠ [] ∨ bad = true) → exec (.arrayTestBlock t b (y.at_ b) cols bad) s = .next (s1.blockFails t b (y.at_ b) cols.eraseDups bad))) ∧
  (∀ (s : State) (t : Nat) (b : Option Nat) (k : Nat) (cols : List Nat) (bad : Bool),
    let phys := s.physOf t
    let a := b.elim (cacheArray k) (fun i => sectArray i k)
    let n := min cols.length (s.sparesLeft phys a)
    let s1 := { (((s.addSat (Reg.rasArrStat t) 63 48 (cols.length + b2n bad)).addSat (Reg.rasArrStat t) 47 32 n).repair phys a cols) with recDue := true }
    (n = cols.length → bad = false → s.blockFails t b k cols bad = s1) ∧
    (n ≠ cols.length ∨ bad = true → (b = none → s.blockFails t b k cols bad = (s1.withdraw t (arrayUnit phys a)).dropBlock t k) ∧
      (∀ i, b = some i → s.blockFails t b k cols bad = (s1.withdraw t (arrayUnit phys a)).zeroBlock t i k))) ∧
  (∀ (s : State) (t : Nat) (y : TestSt), (s.ship t).test = some y → 273 ≤ y.cache → (∀ i, i < 66 → 85 ≤ y.sects.getD i 0) →
    let s1 := (s.modShip t (fun x => { x with test := none })).setBit (Reg.rasArrStat t) 0 false
    ((∀ e ∈ s.queues, e.2.cmds = []) → exec (.arrayTestEnd t) s = .next s1) ∧
    (∀ q i x c, s.queues = [(q, x)] → x.cmds = [(i, c)] → c.opcode = 0x080 → c.st = .serving [0xF030, 0, 1, t] →
      exec (.arrayTestEnd t) s = .next (s1.answer q i (s1.testAnswer [t]))))

/-- KEY_INSTALL puts a blob's key into the current slot once its checks pass, and KEY_RETIRE erases a slot with no page in
flight (R506, R508, R509, R510, R488). Where it goes beyond the rules it rests on the model's choices of log entries
69, 70, 71, 74. -/
def Obligations.KeysOfSealedSets : Prop :=
  (∀ (s : State) (q i blob : Nat) (x : Queue) (c : Cmd), s.runs q i 0x090 x c → reservedByte c.pkt [(8, 8), (16, 23)] = none → pb c.pkt 23 16 % 8 = 0 →
    let e := pb c.pkt 8 8
    let k := s.keys.getD e ⟨none, none⟩
    let kek := s.kek blob
    let s0 := s.hostAsk x.fn none (pb c.pkt 23 16) 1224 noAcc
    let refused (a : Answer) : Prop := exec (.keyInstall q i blob) s = .next ((s0.gateDone false).answer q i a)
    (s.eases.has e = false → exec (.keyInstall q i blob) s = .next ((s.gateDone false).answer q i ⟨0x20, 8, 0⟩)) ∧
    (s.eases.has e = true → s.hostOpen x.fn = true → pb blob 39 8 ≠ s.identity → refused ⟨0x61, 0x10, 0⟩) ∧
    (s.eases.has e = true → s.hostOpen x.fn = true → pb blob 39 8 = s.identity →
      (Config.tagOk kek (pb blob 1171 1160) (pb blob 1203 1172) (pb blob 1219 1204) = false → refused ⟨0x61, 0x11, 0⟩) ∧
      (Config.tagOk kek (pb blob 1171 1160) (pb blob 1203 1172) (pb blob 1219 1204) = true →
        (blob.testBit 16 = true → s.confidential = false → refused ⟨0x60, 0x20, 0⟩) ∧
        ((blob.testBit 16 = true → s.confidential = true) →
          (∀ w, k.cur = some w → pb blob 7 4 ≤ w.epoch → refused ⟨0x11, 16, 0⟩) ∧
          ((∀ w, k.cur = some w → w.epoch < pb blob 7 4) → (k.cur = none ∨ k.prev = none) →
            exec (.keyInstall q i blob) s = .next ((({ s0 with
              keys := s.keys.set e ⟨some ⟨pb blob 7 4, blob.testBit 16, Config.decrypt kek (pb blob 1171 1160) (pb blob 1203 1172)⟩, k.cur.orElse (fun _ => k.prev)⟩
              attest := none }).gateDone true).answer q i ⟨0, 0, 0⟩)))))) ∧
  (∀ (s : State) (q i : Nat) (x : Queue) (c : Cmd), s.runs q i 0x091 x c → reservedByte c.pkt [(8, 9)] = none → pb c.pkt 9 9 ≤ 1 →
    s.keySlot (pb c.pkt 8 8) (pb c.pkt 9 9) ≠ none → s.inFlight (pb c.pkt 8 8) = false →
    exec (.keyRetire q i) s = .next ((({ s with
      free := s.free + 2
      keys := s.keys.modify (pb c.pkt 8 8) (fun k => if pb c.pkt 9 9 = 0 then { k with cur := none } else { k with prev := none }) }).gateDone true).answer
        q i ⟨0, 0, 0⟩))

/-- CONF_ENTER checks its conditions, closes debug and flushes, then cleanses and sets the mode; leaving cleanses and
clears it (R499, R500, R503, R504, R505). Where it goes beyond the rules it rests on the model's choices of log
entries 6, 75. -/
def Obligations.ConfidentialModeIsEnteredAndLeft : Prop :=
  (∀ (s : State) (q i : Nat) (x : Queue) (c : Cmd), s.runs q i 0x092 x c → reservedByte c.pkt [(8, 9)] = none → pb c.pkt 8 8 < 16 → 1 ≤ pb c.pkt 9 9 →
    pb c.pkt 9 9 < 64 →
    let p := pb c.pkt 8 8
    let vf := pb c.pkt 9 9
    let lc := s.fieldOf Reg.lcsStatus 2 0
    ((lc = 0 ∨ lc = 3 ∨ lc = 4) → exec (.confEnter q i) s = .next ((s.gateDone false).answer q i ⟨0x60, 0, 0⟩)) ∧
    ((lc = 1 ∨ lc = 2) → ∀ k, s.confBad p vf = some k → exec (.confEnter q i) s = .next ((s.gateDone false).answer q i ⟨0x21, k, 0⟩)) ∧
    ((lc = 1 ∨ lc = 2) → s.confBad p vf = none →
      let s2 := (((s.scrubFlag true).traceStop).setBit Reg.secStatus 1 true).setBit Reg.secStatus 2 true
      exec (.confEnter q i) s = .next (((((s2.parcels.get? p).map (fun x => x.sites)).getD []).foldl State.flushSite s2).modCmd q i
        (fun c => { c with st := .serving [0xF040, p, vf] })))) ∧
  (∀ (s : State) (q i p vf : Nat) (x : Queue) (c : Cmd) (y : Parcel), s.serves q i 0x092 x c [0xF040, p, vf] → s.parcels.get? p = some y →
    (∀ n ∈ y.sites, s.flushing n = false) →
    let s1 := s.cleanse p
    let s2 := (s1.setBit Reg.glbStatus 2 true).setField Reg.secStatus 13 0 (1 + 2 + 4 + s1.fieldOf Reg.secStatus 3 3 * 8 + p * 16 + vf * 256)
    exec (.confEnter q i) s = .next ((({ s2 with attest := none }).gateDone true).answer q i ⟨0, 0, 0⟩)) ∧
  (∀ (s : State) (q i : Nat) (x : Queue) (c : Cmd), s.runs q i 0x093 x c → packetCheck c.pkt [] [] [] = none →
    (s.confidential = false → exec (.confLeave q i) s = .next ((s.gateDone false).answer q i ⟨0x21, 1, 0⟩)) ∧
    (s.confidential = true → exec (.confLeave q i) s = .next (((({ s with leave := max 1 s.leave }).gateDone true).modCmd q i
      (fun c => { c with st := .serving [0xF041] })).leaveStep))) ∧
  (∀ (s : State), s.confidential = true → (s.fn s.tenant).tdi = 3 → s.leave = 0 →
    exec .confidentialLeaveEvent s = .next ({ s with leave := 1 }).leaveStep)

/-- Evidence is signed, a nonce renewed, life-cycle requests checked and made, secrets erased, and the gate's requests
judged (R488, R490, R495, R515, R521, R522, R523, R524). Where it goes beyond the rules it rests on the model's
choices of log entries 74, 76, 77. -/
def Obligations.EvidenceLifeCycleAndTheGate : Prop :=
  (∀ (s : State) (index nonce : Nat), 1 ≤ index → index ≤ 6 → exec (.getMeasurements index nonce) s = .next
    (({ s with spdm := none }).signed 0x60 (nonce :: index :: s.measBlock index))) ∧
  (∀ (s : State) (nonce : Nat), exec (.challenge nonce) s = .next (s.signed 0x03 (nonce :: ((measIndices 0xFF).map s.measBlock).flatten))) ∧
  (∀ (s : State) (d : Nat), s.lastSig = some d →
    let ed := Config.sign s.aliasKey d
    exec .mlDsaSignatureRequest s = .next (s.emit (.mgmt 0x7E [Config.sign (mlKey s.aliasKey) (Config.sha384 [d, ed]), ed]))) ∧
  (∀ (s : State), s.served (.fn 0) Reg.lcsNonceCtrl = true → ∃ u, exec .new s = .next u ∧ u.bit Reg.lcsNonceCtrl 1 = true ∧ u.fuses = s.fuses ∧ u.keys = s.keys) ∧
  (∀ (s : State) (q i env : Nat) (x : Queue) (c : Cmd), s.runs q i 0x0A1 x c → reservedByte c.pkt [(8, 15), (16, 19)] = none → pb c.pkt 15 8 % 8 = 0 →
    pb c.pkt 19 16 = 3616 → s.hostOpen x.fn = true →
    let s0 := s.hostAsk x.fn none (pb c.pkt 15 8) 3616 noAcc
    let s1 := s0.setBit Reg.lcsNonceCtrl 1 false
    (∀ o, envelopeBad env = some o → exec (.lcRequest q i env) s = .next ((s0.gateDone false).answer q i ⟨0x11, o, 0⟩)) ∧
    (∀ a, envelopeBad env = none → s1.lcCheck env (s0.fieldOf Reg.lcsNonceCtrl 1 1) = some a → a.status ≠ 0 → a.status ≠ 1 →
      exec (.lcRequest q i env) s = .next ((s1.gateDone false).answer q i a)) ∧
    (envelopeBad env = none → s1.lcCheck env (s0.fieldOf Reg.lcsNonceCtrl 1 1) = none → pb env 65 64 = 2 →
      exec (.lcRequest q i env) s = .next ((((s1.enrol (pb env 231 184)).lcRead).gateDone true).answer q i ⟨0, 0, 0⟩))) ∧
  (∀ (s : State) (q i : Nat) (x : Queue) (c : Cmd), s.runs q i 0x0A0 x c → reservedByte c.pkt [(8, 47)] = none → pb c.pkt 15 8 % 8 = 0 →
    s.confidential = false →
    (s.parcels ≠ [] → exec (.secretsErase q i) s = .next ((s.gateDone false).answer q i ⟨0x21, 1, 0⟩)) ∧
    (s.parcels = [] → ∃ u, exec (.secretsErase q i) s = .next u ∧ u.keys = [] ∧ u.mem = Memory.empty ∧ u.spm = Memory.empty ∧ u.dir = [] ∧ u.poison = [])) ∧
  (∀ (s : State) (p k e : Nat), s.confidential = false → s.parcels.has p = true → k < 2 ^ 18 → s.platBad p e = none → s.platHeld p = false →
    
    let s1 := (s.platPut p [(k, e % 2 ^ 64)]).platXinv p
    exec (.gateRequest (.platWrite p k e)) s = .next (if s1.xinvIdle p then s1.platDone p else s1)) ∧
  (∀ (s : State), exec (.gateRequest .lc) s = .next (s.gateDone false))

/-- Accesses of the BARs are refused, discarded and counted, or served; a doorbell moves its queue's tail; SWAP exchanges
the maps (R378, R379, R382, R385, R394, R397, R401, R298, R299, R305, R46). Where it goes beyond the rules it rests on
the model's choices of log entries 26, 52, 91. -/
def Obligations.DoorbellsAndBarAccesses : Prop :=
  (∀ (s : State) (off size : Nat) (pasid write : Bool),
    let s1 := s.setField Reg.glbStatus 63 48 (satAdd 16 (s.fieldOf Reg.glbStatus 63 48) 1)
    (badSize off size pasid = true ↔ (pasid = true ∨ (size ≠ 4 ∧ size ≠ 8) ∨ off % size ≠ 0)) ∧
    (badSize off size pasid = true → exec (.badAccess off size pasid write) s = .next (if write then s1 else s1.emit (.regValue off 0))) ∧
    (badSize off size pasid = false → exec (.badAccess off size pasid write) s = .next s)) ∧
  (∀ (s : State) (n page slot : Nat) (v : W64) (tee : Bool), s.barOpen n tee = true →
    let s1 := s.setField Reg.glbStatus 47 32 (satAdd 16 (s.fieldOf Reg.glbStatus 47 32) 1)
    (s.bit Reg.glbStatus 0 = false → exec (.doorbell n page slot v tee) s = .next s1) ∧
    (s.bit Reg.glbStatus 0 = true → ((s.fn n).flr = true ∨ (s.fn n).tdi = 3) → exec (.doorbell n page slot v tee) s = .next s1) ∧
    (s.bit Reg.glbStatus 0 = true → (s.fn n).flr = false → (s.fn n).tdi ≠ 3 → s.doorbellOf n page slot = none →
      exec (.doorbell n page slot v tee) s = .next s1) ∧
    (∀ q x, s.bit Reg.glbStatus 0 = true → (s.fn n).flr = false → (s.fn n).tdi ≠ 3 → s.doorbellOf n page slot = some q →
      s.queues.get? q = some x → v.toNat % 2 ^ 32 ≠ x.tail →
      (2 ^ 31 ≤ (v.toNat % 2 ^ 32 + 2 ^ 32 - x.fetch) % 2 ^ 32 → exec (.doorbell n page slot v tee) s = .next s1) ∧
      ((v.toNat % 2 ^ 32 + 2 ^ 32 - x.fetch) % 2 ^ 32 < 2 ^ 31 →
        (∀ e ∈ x.subs, (e.1 + 2 ^ 32 - x.fetch) % 2 ^ 32 < (v.toNat % 2 ^ 32 + 2 ^ 32 - x.fetch) % 2 ^ 32) →
        exec (.doorbell n page slot v tee) s = .next (({ s with tick := s.tick + 1 }).setQueue q
          { x with tail := v.toNat % 2 ^ 32, subs := x.subs ++ [(v.toNat % 2 ^ 32, s.tick)] })))) ∧
  (∀ (s : State) (n off len : Nat) (tee : Bool),
    (s.barOpen n tee = false → exec (.bar4Read n off len tee) s = .next (s.emit (.completion n 1 []))) ∧
    (s.barOpen n tee = true → s.bit Reg.glbStatus 0 = false → exec (.bar4Read n off len tee) s = .next (s.emit (.completion n 0 (bytesOf len 0)))) ∧
    (s.barOpen n tee = true → s.bit Reg.glbStatus 0 = true →
      (∀ f, s.bar4 n off false = .error f → f.code ≠ 0x0C → exec (.bar4Read n off len tee) s = .next (s.emit (.completion n 1 []))) ∧
      (∀ f, s.bar4 n off false = .error f → f.code = 0x0C → exec (.bar4Read n off len tee) s = .next
        ((s.parcelError 0x07 (s.vfParcel n) 0 0 0 0).emit (.completion n 1 []))) ∧
      (∀ x, s.bar4 n off false = .ok x → x.window = none →
        (s.spanHeld x.dpa len = true → exec (.bar4Read n off len tee) s = .next { s with hostHeld := s.hostHeld ++ [.bar4Read n off len tee] }) ∧
        (s.spanHeld x.dpa len = false →
          let s2 := s.countSpan 680 none false (len / 128 + 2) x.dpa len
          (s.spanPoisoned x.dpa len = true → exec (.bar4Read n off len tee) s = .next (s2.emit (.completion n 3 (bytesOf len 0)))) ∧
          (s.spanPoisoned x.dpa len = false → exec (.bar4Read n off len tee) s = .next
            (s2.emit (.completion n 0 (bytesOf len (s.cohRead x.dpa len))))))))) ∧
  (∀ (s : State) (n off : Nat) (bytes : List Byte) (tee : Bool), s.barOpen n tee = true → s.bit Reg.glbStatus 0 = true →
    (∀ f, s.bar4 n off true = .error f → ¬ (n = 0 ∧ s.confidential = true) → f.code ≠ 0x0C →
      exec (.bar4Write n off bytes tee) s = .next (s.emit (.mgmt 0x22 [n]))) ∧
    (∀ x, s.bar4 n off true = .ok x → x.window = none →
      (s.spanHeld x.dpa bytes.length = true → exec (.bar4Write n off bytes tee) s = .next { s with hostHeld := s.hostHeld ++ [.bar4Write n off bytes tee] }) ∧
      (s.spanHeld x.dpa bytes.length = false →
        exec (.bar4Write n off bytes tee) s = .next ((s.countSpan 680 none true (bytes.length / 128 + 2) x.dpa bytes.length).cohWrite x.dpa bytes)))) ∧
  (∀ (s : State) (n : Nat), 1 ≤ n → n ≤ 63 →
    let s1 := s.dirtyFlush n
    exec (.swap n) s = .next ((s1.setBit (Reg.glbDirtyCtrl n) 2 (!s1.bit (Reg.glbDirtyCtrl n) 2)).setBit (Reg.glbDirtyCtrl n) 1 false))

/-- Bus Master Enable and translations release accesses, invalidations complete, and a host read that fails raises
HOST_ERROR (R384, R389, R390, R391, R606, R407). Where it goes beyond the rules it rests on the model's choices of log
entries 49, 53. -/
def Obligations.TranslationsAndHostReads : Prop :=
  (∀ (s : State) (n : Nat),
    exec (.busMasterEnable n false) s = .next (s.modFn n (fun f => { f with bme := false })) ∧
    exec (.busMasterEnable n true) s = .next ((s.modFn n (fun f => { f with bme := true })).resumeAccs n .held (fun _ _ => true))) ∧
  (∀ (s : State) (n tag hp : Nat) (r : AtsReq), (s.fn n).atsReq.get? tag = some r →
    let s1 := s.modFn n (fun f => { f with atsReq := f.atsReq.erase tag })
    let l := s.atc.filter (fun x => !(x.fn == n && x.pasid == r.pasid && x.page == r.page))
    (∀ rd wr : Bool, rd = true ∨ wr = true →
      (l.length < 4096 → exec (.atsTranslationCompletion n tag hp rd wr) s = .next
        ({ s1 with free := s.free + 1, atc := ⟨n, r.pasid, r.page, hp, rd, wr⟩ :: l } : State).hostGoes) ∧
      (4096 ≤ l.length → ∃ k, k < l.length ∧ exec (.atsTranslationCompletion n tag hp rd wr) s = .next
        ({ s1 with free := s.free + 1, atc := ⟨n, r.pasid, r.page, hp, rd, wr⟩ :: l.eraseIdx k } : State).hostGoes)) ∧
    (let s2 := ({ s1 with atc := ⟨n, r.pasid, r.page, 0, false, false⟩ :: s.atc } : State).hostGoes.failDenied
     exec (.atsTranslationCompletion n tag hp false false) s = .next { s2 with atc := s2.atc.filter (fun e => e.read || e.write) })) ∧
  (∀ (s : State) (n tag pasid page count : Nat),
    let s1 : State := { s with atc := s.atc.filter (fun e => !(e.fn == n && e.pasid == pasid && decide (page ≤ e.page) && decide (e.page < page + count))) }
    (32 ≤ s.invals.length → exec (.atsInvalidationRequest n tag pasid page count) s = .next s) ∧
    (s.invals = [] → s.hostOut = [] → exec (.atsInvalidationRequest n tag pasid page count) s = .next (s1.emit (.atsDone n tag))) ∧
    (∀ id e, s.invals = [] → s.hostOut = [(id, e)] → e.xlat = true → e.fn = n → e.pasid = pasid → page ≤ e.page → e.page < page + count →
      exec (.atsInvalidationRequest n tag pasid page count) s = .next { s1 with invals := [⟨n, tag, pasid, page, count, [id]⟩] })) ∧
  (∀ (s : State) (id : Nat) (a : Acc) (p : Part), s.accs.get? id = some a → a.part? = some p → p.via = .host →
    ((a.st = .host ∨ a.st = .ats) → exec (.hostError (.access id)) s = .next ((s.failAcc id 0x09 0).hostEnd id)) ∧
    (∀ e, s.hostOut.get? id = some e → (s.fn e.fn).ctoOff = true → exec (.completionTimeout (.access id)) s = .next s) ∧
    (∀ e, s.hostOut.get? id = some e → (s.fn e.fn).ctoOff = false → a.st = .host →
      exec (.completionTimeout (.access id)) s = .next ((s.failAcc id 0x09 0).hostEnd id)) ∧
    (s.hostOut.get? id = none → exec (.completionTimeout (.access id)) s = .next s)) ∧
  (∀ (s : State) (q : Nat) (x : Queue), s.queues.get? q = some x → x.dead = false → x.fetch ≠ x.tail →
    exec (.hostError (.ring q)) s = .next (s.ringFail q 0x09 (x.ring + 64 * (x.fetch % 2 ^ x.log2)) 0 true) ∧
    ((s.fn x.fn).ctoOff = false → exec (.completionTimeout (.ring q)) s = .next (s.ringFail q 0x09 (x.ring + 64 * (x.fetch % 2 ^ x.log2)) 0 true)) ∧
    ((s.fn x.fn).ctoOff = true → exec (.completionTimeout (.ring q)) s = .next s)) ∧
  (∀ (s : State) (q i pva acc : Nat) (x : Queue) (c : Cmd) (y : Context), s.queues.get? q = some x → s.cmd? q i = some c →
    c.hostSource = some (pva, acc) → s.ctxs.get? (c.context % 4096) = some y → y.st = .live →
    exec (.hostError (.command q i)) s = .next (s.loseCtx (c.context % 4096) ⟨0x09, acc, pva, 0, 0xFFFFFFFF⟩) ∧
    ((s.fn x.fn).ctoOff = false →
      exec (.completionTimeout (.command q i)) s = .next (s.loseCtx (c.context % 4096) ⟨0x09, acc, pva, 0, 0xFFFFFFFF⟩)))

/-- Function Level Resets, PERST, link changes and configuration requests change the functions as they are named (R373,
R374, R375, R376, R382, R383, R503, R398). Where it goes beyond the rules it rests on the model's choices of log
entries 49, 51, 54, 92, 111. -/
def Obligations.FunctionsAreReset : Prop :=
  (∀ (s : State) (n : Nat), 1 ≤ n → n ≤ 63 → s.ctxs = [] →
    ((s.fn n).flr = false → s.confidential = false → exec (.vfFlr n) s = .next ((s.vfStop n).vfStep n)) ∧
    ((s.fn n).flr = true → exec (.vfFlr n) s = .next (({ s with
      queues := s.queues.keep (fun _ x => x.fn != n)
      groups := s.groups.keep (fun _ g => g.fn != n)
      fnEvents := s.fnEvents.erase n
      hostWait := s.hostWait.filter (fun p => p.fnOf != n)
      atc := s.atc.filter (fun e => e.fn != n) }).modFn n (fun f => { FnSt.empty with tdi := f.tdi, dirty := f.dirty })))) ∧
  (∀ (s : State) (n id : Nat) (c : Context), 1 ≤ n → n ≤ 63 → (s.fn n).flr = true → s.ctxs.get? id = some c → c.fn = n → c.xinv ≠ 0 →
    exec (.vfFlr n) s = .next s) ∧
  (∀ (s : State),
    let link := s.fieldOf Reg.glbLink 9 0
    (s.confidential = false → exec .pfFlr s = .next ((s.warmReset.setField Reg.glbLink 9 0 link).modFn 0 (fun f => { f with retry := true }))) ∧
    (s.confidential = true → exec .pfFlr s = .next ((s.leaveEnd.warmReset.setField Reg.glbLink 9 0 link).modFn 0 (fun f => { f with retry := true })))) ∧
  (∀ (s : State), exec (.perst true) s = .next
    (({ s with fns := s.fns.mapV (fun _ f => { FnSt.empty with dirty := f.dirty }), pcieHeld := true,
               atc := [], hostOut := [], hostWait := [], invals := [], hostHeld := [] }).setField Reg.glbLink 9 0 0)) ∧
  (∀ (s : State), s.pcieHeld = true → exec (.perst false) s = .next (({ s with pcieHeld := false }).modFn 0 (fun f => { f with retry := true }))) ∧
  (∀ (s : State) (rate width : Nat) (flit : Bool), s.pcieHeld = false → 1 ≤ rate → rate ≤ 6 → width ∈ [1, 2, 4, 8, 16] → (rate = 6 → flit = true) →
    exec (.hostLinkStateChange (.trained rate width flit)) s = .next (s.setField Reg.glbLink 9 0 (rate + width * 16 + (if flit then 1 else 0) * 512))) ∧
  (∀ (s : State), exec (.hostLinkStateChange .recovery) s = .next (s.setField Reg.glbLink 31 16 (satAdd 16 (s.fieldOf Reg.glbLink 31 16) 1)) ∧
    exec (.hostLinkStateChange .down) s = .next (s.setField Reg.glbLink 9 0 0)) ∧
  (∀ (s : State) (n : Nat) (c : CfgReq), s.pcieHeld = false → s.fieldOf Reg.glbLink 3 0 ≠ 0 →
    (s.fnPresent n = false → exec (.configurationRequest n c) s = .next (s.emit (.completion n 1 []))) ∧
    (s.fnPresent n = true → (s.fn 0).retry = false →
      let r := (({ s with free := s.free + 1 }).modFn 0 (fun f => { f with retry := false })).cfgAct n c
      exec (.configurationRequest n c) s = .next (r.1.emit (.completion n 0 r.2))))

/-- A tenant's interface is locked, started, stopped or fails, and IDE streams take, start and stop key sets (R392, R393,
R394, R501, R503). Where it goes beyond the rules it rests on the model's choices of log entries 49, 55, 112. -/
def Obligations.InterfacesAreLockedAndRun : Prop :=
  (∀ (s : State) (n : Nat),
    (s.confidential = true → n = s.tenant → (s.fn n).tdi = 0 → exec (.lockInterfaceRequest n) s = .next
      (((s.modFn n (fun f => { f with tdi := 1 })).setBit (Reg.glbDirtyCtrl n) 0 false).emit (.mgmt 0x30 [n, 1]))) ∧
    ((s.fn n).tdi = 1 → exec (.tdispMessage n .start) s = .next ((s.modFn n (fun f => { f with tdi := 2 })).emit (.mgmt 0x31 [n, 2]))) ∧
    ((s.fn n).tdi ≠ 1 → exec (.tdispMessage n .start) s = .next (s.emit (.mgmt 0x3F [n]))) ∧
    ((s.fn n).tdi = 0 → exec (.tdispMessage n .stop) s = .next (s.emit (.mgmt 0x3F [n]))) ∧
    ((s.fn n).tdi ≠ 0 → ∃ u, exec (.tdispMessage n .stop) s = .next u ∧ (u.fn n).tdi = 0 ∧
      u.leave = (if s.confidential = true ∧ s.tenant = n then max 1 s.leave else s.leave) ∧ u.regs = s.regs ∧ u.ctxs = s.ctxs) ∧
    exec (.tdispMessage n .query) s = .next (s.emit (.mgmt 0x33 [n, (s.fn n).tdi])) ∧
    (((s.fn n).tdi = 1 ∨ (s.fn n).tdi = 2) → exec (.tdiError n) s = .next (((s.modFn n (fun f => { f with tdi := 3 })).vfStop n).vfStep n)) ∧
    ((s.fn n).tdi = 0 ∨ (s.fn n).tdi = 3 → exec (.tdiError n) s = .next s)) ∧
  (∀ (s : State) (k set : Nat), s.doe.kind = some 2 → k ≤ 4 → set ≤ 1 →
    let s1 : State := { s with doe := { s.doe with kind := none } }
    let w := s.ide.getD k ⟨0, []⟩
    exec (.ideKm k set .prog) s = .next (({ s1 with ide := s.ide.set k { w with sets := w.sets ||| 2 ^ set } } : State).emit (.mgmt 0x41 [k, set])) ∧
    (w.sets.testBit set = true → exec (.ideKm k set .go) s = .next
      (({ s1 with ide := s.ide.set k { w with sets := w.sets % 4 + 4 * 2 ^ set } } : State).emit (.mgmt 0x42 [k, set]))) ∧
    (w.sets.testBit set = false → exec (.ideKm k set .go) s = .next (s1.emit (.mgmt 0x4F [k]))) ∧
    exec (.ideKm k set .stop) s = .next (({ s1 with ide := s.ide.set k { w with sets := 0 } } : State).emit (.mgmt 0x43 [k, set]))) ∧
  (∀ (s : State) (k set : Nat) (op : IdeOp),
    (s.doe.kind = some 2 → 4 < k ∨ 1 < set → exec (.ideKm k set op) s = .next (({ s with doe := { s.doe with kind := none } } : State).emit (.mgmt 0x4F [k]))) ∧
    (s.doe.kind ≠ some 2 → exec (.ideKm k set op) s = .next s)) ∧
  (∀ (s : State), s.pcieHeld = false → s.fieldOf Reg.glbLink 3 0 ≠ 0 → (s.fn 0).retry = false →
    let s1 := ({ s with free := s.free + 1 } : State).modFn 0 (fun f => { f with retry := false })
    (∀ v : BitVec 32, s.doe.obj.length ≤ 16384 → exec (.configurationRequest 0 (.doe (.write v))) s = .next
      (({ s1 with doe := { s.doe with obj := s.doe.obj ++ [v.toNat] } } : State).emit (.completion 0 0 []))) ∧
    (∀ op n, n ≠ 0 → s.fnPresent n = true → exec (.configurationRequest n (.doe op)) s = .next (s1.emit (.completion n 0 (bytesOf 4 0)))) ∧
    (∀ i rest, s.doe.obj = 1 :: 3 :: i :: rest → rest = [] → exec (.configurationRequest 0 (.doe .go)) s = .next
      (({ s1 with doe := { s.doe with obj := [], resp := doeDiscovery (i % 256) } } : State).emit (.completion 0 0 []))) ∧
    (∀ h len rest, s.doe.obj = h :: len :: rest → len % 2 ^ 18 = s.doe.obj.length → s.doe.obj.length ≤ 16384 → (h % 2 ^ 24 = 0x10001 ∨ h % 2 ^ 24 = 0x20001) →
      exec (.configurationRequest 0 (.doe .go)) s = .next
        (({ s1 with doe := { s.doe with obj := [], kind := some (if h % 2 ^ 24 = 0x10001 then 1 else 2) } } : State).emit (.completion 0 0 []))) ∧
    (∀ h len rest, s.doe.obj = h :: len :: rest → len % 2 ^ 18 ≠ s.doe.obj.length ∨ 16384 < s.doe.obj.length →
      exec (.configurationRequest 0 (.doe .go)) s = .next
        (({ s1 with doe := { s.doe with obj := [], error := true } } : State).emit (.completion 0 0 []))))

/-- A register write changes the RW, W1C and RWS fields that its owner's access covers, and a read clears the RC fields it
returns (R9, R10, R15, R377, R378, R306). Where it goes beyond the rules it rests on the model's choices of log
entries 57, 59. -/
def Obligations.RegisterWritesFollowTheAccessCodes : Prop :=
  (∀ (s : State) (p : Party) (off size : Nat) (v : W64) (tee : Bool) (r : RegSpec) (ix : List Nat),
    s.barOpen p.fnOf tee = true → (size = 4 ∨ size = 8) → off % size = 0 → s.served p off = true → p ≠ .fn 0 ∨ msixAt 0 off = none →
    regAt? (off - off % 8) = some (r, ix) →
    (r.owner.is p = true → r.commit = false →
      r.name ∉ [.pwrTrvCfg, .siteCtrl, .lcsNonceCtrl, .memCh, .cohAtomCtrl, .dspPredCtrl, .glbBootCtrl, .trnCtrl, .glbDirtyCtrl, .rasPoisonClear] →
      let at_ := off - off % 8
      let mask := accMask off size &&& (2 ^ 64 - 1 - barred r.name p)
      let x := accValue off size v.toNat
      let rw := (r.rw &&& mask) &&& (2 ^ 64 - 1 - s.lockedBits r.name ix)
      let w := maskPut (s.reg at_).toNat rw x &&& (2 ^ 64 - 1 - (x &&& (r.w1c &&& mask)))
      let k := s.keyOf r.name at_
      let old := match s.shadow.get? k with | some y => y.toNat | none => s.active k
      exec (.registerWrite p off size v tee) s = .next { s with
        regs := if w = (s.reg at_).toNat then s.regs else s.regs.set at_ (BitVec.ofNat 64 w)
        shadow := if r.rws = 0 then s.shadow else s.shadow.set k (BitVec.ofNat 64 (maskPut old (r.rws &&& mask) x)) }) ∧
    (r.owner.is p = false → (∀ n, p ≠ .fn (n + 1)) → exec (.registerWrite p off size v tee) s = .next s)) ∧
  (∀ (s : State) (p : Party) (off size : Nat) (tee : Bool) (r : RegSpec) (ix : List Nat), RegOwner.any.is p = true → s.barOpen p.fnOf tee = true →
    (size = 4 ∨ size = 8) → off % size = 0 → s.served p (off - off % 8) = true → regAt? (off - off % 8) = some (r, ix) →
    let at_ := off - off % 8
    (s.viewHeld p at_ = true → exec (.rcRead p off size tee false) s = .next { s with hostHeld := s.hostHeld ++ [.rcRead p off size tee false] }) ∧
    (s.viewHeld p at_ = false → exec (.rcRead p off size tee false) s = .next
      ((if r.rc &&& accMask off size = 0 then s else s.setReg at_ (BitVec.ofNat 64 ((s.reg at_).toNat &&& (2 ^ 64 - 1 - (r.rc &&& accMask off size))))).emit
        (.regValue off (accRead off size (s.readWord p at_)))))) ∧
  (∀ (s : State) (p : Party) (off size : Nat) (v : W64) (tee : Bool), s.barOpen p.fnOf tee = true → badSize off size false = true →
    exec (.registerWrite p off size v tee) s = .next (s.badAccess off true) ∧
    exec (.rcRead p off size tee false) s = .next (s.badAccess off false)) ∧
  (∀ (s : State) (p : Party) (off size : Nat) (tee : Bool), s.barOpen p.fnOf tee = true → exec (.rcRead p off size tee true) s = .next
    (s.emit (.regValue off (accRead off size (s.doorbellRead p.fnOf (off - off % 8))))))

/-- APPLY captures the shadow set, DISCARD reloads it, REJECTED is cleared, and a captured set is applied whole or
rejected (R11, R12, R13, R14, R464). Where it goes beyond the rules it rests on the model's choices of log entries 56,
58, 59, 93, 94. -/
def Obligations.StagedSetsAreCapturedAndApplied : Prop :=
  (∀ (s : State) (p : Party) (off : Nat) (r : RegSpec) (ix : List Nat), regAt? off = some (r, ix) → r.commit = true → r.owner.is p = true →
    s.served p off = true →
    let i := s.groupNo r.name ix
    let key := groupKey r.name i off
    let c := s.commitOf key
    (c.pending = none → exec (.commitApply p off) s = .next
      { s with commits := s.commits.set key { c with pending := some (s.capture r.name i) } }) ∧
    (c.pending ≠ none → exec (.commitApply p off) s = .next s) ∧
    (c.pending = none → exec (.commitDiscard p off) s = .next { s with shadow := s.shadow.keep (fun k _ => !inGroup r.name i k) }) ∧
    (c.pending ≠ none → exec (.commitDiscard p off) s = .next { s with commits := s.commits.set key { c with discard := true } }) ∧
    exec (.commitRejectedClear p off) s = .next { s with commits := s.commits.set key { c with rejected := false, reason := 0 } }) ∧
  (∀ (s : State) (off group : Nat) (r : RegSpec) (ix : List Nat) (cap : Tbl W64), regAt? off = some (r, ix) → r.commit = true →
    let i := if groupKey r.name group off = off then ix.headD 0 else group
    let key := groupKey r.name i off
    let c := s.commitOf key
    let told (u : State) : State := if r.name = .dspErouteCommit then u.erouteEnd i (s.outcome u key) else u
    c.pending = some cap → c.made = none →
    (∀ k, s.reason r.name i cap = some k → c.discard = false → exec (.commitApplied off group) s = .next
      (told { s with commits := s.commits.set key { c with rejected := true, reason := k, pending := none, discard := false } })) ∧
    (s.reason r.name i cap = none → s.admitted r.name i = true → exec (.commitApplied off group) s = .next (told s)) ∧
    (s.reason r.name i cap = none → s.admitted r.name i = false → r.name ≠ .prcPlatCommit →
      let s1 := { (s.putActive (s.capWords r.name i cap)) with shadow := s.shadow.keep (fun k v => cap.get? k != some v) }
      exec (.commitApplied off group) s = .next (told (((s1.applied key).afterApply r.name).endCommit r.name i key))))

/-- Snapshots, addresses, MCTP and sensor messages, firmware updates and debug access do what the management chapter says
(R575, R576, R577, R578, R579, R582, R583, R584, R585, R586). Where it goes beyond the rules it rests on the model's
choices of log entries 50, 84. -/
def Obligations.ManagementDebugAndFirmware : Prop :=
  (∀ (s : State), (s.confidential = true → exec .snap s = .next s) ∧ (s.driverRow = false → exec .snap s = .next s) ∧
    (s.confidential = false → s.driverRow = true → s.hostBusy 0 = false → exec .snap s = .next
    ((s.hostWrite 0 none (s.reg Reg.trnSnapBase).toNat ((transitOffsets.map (fun o => bytesOf 8 (s.view .datum o).toNat)).flatten)).addWrap Reg.trnStat 63 32 1))) ∧
  (∀ (s : State) (a : BitVec 7), s.fieldOf Reg.mgtI3c 6 0 = 0 → exec (.entdaa a) s = .next (s.setField Reg.mgtI3c 6 0 a.toNat) ∧
    exec .setaasa s = .next (s.setField Reg.mgtI3c 6 0 0x4A)) ∧
  (∀ (s : State) (a : BitVec 7), s.fieldOf Reg.mgtI3c 6 0 ≠ 0 → exec (.entdaa a) s = .next s ∧ exec .setaasa s = .next s) ∧
  (∀ (s : State) (pcie : Bool) (e : Nat),
    let ibi := if pcie = true then s else s.emit (.mgmt 0x11 [])
    (s.scrapped = false → 8 ≤ e → e ≤ 254 → exec (.mctpMessage pcie (.setEid e)) s = .next
      ((if pcie = true then s.setField Reg.mgtI3c 15 8 e else (s.setField Reg.mgtI3c 15 8 e).emit (.mgmt 0x11 [])).emit (.mgmt 0x10 [e]))) ∧
    exec (.mctpMessage pcie .getEid) s = .next (ibi.emit (.mgmt 0x12 [s.fieldOf Reg.mgtI3c 15 8])) ∧
    exec (.mctpMessage pcie .spdm) s = .next (ibi.emit (.mgmt 0x1F [5]))) ∧
  (∀ (s : State) (id : Nat), s.scrapped = false → (∀ v, s.sensor id = some v → exec (.pldmSensorRead id) s = .next (s.emit (.mgmt 0x52 [id, v]))) ∧
    (s.sensor id = none → exec (.pldmSensorRead id) s = .next (s.emit (.mgmt 0x5F [id])))) ∧
  (∀ (s : State) (cs : List Nat), s.scrapped = false →
    (s.fwu.active = true → exec (.requestUpdate cs) s = .next (s.emit (.mgmt 0x5E []))) ∧
    (s.fwu.active = false → ∃ u, exec (.requestUpdate cs) s = .next u ∧ u.fwu = ⟨true, cs.filter (fun c => decide (1 ≤ c) && decide (c ≤ 3)), []⟩ ∧
      u.bit Reg.mgtFwuStat 0 = true ∧ u.fieldOf Reg.mgtFwuStat 31 8 = 0 ∧ u.bit Reg.mgtFwuStat 3 = s.bit Reg.mgtFwuStat 3)) ∧
  (∀ (s : State) (c : Nat) (bytes : List Byte), s.fwu.active = true → c ∈ s.fwu.offered →
    let all := s.fwu.got.getD c [] ++ bytes
    let s1 := { s with fwu := { s.fwu with got := s.fwu.got.set c all }, flash := s.flash.set (imageKey s.newSlot c) all }
    (s1.slotUsed s.newSlot ≤ slotBytes → exec (.requestFirmwareData c bytes) s = .next
      (s1.setField Reg.mgtFwuStat 31 8 ((s1.fwu.got.map (fun e => e.2.length)).sum / 1024))) ∧
    (slotBytes < s1.slotUsed s.newSlot → exec (.requestFirmwareData c bytes) s = .next s)) ∧
  (∀ (s : State) (c : Nat) (bytes : List Byte), s.fwu.active = false ∨ c ∉ s.fwu.offered → exec (.requestFirmwareData c bytes) s = .next s) ∧
  (∀ (s : State) (own : Bool), s.fwu.active = true →
    let s0 := s.copyImages
    let s1 := ({ s0 with fwu := ⟨false, [], []⟩ }).setField Reg.mgtFwuStat 2 0 0
    exec (.activateFirmware own) s = .next (if [1, 2, 3].all (fun c => s0.imageOk c (s0.flash.getD (imageKey s.newSlot c) [])) then
      (((s1.setBit Reg.mgtFwuStat 3 true).setBit Reg.mgtFwuStat 4 false).recMod (fun r => { r with slot := s.newSlot })).emit (.mgmt 0x51 [0])
      else (s1.setBit Reg.mgtFwuStat 4 true).emit (.mgmt 0x51 [1]))) ∧
  (∀ (s : State) (own : Bool), s.fwu.active = false → exec (.activateFirmware own) s = .next (s.emit (.mgmt 0x5F []))) ∧
  (∀ (s : State) (p : DebugPath), (s.confidential = false → s.bit Reg.secStatus 1 = false → exec (.debugAttach p) s = .next
      ((s.setBit Reg.mgtDbgStat (pathBit p) true).setBit Reg.mgtDbgStat 0 true)) ∧
    ((s.confidential = true ∨ s.bit Reg.secStatus 1 = true) → exec (.debugAttach p) s = .next s) ∧
    (let s1 := s.setBit Reg.mgtDbgStat (pathBit p) false
     exec (.debugDetach p) s = .next (s1.setBit Reg.mgtDbgStat 0 (s1.bit Reg.mgtDbgStat 1 || s1.bit Reg.mgtDbgStat 2)))) ∧
  (∀ (s : State) (t : Nat),
    (s.debugOpen = true → s.bit Reg.mgtDbgStat 0 = true → t < 256 → s.bit (Reg.nocCoord t) 12 = false →
      exec (.debugHalt t) s = .next (s.modShip t (fun x => { x with halted := true })) ∧
      ((s.ship t).halted = true → exec (.debugResume t) s = .next (s.modShip t (fun x => { x with halted := false })))) ∧
    (s.debugOpen = false → exec (.debugHalt t) s = .next s ∧ exec (.debugResume t) s = .next s))

/-- A start-up runs once per reset, waits for VIN48, and the rails, MRST_N and the benchmark record behave as the board
chapter says (R527, R529, R590, R591, R593, R594, R535, R536). Where it goes beyond the rules it rests on the model's
choices of log entries 9, 11, 78. -/
def Obligations.StartUpRailsAndTheRecord : Prop :=
  (∀ (s : State) (f : BootFacts), s.boot.step = 0 → s.boot.dead = false →
    ((s.boot123 f).1 = false → exec (.startUp f) s = .next (s.boot123 f).2) ∧
    ((s.boot123 f).1 = true → (s.boot123 f).2.vin48 = true → exec (.startUp f) s = .next ((s.boot123 f).2.boot4567 f)) ∧
    ((s.boot123 f).1 = true → (s.boot123 f).2.vin48 = false → ∃ u, exec (.startUp f) s = .next u ∧ u.boot.held = true ∧ u.boot.step = 4 ∧
      u.fieldOf Reg.glbStatus 11 8 = 4)) ∧
  (∀ (s : State) (f : BootFacts), s.boot.step ≠ 0 ∨ s.boot.dead = true → exec (.startUp f) s = .next s) ∧
  (∀ (s : State),
    (∀ f, s.boot.facts = some f → s.boot.held = true → exec .vin48InRange s = .next (({ s with vin48 := true }).boot4567 f)) ∧
    (s.boot.facts = none ∨ s.boot.held = false → exec .vin48InRange s = .next { s with vin48 := true }) ∧
    (s.boot.held = false → exec .vin48Loss s = .next ({ s with vin48 := false }).railsOff) ∧
    (s.boot.held = true → exec .vin48Loss s = .next { s with vin48 := false }) ∧
    exec .vaux33Loss s = .next (s.railsOff.emit (.pin 0x201 true)) ∧
    exec .mrst s = .next (s.coldReset.emit (.pin 0x201 true)) ∧
    exec .vaux33PowerOn s = .next { s.coldReset with boot := { s.coldReset.boot with dead := true } }) ∧
  (∀ (s : State), s.recDue = true →
    let r := { s.recNow with generation := s.recNow.generation + 1 }
    (∀ a b, s.recA = some a → s.recB = some b → b.generation < a.generation → exec .benchmarkRecordWrite s = .next { s with recB := some r, recNow := r, recDue := false }) ∧
    (∀ a b, s.recA = some a → s.recB = some b → a.generation ≤ b.generation → exec .benchmarkRecordWrite s = .next { s with recA := some r, recNow := r, recDue := false }) ∧
    (∀ a, s.recA = some a → s.recB = none → exec .benchmarkRecordWrite s = .next { s with recB := some r, recNow := r, recDue := false }) ∧
    (s.recA = none → exec .benchmarkRecordWrite s = .next { s with recA := some r, recNow := r, recDue := false })) ∧
  (∀ (s : State) (v : W64), v.toNat % 32 ≠ 0 → s.scrapped = false → exec (.bootCtrlWrite v) s = .next
    ((s.setReg Reg.glbBootCtrl (s.reg Reg.glbBootCtrl ||| BitVec.ofNat 64 (v.toNat % 32))).recMod (fun r => { r with ctl := r.ctl ||| (v.toNat % 32) })))

/-- Power samples give the averages, VCEIL follows the budget, and heat lowers the ceilings and trips at 125 degrees
(R547, R548, R549, R550, R551, R553). Where it goes beyond the rules it rests on the model's choices of log entry 80. -/
def Obligations.PowerCapsAndHeat : Prop :=
  (∀ (s : State) (hub : Nat) (sites : List Nat),
    let l := ((hub, sites.take 8) :: s.power.samples).take 100
    exec (.powerSample hub sites) s = .next ((({ s with power := { s.power with samples := l } }).setField Reg.pwrStatus 15 0
      (min 65535 ((l.map Prod.fst).sum / l.length))).setField Reg.pwrStatus 31 16 (min 65535 ((l.map (fun (x : Nat × List Nat) => x.2.sum)).sum / l.length)))) ∧
  (∀ (s : State),
    let b := s.hubBudget
    let a := s.hubSum 10
    let v := s.fieldOf Reg.pwrStatus 55 48
    let none_ : State := { s with power := { s.power with floor := 0 } }
    (105 * (b.1 * a.2) < 100 * (a.1 * b.2) → exec .vceilAdjust s = .next
      (({ s with power := { s.power with floor := if v = 0 then s.power.floor + 1 else 0 } } : State).setVceil (v - 5))) ∧
    (b.1 * a.2 < a.1 * b.2 → 100 * (a.1 * b.2) ≤ 105 * (b.1 * a.2) → exec .vceilAdjust s = .next
      (({ s with power := { s.power with floor := if v = 0 then s.power.floor + 1 else 0 } } : State).setVceil (v - 1))) ∧
    (97 * (b.1 * a.2) ≤ 100 * (a.1 * b.2) → a.1 * b.2 ≤ b.1 * a.2 → exec .vceilAdjust s = .next none_) ∧
    (100 * (a.1 * b.2) < 97 * (b.1 * a.2) → s.anyStack3 = false → exec .vceilAdjust s = .next (none_.setVceil (min 70 (v + 1)))) ∧
    (100 * (a.1 * b.2) < 97 * (b.1 * a.2) → s.anyStack3 = true → exec .vceilAdjust s = .next none_)) ∧
  (∀ (s : State), (s.anyStack3 = true → exec .stack3Step s = .next (s.setVceil (s.fieldOf Reg.pwrStatus 55 48 - 1))) ∧
    (s.anyStack3 = false → exec .stack3Step s = .next s)) ∧
  (∀ (s : State), let b := s.hubBudget
    let a := s.hubSum 2
    (12 * (b.1 * a.2) < 10 * (a.1 * b.2) → exec .vceilFastDrop s = .next (s.setVceil (s.fieldOf Reg.pwrStatus 55 48 - 10))) ∧
    (10 * (a.1 * b.2) ≤ 12 * (b.1 * a.2) → exec .vceilFastDrop s = .next s)) ∧
  (∀ (s : State), (100 ≤ s.power.floor → exec .floor s = .next (s.pwrEvent 0)) ∧ (s.power.floor < 100 → exec .floor s = .next s)) ∧
  (∀ (s : State), exec .thermalCeilingStep s = .next ((upTo 256).foldl (fun (s : State) t => s.ceilShip t) s)) ∧
  (∀ (s : State) (n : Nat) (v : BitVec 16), n < 1040 →
    let s2 := (upTo 256).foldl (fun (s : State) t => s.heatShip t)
      (s.setField (Reg.pwrContour (n / 4)) (16 * (n % 4) + 15) (16 * (n % 4)) v.toNat)
    (500 ≤ v.toInt → exec (.sensorRead [(n, v)]) s = .next (s2.thermalTrip false n)) ∧
    (v.toInt < 500 → exec (.sensorRead [(n, v)]) s = .next s2))

/-- A POOL frame lets a station take min(FREE, WANT - H) tokens from FREE, or return H - WANT to it (R555). -/
def Obligations.PoolTokensAreTakenAndReturned : Prop :=
  ∀ (s : State) (f : BitVec 128), s.bit Reg.pwrTrvStat 0 = true → frByte f.toNat 15 = frCrc f.toNat → frByte f.toNat 1 = 1 →
    frByte f.toNat 2 ≠ s.fieldOf Reg.pwrTrvCfg 15 8 →
    let H := s.fieldOf Reg.pwrTrvStat 31 16
    let WANT := s.fieldOf Reg.pwrTrvCfg 31 16
    let FREE := fld f.toNat 63 48
    ∃ u g, exec (.pool f) s = .next u ∧ u.out = .frame 1 [g] :: s.out ∧
      (H < WANT → u.fieldOf Reg.pwrTrvStat 31 16 = H + min FREE (WANT - H) ∧ fld g 63 48 = FREE - min FREE (WANT - H)) ∧
      (WANT < H → u.fieldOf Reg.pwrTrvStat 31 16 = WANT ∧ fld g 63 48 = (FREE + (H - WANT)) % 2 ^ 16) ∧
      (H = WANT → u.fieldOf Reg.pwrTrvStat 31 16 = H ∧ fld g 63 48 = FREE) ∧
      fld g 79 64 = fld f.toNat 79 64 ∧ ∀ off, off ≠ Reg.pwrTrvStat → u.reg off = s.reg off

/-- Frames of the ring are acted on and forwarded, levels are held and lapse, and a station joins and leaves (R554, R556,
R558, R559, R536). Where it goes beyond the rules it rests on the model's choices of log entries 79, 80. -/
def Obligations.TheTraverseRing : Prop :=
  (∀ (s : State) (f : BitVec 128), s.bit Reg.pwrTrvStat 0 = true → frByte f.toNat 15 ≠ frCrc f.toNat →
    let u := s.setField Reg.pwrTrvStat 47 32 (satAdd 16 (s.fieldOf Reg.pwrTrvStat 47 32) 1)
    exec (.pool f) s = .next u ∧ exec (.census f) s = .next u ∧ exec (.throttle f) s = .next u ∧ exec (.release f) s = .next u ∧
      exec (.traverseFrameForward f) s = .next u) ∧
  (∀ (s : State) (f : BitVec 128), s.bit Reg.pwrTrvStat 0 = true → frByte f.toNat 15 = frCrc f.toNat →
    (frByte f.toNat 2 = s.fieldOf Reg.pwrTrvCfg 15 8 → exec (.census f) s = .next s ∧ exec (.throttle f) s = .next s) ∧
    (frByte f.toNat 2 ≠ s.fieldOf Reg.pwrTrvCfg 15 8 →
      let hop (g : Nat) : Nat := frSeal (putFld g 31 24 (frByte g 3 + 1))
      (frByte f.toNat 1 = 2 → exec (.census f) s = .next
        (let g := putFld (putFld f.toNat 63 48 (fld f.toNat 63 48 + s.fieldOf Reg.pwrTrvStat 31 16)) 71 64 (frByte f.toNat 8 + 1)
         (s.addWrap Reg.pwrTrvStat 63 48 1).emit (.frame (frByte g 1) [hop g]))) ∧
      (frByte f.toNat 1 = 3 → frByte f.toNat 6 ≤ 3 → exec (.throttle f) s = .next
        (((({ s with free := s.free + 1 }).setLevel (s.power.levels.set (frByte f.toNat 2) (frByte f.toNat 6))).addWrap Reg.pwrTrvStat 63 48 1).emit
          (.frame 3 [hop f.toNat]))) ∧
      (frByte f.toNat 1 = 4 → exec (.release f) s = .next ((s.addWrap Reg.pwrTrvStat 63 48 1).emit (.frame 4 [hop f.toNat]))) ∧
      (5 ≤ frByte f.toNat 1 → exec (.traverseFrameForward f) s = .next
        ((s.addWrap Reg.pwrTrvStat 63 48 1).emit (.frame (frByte f.toNat 1) [hop f.toNat]))))) ∧
  (∀ (s : State) (o : Nat), exec (.throttleExpiry o) s = .next
    (({ s with power := { s.power with levels := s.power.levels.erase o } }).setField Reg.pwrTrvStat 2 1
      ((s.power.levels.erase o).foldl (fun (m : Nat) (e : Nat × Nat) => max m e.2) 0))) ∧
  (∀ (s : State), s.bit Reg.pwrTrvStat 0 = true →
    exec .ringLost s = .next (({ s with power := { s.power with pool := false } }).pwrEvent 3) ∧
    ((s.bit Reg.pwrEvent 0 = true ∨ s.bit Reg.pwrEvent 1 = true) → s.bit Reg.pwrThermCfg 16 = true → exec .throttleOriginate s = .next (s.ringSend 3 2)) ∧
    exec .bypassClose s = .next ((({ s with power := { s.power with pool := false, levels := [] } }).setField Reg.pwrTrvStat 31 0 0).emit (.pin 0x200 false))) ∧
  (∀ (s : State), s.bit Reg.pwrTrvStat 0 = false → s.bit Reg.glbStatus 0 = true → s.bit Reg.pwrTrvCfg 0 = true → exec .traverseJoin s = .next
    ((({ s with power := { s.power with pool := false } }).setBit Reg.pwrTrvStat 0 true).emit (.pin 0x200 true))) ∧
  (∀ (s : State) (v : W64), s.driverRow = true →
    let w := putFld (putFld (s.reg Reg.pwrTrvCfg).toNat 0 0 v.toNat) 47 8 (fld v.toNat 47 8)
    (v.toNat.testBit 0 = true → exec (.traverseConfigWrite v) s = .next ((s.setReg Reg.pwrTrvCfg (BitVec.ofNat 64 w)).recMod (fun r => { r with trv := w }))) ∧
    (v.toNat.testBit 0 = false → s.bit Reg.pwrTrvStat 0 = true → exec (.traverseConfigWrite v) s = .next
      ((((s.ringSend 4 (s.fieldOf Reg.pwrTrvStat 31 16)).closeBypass).setReg Reg.pwrTrvCfg (BitVec.ofNat 64 w)).recMod (fun r => { r with trv := w }))))

/-- A site goes through rail, reset, training and the credit exchange to UP, is restarted from DOWN, and falls with the
cause named (R320, R321, R322, R325, R327, R330, R332, R333, R334, R363, R365, R368). Where it goes beyond the rules
it rests on the model's choices of log entries 44, 47, 48. -/
def Obligations.SitesComeUpAndGoDown : Prop :=
  (∀ (s : State) (n : Nat), n < 8 →
    (s.siteSt n = 1 → exec (.siteRailGood n) s = .next ((s.modSite n (fun x => { x with rail := 650 + 5 * fld (s.siteConf n) 14 8 })).siteState n 2)) ∧
    (s.siteSt n = 2 → (s.site n).rail ≠ 0 → (s.boot.step = 7 ∨ s.boot.step = 10) → exec (.siteResetRelease n) s = .next
      (((s.modSite n (fun x => { x with sb := [(0, BitVec.ofNat 64 (0x10 * 2 ^ 40))], stage := 0, retried := false })).siteState n 3).emit (.pin (0x100 + n) true))) ∧
    (s.siteSt n = 3 → (s.site n).stage = 0 → exec (.noSideband n) s = .next (s.siteAbsent n 4).bootCheck ∧
      ∀ regs, let sb := (regs.filter (fun (e : Nat × Nat) => decide (e.1 < 0x400))).foldl (fun (m : Tbl W64) (e : Nat × Nat) => m.set e.1 (BitVec.ofNat 64 e.2)) []
        exec (.sidebandReady n regs) s = .next ((s.modSite n (fun x =>
          { x with sb := sb, stage := 1, width := s.siteWidth n (fld ((sb.getD 8 0).toNat) 12 10) })).modMaps)) ∧
    (s.siteSt n = 5 → exec (.restart n) s = .next ((s.modSite n (fun x => { x with restart := true })).beginRestart n)) ∧
    (s.siteSt n ≠ 5 → exec (.restart n) s = .next s)) ∧
  (∀ (s : State) (n active half repairs scratch read : Nat), n < 8 → s.siteSt n = 3 → (s.site n).stage = 1 → s.boot.step = 10 → (s.site n).retried = false →
    active &&& (s.site n).active = (s.site n).active → (s.site n).active ≠ 0 → read = (s.site n).active + (half &&& (s.site n).active) * 2 ^ 12 → read < 2 ^ 24 →
    ∃ u, exec (.siteTrainingDone n active half repairs scratch read) s = .next u ∧ (u.site n).stage = 2 ∧
      (u.site n).active = (s.site n).active ∧ (u.site n).half = half &&& (s.site n).active ∧ (u.site n).retried = false) ∧
  (∀ (s : State) (n : Nat), n < 8 → s.siteSt n = 3 → (s.site n).stage = 2 →
    let h := (upTo 5).map (fun c => fld (s.sbRead n 0x18) (8 * c + 7) (8 * c))
    let d := (upTo 4).map (fun c => fld (s.sbRead n 0x20) (16 * c + 15) (16 * c)) ++ [0]
    ((∃ c, c < 5 ∧ (h.getD c 0 < minH.getD c 0 ∨ d.getD c 0 < minD.getD c 0)) → exec (.creditExchange n) s = .next (s.siteFall n 3)) ∧
    ((∀ c, c < 5 → minH.getD c 0 ≤ h.getD c 0 ∧ minD.getD c 0 ≤ d.getD c 0) →
      let s1 := if (s.parcelOfSite n).isNone then s.setFlush n true else s
      let s2 := s1.modSite n (fun x => { x with credH := h, credD := d, grantH := hubH, grantD := hubD, rxSeq := 0, rxHold := [], rxPkt := [], rxNeed := 0,
                                                txSlots := [(3, controlSlot hubH hubD)], txSeq := 0, txMod := 0 })
      exec (.creditExchange n) s = .next (((s2.sendFlit n).clearAgents n).siteState n 4).bootCheck)) ∧
  (∀ (s : State) (n : Nat), n < 8 →
    (∀ k, (s.siteSt n = 4 ∧ 1 ≤ k ∧ k ≤ 4) ∨ (s.rising n = true ∧ 3 ≤ k ∧ k ≤ 5) → exec (.siteDown n k) s = .next (s.siteFall n k)) ∧
    ((s.site n).rail ≠ 0 →
      let off := (s.siteFall n 4).modSite n (fun x => { x with rail := 0 })
      exec (.railTrip (.under n)) s = .next off ∧ (s.overPower n = true → exec (.railTrip (.over n)) s = .next off) ∧
        (s.overPower n = false → exec (.railTrip (.over n)) s = .next s)) ∧
    ((s.site n).rail = 0 → exec (.railTrip (.under n)) s = .next s ∧ exec (.railTrip (.over n)) s = .next s) ∧
    (s.siteSt n = 4 → exec (.replayExhausted n) s = .next (s.siteFall n 2)) ∧
    (s.siteSt n = 4 → (s.site n).owed ≠ [] → exec (.respUsExpiry n) s = .next (s.siteFall n 1)) ∧
    (s.siteSt n = 4 → (s.site n).owed = [] → (s.site n).cancels = [] → (s.site n).xinv = [] → exec (.respUsExpiry n) s = .next s) ∧
    (∀ err, s.siteSt n = 4 →
      let s1 := s.modSite n (fun x => { x with sb := x.sb.set 0x40 (BitVec.ofNat 64 err) })
      (err.testBit 16 = true → exec (.ueSidebandMessage n err) s = .next (s1.siteFall n 3) ∧ exec (.blkErrPoll n err) s = .next (s1.siteFall n 3)) ∧
      (err.testBit 16 = false → exec (.ueSidebandMessage n err) s = .next s1 ∧ exec (.blkErrPoll n err) s = .next s1)))

/-- Flits are counted and held in order, credits return, messages and answers take effect, and flushes and drops run to
their end (R341, R344, R345, R346, R352, R353, R357, R358, R359, R360, R362, R369). Where it goes beyond the rules it
rests on the model's choices of log entries 45, 46, 48. -/
def Obligations.FlitsMessagesAndFlushes : Prop :=
  (∀ (s : State) (n seq ctrl : Nat) (nak : Bool) (slots : List Nat), n < 8 → s.siteSt n = 4 →
    let s1 (bad : Nat) := (s.transit (Reg.siteCnt n 1) 1).transit (Reg.siteCnt n 3) ((if nak then 1 else 0) + bad)
    exec (.flitReceived n seq true nak ctrl slots) s = .next ((s1 1).transit (Reg.siteCnt n 2) 1) ∧
    ((s.site n).rxHold = [] → (s.site n).rxSeq < seq → exec (.flitReceived n seq false nak ctrl slots) s = .next
      ((s1 0).modSite n (fun y => { y with rxHold := [⟨seq, ctrl, slots⟩] }))) ∧
    (seq < (s.site n).rxSeq → exec (.flitReceived n seq false nak ctrl slots) s = .next (s1 0))) ∧
  (∀ (s : State) (n w : Nat), n < 8 → s.siteSt n = 4 →
    (fld w 127 120 ≠ 0 → exec (.controlSlot n w) s = .next (s.siteFall n 3)) ∧
    (fld w 127 120 = 0 → (s.site n).tx = [] → exec (.controlSlot n w) s = .next (s.modSite n (fun x => { x with
      credH := x.credH.mapIdx (fun c v => v + fld w (24 * c + 7) (24 * c))
      credD := x.credD.mapIdx (fun c v => v + fld w (24 * c + 23) (24 * c + 8)) })))) ∧
  (∀ (s : State) (n : Nat) (m : TxMsg), n < 8 → s.siteSt n = 4 → (s.site n).tx = [m] → (s.site n).credit m.cls m.data.length = true →
    let sent := (s.modSite n (fun y => { (y.spend m.cls m.data.length) with tx := y.tx.erase m })).toSite n (packetSlots m.head m.data)
    (m.code = 0x28 → exec (.workMessage n) s = .next sent) ∧ (m.code = 0x2E → exec (.xinv n) s = .next sent) ∧
    (m.code = 0x2D → exec (.xlated n) s = .next sent) ∧
    (m.code = 0x2A → (s.site n).credit 1 0 = true → exec (.cancel n) s = .next
      (sent.modSite n (fun x => { x with cancels := x.cancels ++ [(m.who, m.txid)] })))) ∧
  (∀ (s : State) (n txid st detail result : Nat) (w : WorkOut), s.siteSt n = 4 → (0x29, txid, [st, detail, result]) ∈ (s.site n).rxq → (s.site n).works.get? txid = some w →
    let s1 := s.modSite n (fun x => { x with rxq := x.rxq.erase (0x29, txid, [st, detail, result]) })
    let s2 := w.refs.foldl State.devDrop (s1.modSite n (fun x => { x with works := x.works.erase txid }))
    (st ∈ [0x00, 0x01, 0x11, 0x50, 0x42, 0xF0] → exec (.done n txid st detail result) s = .next (s2.answer w.queue w.idx ⟨st, detail, result⟩)) ∧
    (st ∉ [0x00, 0x01, 0x11, 0x50, 0x42, 0xF0] → exec (.done n txid st detail result) s = .next (s2.answer w.queue w.idx ⟨0xF0, detail, result⟩))) ∧
  (∀ (s : State) (n txid who : Nat), s.siteSt n = 4 → (0x2B, txid, [who]) ∈ (s.site n).rxq →
    let s1 := s.modSite n (fun x => { x with rxq := x.rxq.erase (0x2B, txid, [who]) })
    (256 ≤ who → exec (.cancelled n txid who) s = .next (s1.modSite n (fun x => { x with works := x.works.erase txid }))) ∧
    (who < 256 → exec (.cancelled n txid who) s = .next
      (s1.modShip who (fun x => { x with returns := x.returns.modify txid (fun e => { e with answer := some 0, cancelled := true }) })))) ∧
  (∀ (s : State) (n txid ctx page write : Nat), s.siteSt n = 4 → (0x2C, txid, [ctx, page, write]) ∈ (s.site n).rxq →
    let s1 := s.modSite n (fun x => { x with rxq := x.rxq.erase (0x2C, txid, [ctx, page, write]) })
    let reply (code w dpa : Nat) : State := s1.txPush n (txPacket 0x2D 3 (s1.parcelTag n) (672 + n) 0 txid 0 (code + w * 2 ^ 8 + dpa / 16 * 2 ^ 10) [])
    (s1.ctxs.get? ctx = none → exec (.xlate n txid ctx page write) s = .next (reply 0x01 0 0)) ∧
    (∀ c, s1.ctxs.get? ctx = some c →
      (s1.parcelOfSite n ≠ some c.parcel → exec (.xlate n txid ctx page write) s = .next (reply 0x01 0 0)) ∧
      (s1.parcelOfSite n = some c.parcel → inHost (page * 65536) = true → exec (.xlate n txid ctx page write) s = .next
        ((reply 0x07 0 0).engineLoss ctx ⟨0x07, write, page * 65536, 0, 0xFFFFFFFF⟩)) ∧
      (s1.parcelOfSite n = some c.parcel → inHost (page * 65536) = false →
        (∀ x leaf sh, s1.translateFresh c none (page * 65536) write = .ok (x, leaf, sh) → exec (.xlate n txid ctx page write) s = .next
          (reply 0 (b2n (leaf.testBit 2 && !x.ease)) (x.dpa / 65536 * 65536))) ∧
        (∀ f, s1.translateFresh c none (page * 65536) write = .error f → exec (.xlate n txid ctx page write) s = .next
          ((reply f.code 0 0).engineLoss ctx ⟨f.code, write, page * 65536, f.ppa, 0xFFFFFFFF⟩))))) ∧
  (∀ (s : State) (n txid ctx : Nat), s.siteSt n = 4 → (0x2F, txid, [ctx]) ∈ (s.site n).rxq →
    let s1 := s.modSite n (fun x => { x with rxq := x.rxq.erase (0x2F, txid, [ctx]) })
    let k := (s.site n).xinv.getD txid 0
    exec (.xinvack n txid ctx) s = .next (((s1.modSite n (fun x => { x with xinv := if k ≤ 1 then x.xinv.erase txid else x.xinv.set txid (k - 1) })).modCtx txid
      (fun c => { c with xinv := c.xinv - 1 })).xinvEnd txid)) ∧
  (∀ (s : State) (n : Nat), n < 8 → s.siteSt n = 4 →
    ((s.site n).ask = true → (s.site n).works = [] → exec (.flush n) s = .next ((s.setFlush n true).modSite n (fun x => { x with ask := false }))) ∧
    ((s.site n).flush = true → s.parcelOfSite n = none → exec (.flushDone n) s = .next
      (s.modSite n (fun x => { x with sb := x.sb.set 0x38 (BitVec.ofNat 64 (putFld (s.sbRead n 0x38) 0 0 1)) }))) ∧
    ((s.site n).drop = true → exec (.drop n) s = .next (s.setDrop n true)) ∧
    ((s.site n).drop = true → (s.sbRead n 0x30).testBit 1 = true → exec (.dropDone n) s = .next ((s.setDrop n false).clearAgents n) ∧
      exec (.flushMsExpiry n) s = .next (s.siteFall n 1)) ∧
    ((s.site n).flush = true → (s.sbRead n 0x38).testBit 0 = false → exec (.flushMsExpiry n) s = .next (s.siteFall n 1))) ∧
  (∀ (s : State) (n : Nat) (report : List Nat), n < 8 → (s.site n).meas = true →
    exec (.measReady n report) s = .next ((s.blkCtrl n 2 false).modSite n (fun x => { x with meas := false, report := (report.map (· % 256)).take 1024 })) ∧
    exec (.measTimeout n) s = .next ((s.blkCtrl n 2 false).modSite n (fun x => { x with meas := false, report := [] })))

/-- Every well-formed thread instruction is read back from its words, and every word that spells one is rebuilt from it
(R80, R81, 03_thread_instruction_set.md). Where it goes beyond the rules it rests on the model's choices of log entry
106. -/
def Obligations.ThreadWordsDecodeToWhatTheyEncode : Prop :=
  (∀ (i : Instr) (w x : W32), i.wf = true → encodeThread i = some (w, x) →
    decodeThread (threadOf i) w x = some i ∧ (isExtended (major w) = false → x = 0)) ∧
  (∀ (t : Nat) (w x : W32) (i : Instr), decodeThread t w x = some i →
    encodeThread i = some (w, if isExtended (major w) then x else 0) ∧ threadOf i = t ∧ (t < 2 ^ 22 → i.wf = true))

/-- A word that breaks an encoding rule takes the encoding fault of the lowest code that applies, and has no other effect
(R82, R83, R101, R102, 03_thread_instruction_set.md). Where it goes beyond the rules it rests on the model's choices
of log entry 19. -/
def Obligations.EncodingFaultsReportTheLowestCode : Prop :=
  (∀ (s : State) (t : Nat) (f : FmtA), s.canIssue t = true →
    let fault (c : Nat) : Host.Outcome State Fault Refusal := .next (s.encFault t c)
    (f.md ≠ 0 → ∀ i ∈ ([.add t f, .sub t f, .and t f, .or t f, .xor t f, .sll t f, .srl t f, .sra t f, .mul t f, .mulh t f, .mulhu t f, .min t f,
      .max t f, .minu t f, .maxu t f] : List Instr), exec i s = fault 0x12) ∧
    (∀ i ∈ ([.pand t f, .por t f, .pxor t f, .pandn t f] : List Instr),
      (4 ≤ f.d.toNat ∨ 4 ≤ f.a.toNat ∨ 4 ≤ f.b.toNat → exec i s = fault 0x11) ∧
      (f.d.toNat < 4 → f.a.toNat < 4 → f.b.toNat < 4 → f.md ≠ 0 → exec i s = fault 0x12))) ∧
  (∀ (s : State) (t : Nat) (f : FmtI), s.canIssue t = true →
    let fault (c : Nat) : Host.Outcome State Fault Refusal := .next (s.encFault t c)
    (fld f.imm.toNat 13 12 = 3 → exec (.shi t f) s = fault 0x10) ∧
    (fld f.imm.toNat 13 12 ≠ 3 → f.b ≠ 0 ∨ fld f.imm.toNat 11 5 ≠ 0 → exec (.shi t f) s = fault 0x12) ∧
    (6 ≤ f.b.toNat → exec (.cmpi t f) s = fault 0x10) ∧ (f.b.toNat < 6 → 4 ≤ f.d.toNat → exec (.cmpi t f) s = fault 0x11) ∧
    (f.b ≠ 0 → ∀ i ∈ ([.addi t f, .andi t f, .ori t f, .xori t f] : List Instr), exec i s = fault 0x12)) ∧
  (∀ (s : State) (t : Nat) (f : FmtM), s.canIssue t = true →
    let fault (c : Nat) : Host.Outcome State Fault Refusal := .next (s.encFault t c)
    (7 ≤ f.kind.toNat → exec (.ld t f) s = fault 0x10) ∧
    (f.kind.toNat < 7 → f.a.toNat % 2 = 1 ∨ (f.kind.toNat = 5 ∧ f.d.toNat % 2 = 1) → exec (.ld t f) s = fault 0x11)) ∧
  (∀ (s : State) (t : Nat) (f : FmtE), s.canIssue t = true → s.macFree t = true → macForm f = 3 →
    exec (.vmac t f) s = .next (s.encFault t 0x10) ∧ exec (.vmacc t f) s = .next (s.encFault t 0x10)) ∧
  (∀ (s s1 : State) (t : Nat) (th : Thread) (w : W32) (bad : Bool) (ppa : Nat), s.threads.get? t = some th → s.wordHeld th t th.pc.toNat = false →
    s.fetchWord th t th.pc.toNat = (.ok (w, bad, ppa), s1) → isExtended (major w) = false → decodeThread t w 0 = none →
    let s2 := (s1.modThread t (fun y => { y with fetched := some (th.pc.toNat, ppa) })).encFault t 0x10
    s.runNext t = (true, if bad then s2.poisonRead th.spec.isSome t th.launch else s2)) ∧
  (∀ (s : State) (t c : Nat) (th : Thread), s.threads.get? t = some th → ∃ ppa, s.encFault t c = s.threadFault t c 3 th.pc.toNat ppa)
end

