-- ==== Sys2Proof/Laws/Table.lean ====
section
/-! SUPPORT. The laws of tables: reading after writing, writing twice, and the canonical form that every operation keeps. -/

namespace Sys2Proof

variable {α : Type}

@[simp] theorem Tbl.get?_nil (k : Nat) : Tbl.get? ([] : Tbl α) k = none := rfl

/-- What a read gives after a write. -/
theorem Tbl.get?_set (t : Tbl α) (k j : Nat) (v : α) : (t.set k v).get? j = if j = k then some v else t.get? j := by
  fun_induction Tbl.set t k v <;> grind [Tbl.get?]

@[simp] theorem Tbl.get?_set_self (t : Tbl α) (k : Nat) (v : α) : (t.set k v).get? k = some v := by simp [Tbl.get?_set]

theorem Tbl.get?_set_ne (t : Tbl α) {k j : Nat} (v : α) (h : j ≠ k) : (t.set k v).get? j = t.get? j := by simp [Tbl.get?_set, h]

@[simp] theorem Tbl.getD_set_self (t : Tbl α) (k : Nat) (v d : α) : (t.set k v).getD k d = v := by
  simp [Tbl.getD]

theorem Tbl.getD_set_ne (t : Tbl α) {k j : Nat} (v d : α) (h : j ≠ k) : (t.set k v).getD j d = t.getD j d := by
  simp [Tbl.getD, Tbl.get?_set_ne t v h]

@[simp] theorem Tbl.set_set (t : Tbl α) (k : Nat) (v w : α) : (t.set k v).set k w = t.set k w := by
  fun_induction Tbl.set t k v <;> grind [Tbl.set]

@[simp] theorem Tbl.has_set_self (t : Tbl α) (k : Nat) (v : α) : (t.set k v).has k = true := by
  simp [Tbl.has]

theorem Tbl.modify_some (t : Tbl α) {k : Nat} {v : α} (f : α → α) (h : t.get? k = some v) : t.modify k f = t.set k (f v) := by
  simp [Tbl.modify, h]

/-- What a read gives of a filtered table whose filter looks at keys alone. -/
theorem Tbl.get?_filter_key (p : Nat → Bool) (t : Tbl α) (j : Nat) :
    Tbl.get? (t.filter (fun e => p e.1)) j = if p j then t.get? j else none := by
  induction t <;> grind [Tbl.get?]

theorem Tbl.get?_erase_ne (t : Tbl α) {k j : Nat} (h : j ≠ k) : (t.erase k).get? j = t.get? j := by
  have := Tbl.get?_filter_key (fun x => decide (x ≠ k)) t j
  simpa [Tbl.erase, h] using this

@[simp] theorem Tbl.get?_erase_self (t : Tbl α) (k : Nat) : (t.erase k).get? k = none := by
  have := Tbl.get?_filter_key (fun x => decide (x ≠ k)) t k
  simpa [Tbl.erase] using this

/-! ### The canonical form -/

theorem Tbl.sortedFrom_mono {lo lo' : Nat} (t : Tbl α) (h : lo' ≤ lo) (hs : t.sortedFrom lo = true) : t.sortedFrom lo' = true := by
  cases t <;> grind [Tbl.sortedFrom]

theorem Tbl.sortedFrom_set (t : Tbl α) (k : Nat) (v : α) (lo : Nat) (h : lo ≤ k) (hs : t.sortedFrom lo = true) :
    (t.set k v).sortedFrom lo = true := by
  fun_induction Tbl.set t k v generalizing lo <;> grind [Tbl.sortedFrom, Tbl.sortedFrom_mono]

theorem Tbl.wf_set (t : Tbl α) (k : Nat) (v : α) (h : t.wf = true) : (t.set k v).wf = true :=
  Tbl.sortedFrom_set t k v 0 (Nat.zero_le k) h

theorem Tbl.sortedFrom_filter (p : Nat × α → Bool) (t : Tbl α) (lo : Nat) (h : t.sortedFrom lo = true) :
    Tbl.sortedFrom lo (t.filter p) = true := by
  induction t generalizing lo with
  | nil => simp [Tbl.sortedFrom]
  | cons e r step =>
    have below := step (e.1 + 1)
    have lower := Tbl.sortedFrom_mono (lo' := lo) (lo := e.1 + 1) (r.filter p)
    grind [Tbl.sortedFrom]

theorem Tbl.wf_erase (t : Tbl α) (k : Nat) (h : t.wf = true) : (t.erase k).wf = true := Tbl.sortedFrom_filter _ t 0 h

theorem Tbl.wf_keep (t : Tbl α) (p : Nat → α → Bool) (h : t.wf = true) : (t.keep p).wf = true := Tbl.sortedFrom_filter _ t 0 h

theorem Tbl.sortedFrom_mapV (f : Nat → α → α) (t : Tbl α) (lo : Nat) (h : t.sortedFrom lo = true) : (t.mapV f).sortedFrom lo = true := by
  fun_induction Tbl.sortedFrom lo t <;> simp_all [Tbl.mapV, Tbl.sortedFrom]

/-- A table changed entry by entry, read at a key. -/
@[simp] theorem Tbl.get?_mapV (t : Tbl α) (f : Nat → α → α) (k : Nat) : (t.mapV f).get? k = (t.get? k).map (f k) := by
  induction t with
  | nil => rfl
  | cons e r ih =>
    simp only [Tbl.mapV] at ih
    simp only [Tbl.mapV, List.map_cons, Tbl.get?]
    split
    · next h => subst h; rfl
    · exact ih

theorem Tbl.wf_mapV (t : Tbl α) (f : Nat → α → α) (h : t.wf = true) : (t.mapV f).wf = true := Tbl.sortedFrom_mapV f t 0 h

theorem Tbl.wf_modify (t : Tbl α) (k : Nat) (f : α → α) (h : t.wf = true) : (t.modify k f).wf = true := by
  unfold Tbl.modify
  split
  · exact Tbl.wf_set t k _ h
  · exact h

end Sys2Proof
end

