-- ==== Sys2Proof/Laws/Memory.lean ====
section
/-! SUPPORT. The laws of memory: reading after writing, and the canonical form that every operation keeps. -/

namespace Sys2Proof

@[simp] theorem Memory.background_write (m : Memory) (a : Nat) (b : Byte) (c : Nat) : (m.write a b).background c = m.background c := by
  unfold Memory.write
  split <;> rfl

theorem Memory.read_write_self (m : Memory) (a : Nat) (b : Byte) : (m.write a b).read a = b := by
  unfold Memory.read
  rw [Memory.background_write]
  unfold Memory.write
  split
  · rename_i h; simp [h]
  · simp

theorem Memory.read_write_ne (m : Memory) {a c : Nat} (b : Byte) (h : c ≠ a) : (m.write a b).read c = m.read c := by
  unfold Memory.read
  rw [Memory.background_write]
  unfold Memory.write
  split
  · simp [Tbl.get?_erase_ne _ h]
  · simp [Tbl.get?_set_ne _ _ h]

theorem Memory.read_writeBytes_out (bs : List Byte) : ∀ (m : Memory) (a c : Nat), (c < a ∨ a + bs.length ≤ c) →
    (m.writeBytes a bs).read c = m.read c := by
  induction bs with
  | nil => intro m a c _; rfl
  | cons b r ih =>
    intro m a c h
    simp only [Memory.writeBytes, List.length_cons] at *
    rw [ih _ _ _ (by omega), Memory.read_write_ne _ _ (by omega)]

theorem Memory.length_bytesOf (n : Nat) : ∀ v, (bytesOf n v).length = n := by
  induction n with
  | zero => intro v; rfl
  | succ n ih => intro v; simp [bytesOf, ih]

theorem Memory.read_writeN_out (m : Memory) (a n v c : Nat) (h : c < a ∨ a + n ≤ c) : (m.writeN a n v).read c = m.read c :=
  Memory.read_writeBytes_out _ m a c (by rw [Memory.length_bytesOf]; exact h)

/-! ### The canonical form -/

theorem Memory.wf_empty : Memory.empty.wf = true := rfl

/-- A table after a write lists the pair written and pairs it listed before, nothing else. -/
theorem Tbl.mem_set {α : Type} (t : Tbl α) (k : Nat) (v : α) (e : Nat × α) (h : e ∈ t.set k v) : e = (k, v) ∨ e ∈ t := by
  fun_induction Tbl.set t k v <;> grind

theorem Memory.wf_write (m : Memory) (a : Nat) (b : Byte) (h : m.wf = true) : (m.write a b).wf = true := by
  unfold Memory.wf at *
  simp only [Bool.and_eq_true, List.all_eq_true, decide_eq_true_eq] at *
  obtain ⟨h1, h2⟩ := h
  unfold Memory.write
  split
  · refine ⟨Tbl.wf_erase _ _ h1, fun c hc => ?_⟩
    exact h2 c (List.mem_filter.mp hc).1
  · rename_i hb
    refine ⟨Tbl.wf_set _ _ _ h1, fun c hc => ?_⟩
    rcases Tbl.mem_set _ _ _ c hc with h | h
    · subst h; exact hb
    · exact h2 c h

theorem Memory.wf_writeBytes (bs : List Byte) : ∀ (m : Memory) (a : Nat), m.wf = true → (m.writeBytes a bs).wf = true := by
  induction bs with
  | nil => intro m a h; exact h
  | cons b r ih => intro m a h; exact ih _ _ (Memory.wf_write m a b h)

theorem Memory.wf_writeN (m : Memory) (a n v : Nat) (h : m.wf = true) : (m.writeN a n v).wf = true :=
  Memory.wf_writeBytes _ m a h

theorem Memory.wf_dropRange (m : Memory) (lo hi : Nat) (h : m.wf = true) : (m.dropRange lo hi).wf = true := by
  unfold Memory.wf at *
  simp only [Bool.and_eq_true, List.all_eq_true, decide_eq_true_eq] at *
  exact ⟨Tbl.sortedFrom_filter _ _ 0 h.1, fun c hc => h.2 c (List.mem_filter.mp hc).1⟩

theorem Memory.wf_lose (m : Memory) (e : Nat) : (m.lose e).wf = true := rfl

theorem Memory.epochAt_setEpoch_ne (m : Memory) (g e a : Nat) (h : a / 2 ^ 30 ≠ g) : (m.setEpoch g e).epochAt a = m.epochAt a := by
  unfold Memory.setEpoch Memory.epochAt
  dsimp only
  split
  · unfold Tbl.getD; rw [Tbl.get?_erase_ne _ h]
  · unfold Tbl.getD; rw [Tbl.get?_set_ne _ _ h]

theorem Memory.epochAt_setEpoch (m : Memory) (g e a : Nat) (h : a / 2 ^ 30 = g) : (m.setEpoch g e).epochAt a = e := by
  unfold Memory.setEpoch Memory.epochAt
  dsimp only
  split
  · rename_i he; unfold Tbl.getD; rw [h, Tbl.get?_erase_self]; exact he.symm
  · rw [h, Tbl.getD_set_self]

theorem Memory.wf_setEpoch (m : Memory) (g e : Nat) (h : m.wf = true) : (m.setEpoch g e).wf = true := by
  unfold Memory.wf at *
  simp only [Bool.and_eq_true, List.all_eq_true, decide_eq_true_eq] at *
  refine ⟨Tbl.sortedFrom_filter _ _ 0 h.1, fun c hc => ?_⟩
  have hc' : c ∈ m.cells.filter (fun c => decide (c.1 / 2 ^ 30 ≠ g)) := hc
  have hm := List.mem_filter.mp hc'
  have hg : c.1 / 2 ^ 30 ≠ g := by simpa using hm.2
  have := h.2 c hm.1
  unfold Memory.background at *
  rw [Memory.epochAt_setEpoch_ne m g e c.1 hg]
  exact this

theorem Memory.wf_zeroGranule (m : Memory) (g : Nat) (h : m.wf = true) : (m.zeroGranule g).wf = true :=
  Memory.wf_setEpoch m g 0 h

end Sys2Proof
end

