-- ==== Sys2Proof/Laws/Coherence.lean ====
section
/-! SUPPORT. What the delivery of a coherence message does, and what the network's own bookkeeping leaves alone. -/

namespace Sys2Proof.Machine

/-- A message accepted by an awake township, of a line whose blocks are not under test, has the effect of its kind there. -/
theorem atAgent_open {s : State} {k : MsgKind} {m : Msg} {t : Nat} {f : Nat → State} (hd : s.deliverable m = true) (hk : m.kind = k)
    (hh : m.dst = .agent t) (ht : t < 256) (hs : s.shipOpen t = true) (hg : s.tagOk t m.tag = true) (hl : s.lineFree t (m.dpa / 128) = true) : s.atAgent k m f = f t := by
  have h1 : ¬ 256 ≤ t := by omega
  have h2 : ¬ (256 ≤ t ∧ t < 288) := fun h => h1 h.1
  simp [State.atAgent, hd, hk, hh, Node.site?, h1, hs, hg, hl]

/-- A request at its home that finds a place there is served. -/
theorem arrive_home {s : State} {k : MsgKind} {m : Msg} {c : Nat} (hd : s.deliverable m = true) (hk : m.kind = k) (hh : m.dst = .home c)
    (he : s.mayEnter m = true) : s.arrive k m = s.onRequest m := by
  simp [State.arrive, hd, hk, hh, he]

/-- A request whose checks pass, of a channel that is not held, of a line on which nothing waits and at a slice with a free transaction, is served at once. -/
theorem onRequest_serve {s : State} {m : Msg} (ho : (s.take m).ownerOk m = true) (hc : (s.take m).channelHeld ((s.take m).channelOf m.dpa) = false)
    (hq : (s.take m).waitq.getD (m.dpa / 128) [] = []) (hb : (s.take m).sliceBusy ((s.take m).channelOf m.dpa) < 128) : s.onRequest m = (s.take m).serveHome m false := by
  simp [State.onRequest, State.admitHome, State.held, ho, hc, hq, Nat.not_le.mpr hb]

end Sys2Proof.Machine
end

