-- ==== Sys2Proof/Laws/Commands.lean ====
section
/-! SUPPORT. A command that has started, or is being served, reaches its meaning with the request that its packet makes. -/

namespace Sys2Proof.Machine

theorem serve_runs {s : State} {q i op : Nat} {x : Queue} {c : Cmd} {f : Req → State} (h : s.runs q i op x c) :
    s.serve q i op f = f (s.req q i x c) := by
  obtain ⟨h1, h2, h3, h4⟩ := h
  simp [State.serve, h1, h2, h3, h4, State.req]

theorem serving_serves {s : State} {q i op : Nat} {x : Queue} {c : Cmd} {d : List Nat} {f : Req → List Nat → State} (h : s.serves q i op x c d) :
    s.serving q i op f = f (s.req q i x c) d := by
  obtain ⟨h1, h2, h3, h4⟩ := h
  simp [State.serving, h1, h2, h3, h4, State.req]

/-- A command that has started is not being served yet. -/
theorem serving_runs {s : State} {q i op : Nat} {x : Queue} {c : Cmd} {f : Req → List Nat → State} (h : s.runs q i op x c) :
    s.serving q i op f = s := by
  obtain ⟨h1, h2, h3, h4⟩ := h
  simp [State.serving, h1, h2, h3]

/-- A command that has been answered is no longer started. -/
theorem serve_answer {s : State} {q i op : Nat} {x : Queue} {c : Cmd} {a : Answer} {f : Req → State} (h1 : s.queues.get? q = some x)
    (h2 : x.cmds.get? i = some c) : (s.answer q i a).serve q i op f = s.answer q i a := by
  cases h : c.st <;> simp [State.serve, State.answer, State.modQueue, h1, State.setQueue, Tbl.modify_some _ _ h2, h]

/-- A command that is being served is no longer only started. -/
theorem serve_keepServing {op : Nat} {f : Req → State} {q i : Nat} (t : State) (r : Req) {d : List Nat} (hq : r.q = q) (hi : r.i = i) :
    (t.keepServing r d).serve q i op f = t.keepServing r d := by
  subst hq hi
  simp only [State.keepServing, State.modCmd, State.modQueue]
  cases h : t.queues.get? r.q with
  | none => simp [State.serve, h]
  | some x =>
    simp only [State.serve, State.setQueue, Tbl.get?_set_self]
    cases h2 : x.cmds.get? r.i with
    | none => simp [Tbl.modify, h2]
    | some c => simp [Tbl.modify_some _ _ h2]

/-- A command that names no fence handle reads no fence entry. -/
@[simp] theorem State.fenceRead_zero (s : State) (p : Nat) (k : State) : s.fenceRead 0 p k = k := rfl

/-- A read of the reserved range whose channel has not failed goes on. -/
theorem State.tableRead_kept {s k : State} {off p : Nat} (h : s.rsvLost off = false) : s.tableRead off p k = k := by
  simp [State.tableRead, h]

theorem withCtx_named {s : State} {q i n : Nat} {x : Queue} {c : Cmd} {y : Context} {f : Nat → Context → State} (h : s.named c n y) :
    s.withCtx (s.req q i x c) f = f n y := by
  obtain ⟨rfl, h2⟩ := h
  simp [State.withCtx, h2]

@[simp] theorem req_pkt (s : State) (q i : Nat) (x : Queue) (c : Cmd) : (s.req q i x c).pkt = c.pkt := rfl
@[simp] theorem req_fn (s : State) (q i : Nat) (x : Queue) (c : Cmd) : (s.req q i x c).fn = x.fn := rfl
@[simp] theorem reply_req (s t : State) (q i : Nat) (x : Queue) (c : Cmd) (a : Answer) : t.reply (s.req q i x c) a = t.answer q i a := rfl
@[simp] theorem keepServing_req (s t : State) (q i : Nat) (x : Queue) (c : Cmd) (d : List Nat) :
    t.keepServing (s.req q i x c) d = t.modCmd q i (fun c => { c with st := .serving d }) := rfl

/-- Reserved bits and bytes zero and every field in range: a packet passes the checks that depend on it alone. -/
theorem packetCheck_none {p : Nat} {used : List (Nat × Nat)} {bits ranges : List (Bool × Nat)} (h1 : reservedByte p used = none)
    (h2 : firstBad bits = none) (h3 : firstBad ranges = none) : packetCheck p used bits ranges = none := by
  simp [packetCheck, h1, h2, h3]

end Sys2Proof.Machine
end

