-- ==== Sys2Proof/Laws/Encode.lean ====
section
/-! SUPPORT. The fields that the words of thread instructions are read back as, one lemma per format and field, and the words rebuilt from
the fields that were read. -/

namespace Sys2Proof.Machine

theorem encA_bit (m fn : BitVec 6) (f : FmtA) (i : Nat) : (encA m fn f).getLsbD i =
    if i < 8 then f.md.getLsbD i else if i < 14 then fn.getLsbD (i - 8) else if i < 18 then f.b.getLsbD (i - 14)
    else if i < 22 then f.a.getLsbD (i - 18) else if i < 26 then f.d.getLsbD (i - 22) else m.getLsbD (i - 26) := by
  have h : (encA m fn f).getLsbD i = BitVec.getLsbD (w := 6 + 4 + 4 + 4 + 6 + 8) (m ++ f.d ++ f.a ++ f.b ++ fn ++ f.md) i := rfl
  rw [h]
  simp only [BitVec.getLsbD_append, show ∀ a b : Nat, i - a - b = i - (a + b) by omega]
  by_cases h1 : i < 8 <;> by_cases h2 : i < 14 <;> by_cases h3 : i < 18 <;> by_cases h4 : i < 22 <;> by_cases h5 : i < 26 <;>
    simp only [h1, h2, h3, h4, h5, if_true, if_false, show (i - 8 < 6) = (i < 14 ∨ i < 8) by simp; omega, show (i - (8 + 6) < 4) = (i < 18 ∨ i < 8) by simp; omega,
      show (i - (8 + 6 + 4) < 4) = (i < 22 ∨ i < 8) by simp; omega, show (i - (8 + 6 + 4 + 4) < 4) = (i < 26 ∨ i < 8) by simp; omega,
      or_self, or_true, or_false, Nat.reduceAdd]

/-- The bits of a word whose low 14 bits are one immediate. -/
theorem encImm_bit (m : BitVec 6) (d a b : BitVec 4) (imm : BitVec 14) (i : Nat) :
    BitVec.getLsbD (w := 32) (m ++ d ++ a ++ b ++ imm) i =
    if i < 14 then imm.getLsbD i else if i < 18 then b.getLsbD (i - 14) else if i < 22 then a.getLsbD (i - 18)
    else if i < 26 then d.getLsbD (i - 22) else m.getLsbD (i - 26) := by
  have h : BitVec.getLsbD (w := 32) (m ++ d ++ a ++ b ++ imm) i = BitVec.getLsbD (w := 6 + 4 + 4 + 4 + 14) (m ++ d ++ a ++ b ++ imm) i := rfl
  rw [h]
  simp only [BitVec.getLsbD_append, show ∀ a b : Nat, i - a - b = i - (a + b) by omega]
  by_cases h2 : i < 14 <;> by_cases h3 : i < 18 <;> by_cases h4 : i < 22 <;> by_cases h5 : i < 26 <;>
    simp only [h2, h3, h4, h5, if_true, if_false, show (i - 14 < 4) = (i < 18 ∨ i < 14) by simp; omega,
      show (i - (14 + 4) < 4) = (i < 22 ∨ i < 14) by simp; omega, show (i - (14 + 4 + 4) < 4) = (i < 26 ∨ i < 14) by simp; omega,
      or_self, or_true, or_false, Nat.reduceAdd]

@[simp] theorem major_encA (m fn : BitVec 6) (f : FmtA) : major (encA m fn f) = m.toNat := by
  have h : (encA m fn f).extractLsb' 26 6 = m := by
    apply BitVec.eq_of_getLsbD_eq; intro i hi
    simp only [BitVec.getLsbD_extractLsb', encA_bit, hi, decide_true, Bool.true_and]
    rw [if_neg (by omega), if_neg (by omega), if_neg (by omega), if_neg (by omega), if_neg (by omega), show 26 + i - 26 = i by omega]
  rw [major, h]

@[simp] theorem func_encA (m fn : BitVec 6) (f : FmtA) : func (encA m fn f) = fn := by
  apply BitVec.eq_of_getLsbD_eq; intro i hi
  simp only [func, BitVec.getLsbD_extractLsb', encA_bit, hi, decide_true, Bool.true_and]
  rw [if_neg (by omega), if_pos (by omega), show 8 + i - 8 = i by omega]

@[simp] theorem wordA_encA (m fn : BitVec 6) (f : FmtA) : wordA (encA m fn f) = f := by
  have hd : (encA m fn f).extractLsb' 22 4 = f.d := by
    apply BitVec.eq_of_getLsbD_eq; intro i hi
    simp only [BitVec.getLsbD_extractLsb', encA_bit, hi, decide_true, Bool.true_and]
    rw [if_neg (by omega), if_neg (by omega), if_neg (by omega), if_neg (by omega), if_pos (by omega), show 22 + i - 22 = i by omega]
  have ha : (encA m fn f).extractLsb' 18 4 = f.a := by
    apply BitVec.eq_of_getLsbD_eq; intro i hi
    simp only [BitVec.getLsbD_extractLsb', encA_bit, hi, decide_true, Bool.true_and]
    rw [if_neg (by omega), if_neg (by omega), if_neg (by omega), if_pos (by omega), show 18 + i - 18 = i by omega]
  have hb : (encA m fn f).extractLsb' 14 4 = f.b := by
    apply BitVec.eq_of_getLsbD_eq; intro i hi
    simp only [BitVec.getLsbD_extractLsb', encA_bit, hi, decide_true, Bool.true_and]
    rw [if_neg (by omega), if_neg (by omega), if_pos (by omega), show 14 + i - 14 = i by omega]
  have hm : (encA m fn f).extractLsb' 0 8 = f.md := by
    apply BitVec.eq_of_getLsbD_eq; intro i hi
    simp only [BitVec.getLsbD_extractLsb', encA_bit, hi, decide_true, Bool.true_and]
    rw [if_pos (by omega), show 0 + i = i by omega]
  rw [wordA, hd, ha, hb, hm]

/-- The fields of a word with an immediate. -/
theorem fields_encImm (m : BitVec 6) (d a b : BitVec 4) (imm : BitVec 14) :
    let w : W32 := m ++ d ++ a ++ b ++ imm
    w.extractLsb' 26 6 = m ∧ w.extractLsb' 22 4 = d ∧ w.extractLsb' 18 4 = a ∧ w.extractLsb' 14 4 = b ∧ w.extractLsb' 0 14 = imm := by
  refine ⟨?_, ?_, ?_, ?_, ?_⟩ <;> apply BitVec.eq_of_getLsbD_eq <;> intro i hi <;>
    simp only [BitVec.getLsbD_extractLsb', encImm_bit, hi, decide_true, Bool.true_and]
  · rw [if_neg (by omega), if_neg (by omega), if_neg (by omega), if_neg (by omega), show 26 + i - 26 = i by omega]
  · rw [if_neg (by omega), if_neg (by omega), if_neg (by omega), if_pos (by omega), show 22 + i - 22 = i by omega]
  · rw [if_neg (by omega), if_neg (by omega), if_pos (by omega), show 18 + i - 18 = i by omega]
  · rw [if_neg (by omega), if_pos (by omega), show 14 + i - 14 = i by omega]
  · rw [if_pos (by omega), show 0 + i = i by omega]

@[simp] theorem major_encI (m : BitVec 6) (f : FmtI) : major (encI m f) = m.toNat := congrArg BitVec.toNat (fields_encImm m f.d f.a f.b f.imm).1
@[simp] theorem major_encM (m : BitVec 6) (f : FmtM) : major (encM m f) = m.toNat := congrArg BitVec.toNat (fields_encImm m f.d f.a f.kind f.imm).1
@[simp] theorem major_encE (m : BitVec 6) (f : FmtE) : major (encE m f) = m.toNat := congrArg BitVec.toNat (fields_encImm m f.d f.a f.b f.imm).1

@[simp] theorem wordI_encI (m : BitVec 6) (f : FmtI) : wordI (encI m f) = f := by
  obtain ⟨-, h1, h2, h3, h4⟩ := fields_encImm m f.d f.a f.b f.imm
  simp only [wordI, encI]; rw [h1, h2, h3, h4]
@[simp] theorem wordM_encM (m : BitVec 6) (f : FmtM) : wordM (encM m f) = f := by
  obtain ⟨-, h1, h2, h3, h4⟩ := fields_encImm m f.d f.a f.kind f.imm
  simp only [wordM, encM]; rw [h1, h2, h3, h4]
@[simp] theorem wordE_encE (m : BitVec 6) (f : FmtE) : wordE (encE m f) f.ext = f := by
  obtain ⟨-, h1, h2, h3, h4⟩ := fields_encImm m f.d f.a f.b f.imm
  simp only [wordE, encE]; rw [h1, h2, h3, h4]

/-- A word is rebuilt from the fields of format A that were read from it. -/
theorem encA_wordA (w : W32) : encA (w.extractLsb' 26 6) (func w) (wordA w) = w := by
  apply BitVec.eq_of_getLsbD_eq; intro i hi
  rw [encA_bit]; simp only [wordA, func, BitVec.getLsbD_extractLsb']
  by_cases h1 : i < 8 <;> by_cases h2 : i < 14 <;> by_cases h3 : i < 18 <;> by_cases h4 : i < 22 <;> by_cases h5 : i < 26 <;>
    simp [h1, h2, h3, h4, h5] <;> (try omega) <;>
    (try (rw [decide_eq_true (by omega)]; simp; congr 1; omega))

/-- A word is rebuilt from the fields with an immediate that were read from it. -/
theorem encImm_word (w : W32) : ((w.extractLsb' 26 6 ++ w.extractLsb' 22 4 ++ w.extractLsb' 18 4 ++ w.extractLsb' 14 4 ++ w.extractLsb' 0 14 : W32)) = w := by
  apply BitVec.eq_of_getLsbD_eq; intro i hi
  rw [encImm_bit]; simp only [BitVec.getLsbD_extractLsb']
  by_cases h2 : i < 14 <;> by_cases h3 : i < 18 <;> by_cases h4 : i < 22 <;> by_cases h5 : i < 26 <;>
    simp [h2, h3, h4, h5] <;> (try omega) <;> (try (rw [decide_eq_true (by omega)]; simp; congr 1; omega))

end Sys2Proof.Machine
end

