-- ==== Sys2Proof/Laws/Frames.lean ====
section
/-! SUPPORT. What sending a message, counting and logging change: block registers, counters, the count of free values, the error
log, the network and what waits at its sources, and nothing else. -/

namespace Sys2Proof.Machine

/-- A state that differs from another in its book-keeping and in the messages under way, and in nothing else. -/
def State.booked (s t : State) : Prop :=
  ∃ regs routers free errlog net engHeld tick niDrops retrain slots,
    t = { s with regs := regs, routers := routers, free := free, errlog := errlog, net := net, engHeld := engHeld, tick := tick, niDrops := niDrops,
                 retrain := retrain, slots := slots }

theorem State.booked_refl (s : State) : s.booked s := ⟨s.regs, s.routers, s.free, s.errlog, s.net, s.engHeld, s.tick, s.niDrops, s.retrain, s.slots, rfl⟩

theorem State.booked_trans {s t u : State} (h : s.booked t) (g : t.booked u) : s.booked u := by
  obtain ⟨_, _, _, _, _, _, _, _, _, _, rfl⟩ := h
  obtain ⟨a, b, c, d, e, f, k, l, m, n, rfl⟩ := g
  exact ⟨a, b, c, d, e, f, k, l, m, n, rfl⟩

theorem State.setReg_booked (s : State) (off : Nat) (v : W64) : s.booked (s.setReg off v) :=
  ⟨_, s.routers, s.free, s.errlog, s.net, s.engHeld, s.tick, s.niDrops, s.retrain, s.slots, rfl⟩
theorem State.setField_booked (s : State) (off hi lo x : Nat) : s.booked (s.setField off hi lo x) := s.setReg_booked _ _
theorem State.addWrap_booked (s : State) (off hi lo n : Nat) : s.booked (s.addWrap off hi lo n) := s.setReg_booked _ _
theorem State.addSat_booked (s : State) (off hi lo n : Nat) : s.booked (s.addSat off hi lo n) := s.setReg_booked _ _
theorem State.free_booked (s : State) (n : Nat) : s.booked { s with free := n } := ⟨s.regs, s.routers, n, s.errlog, s.net, s.engHeld, s.tick, s.niDrops, s.retrain, s.slots, rfl⟩
theorem State.net_booked (s : State) (l : List Msg) (n : Nat) : s.booked { s with net := l, tick := n } :=
  ⟨s.regs, s.routers, s.free, s.errlog, l, s.engHeld, n, s.niDrops, s.retrain, s.slots, rfl⟩
theorem State.pick_booked (s : State) (n : Nat) : s.booked (s.pick n).2 := s.free_booked _

/-- A message taken at its home leaves the network, and the wake buffer of the home's spoke. -/
theorem State.take_booked (s : State) {m : Msg} {ch : Nat} (h : m.dst = .home ch) : s.booked (s.take m) := by
  unfold State.take State.unhold
  rw [h]
  split
  · exact ⟨s.regs, s.routers, s.free, s.errlog, _, s.engHeld, s.tick, s.niDrops, s.retrain, s.slots, rfl⟩
  · exact ⟨s.regs, s.routers, s.free, s.errlog, _, _, s.tick, s.niDrops, s.retrain, s.slots, rfl⟩

/-- A message taken at a township leaves the network and the township's wake buffer; the rest of the township stays. -/
theorem State.take_ship (s : State) {m : Msg} {t : Nat} (h : m.dst = .agent t) : ∃ held, (s.take m).ship t = { s.ship t with held := held } := by
  unfold State.take State.unhold
  rw [h]
  split
  · exact ⟨(s.ship t).held, rfl⟩
  · exact ⟨_, by simp only [State.ship, State.modShip, State.setShip, Tbl.getD_set_self]; rfl⟩

theorem State.transit_booked (s : State) (off n : Nat) : s.booked (s.transit off n) := by
  unfold State.transit
  split
  · exact s.booked_refl
  · exact s.addWrap_booked _ _ _ _

theorem State.routerCount_booked (s : State) (p : Nat × Nat) (n k : Nat) : s.booked (s.routerCount p n k) :=
  ⟨s.regs, _, s.free, s.errlog, s.net, s.engHeld, s.tick, s.niDrops, s.retrain, s.slots, rfl⟩

theorem State.foldl_booked {α : Type} (f : State → α → State) (hf : ∀ (s : State) (a : α), s.booked (f s a)) : ∀ (l : List α) (s : State), s.booked (l.foldl f s)
  | [], s => s.booked_refl
  | a :: r, s => State.booked_trans (hf s a) (State.foldl_booked f hf r (f s a))

theorem State.record_booked (s : State) (cause cls parcel addr unit kind detail : Nat) :
    s.booked (s.record cause cls parcel addr unit kind detail) :=
  ⟨_, s.routers, s.free, _, s.net, s.engHeld, s.tick, s.niDrops, s.retrain, s.slots, rfl⟩

theorem State.countRoute_booked (s : State) (src route units : Nat) (fixed : Bool) : s.booked (s.countRoute src route units fixed) := by
  unfold State.countRoute
  split
  · exact s.booked_refl
  · split
    · exact s.booked_refl
    · have walk : ∀ (n : Nat) (l : List (Nat × Nat)) (k : Nat) (u : State), u.booked (l.foldl (fun s q => s.routerCount q n k) u) := fun n l k u =>
        State.foldl_booked _ (fun s q => s.routerCount_booked q n k) l u
      refine State.booked_trans ?_ (walk _ _ _ _)
      split
      · exact State.booked_trans (State.booked_trans (s.free_booked _) (walk _ _ _ _)) (State.routerCount_booked _ _ _ _)
      · exact State.booked_trans (s.free_booked _) (walk _ _ _ _)

theorem State.carry_booked {s u : State} {src dst units r : Nat} {bulk fixed : Bool} (h : s.carry src dst units bulk fixed = some (r, u)) :
    s.booked u := by
  unfold State.carry at h
  simp only [Option.map_eq_some_iff, Prod.mk.injEq] at h
  obtain ⟨_, _, _, made⟩ := h
  exact made ▸ s.countRoute_booked _ _ _ _

theorem State.noEntry_booked (s : State) (src : Nat) : s.booked (s.noEntry src) := by
  unfold State.noEntry State.niDrop
  split
  · exact s.transit_booked _ _
  · split
    · exact s.booked_refl
    · exact ⟨s.regs, s.routers, s.free, s.errlog, s.net, s.engHeld, s.tick, _, s.retrain, s.slots, rfl⟩

/-- A message injected joins the network, or is counted as one with no entry; nothing else of the machine changes. -/
theorem State.inject_booked (s : State) (m : Msg) : s.booked (s.inject m) := by
  unfold State.inject
  split
  · exact s.noEntry_booked _
  · rename_i r u eq
    exact State.booked_trans (State.carry_booked eq) (u.net_booked _ _)

/-- A message sent is injected, or waits at its source. -/
theorem State.send_booked (s : State) (m : Msg) : s.booked (s.send m) := by
  unfold State.send
  split
  · split
    · exact ⟨s.regs, s.routers, s.free, s.errlog, s.net, s.engHeld, s.tick, s.niDrops, _, s.slots, rfl⟩
    · exact s.inject_booked m
  · exact s.inject_booked m

theorem State.countPacket_booked (s : State) (src dst units : Nat) : s.booked (s.countPacket src dst units) := by
  unfold State.countPacket
  split
  · rename_i x eq
    exact State.carry_booked (r := x.1) (u := x.2) eq
  · exact s.noEntry_booked _

theorem State.burst_booked (s : State) (dpa n : Nat) (w : Bool) : s.booked (s.burst dpa n w) := by
  unfold State.burst
  dsimp only
  have h1 := State.booked_trans (s.pick_booked 2) ((s.pick 2).2.pick_booked ((dpa + n - 1) / 64 + 1 - dpa / 64 + 1))
  have h3 : ∀ c a d b : Nat, s.booked (((((s.pick 2).2.pick ((dpa + n - 1) / 64 + 1 - dpa / 64 + 1)).2.transit c a).transit d b)) := fun c a d b =>
    State.booked_trans (State.booked_trans h1 (State.transit_booked _ _ _)) (State.transit_booked _ _ _)
  split
  · split
    · exact h3 _ _ _ _
    · exact State.booked_trans (h3 _ _ _ _) (State.record_booked _ _ _ _ _ _ _ _)
  · split
    · exact s.booked_refl
    · exact State.booked_trans (h3 _ _ _ _) (State.transit_booked _ _ _)

/-- The read of an engine or of a walk changes counters and no more. -/
theorem State.countRead_booked (s : State) (ep dpa n : Nat) : s.booked (s.countRead ep dpa n) := by
  unfold State.countRead State.countEngine
  split
  · exact s.booked_refl
  · exact State.booked_trans (State.booked_trans (State.countPacket_booked _ _ _ _) (State.countPacket_booked _ _ _ _)) (State.burst_booked _ _ _ _)

theorem State.countWalk_booked (s : State) (ep : Nat) (c : Context) (ship : Option Nat) (pva : Nat) : s.booked (s.countWalk ep c ship pva) :=
  State.foldl_booked _ (fun s a => s.countRead_booked ep a 8) _ _

theorem State.granted_booked (s : State) (m : Msg) : s.booked (s.granted m) :=
  ⟨s.regs, s.routers, s.free, s.errlog, s.net, s.engHeld, s.tick, s.niDrops, s.retrain, _, rfl⟩

theorem State.grantMem_booked (s : State) (m : Msg) (g : LineState) (acks : Nat) (units : Bool) : s.booked (s.grantMem m g acks units) := by
  unfold State.grantMem
  dsimp only
  split
  · exact State.booked_trans (State.booked_trans (s.granted_booked m) (State.burst_booked _ _ _ _)) (State.send_booked _ _)
  · exact s.send_booked _

/-! ### The channel of an address, and whether it failed, do not depend on counters -/

theorem State.reg_setReg_ne (s : State) {off k : Nat} (v : W64) (h : k ≠ off) : (s.setReg off v).reg k = s.reg k := by
  simp only [State.reg, State.setReg]
  exact Tbl.getD_set_ne _ _ _ h

theorem State.channelOf_lt (s : State) (dpa : Nat) : s.channelOf dpa < 512 := by
  simp only [State.channelOf, fld]
  exact Nat.mod_lt _ (by decide)

theorem State.failedAt_transit (s : State) (c i n dpa : Nat) (hc : c < 512) (hi : i < 6) :
    (s.transit (Reg.memCnt c i) n).failedAt dpa = s.failedAt dpa ∧ (s.transit (Reg.memCnt c i) n).channelOf dpa = s.channelOf dpa := by
  have key : ∀ v, (s.setReg (Reg.memCnt c i) v).failedAt dpa = s.failedAt dpa ∧ (s.setReg (Reg.memCnt c i) v).channelOf dpa = s.channelOf dpa := by
    intro v
    have h1 : (s.setReg (Reg.memCnt c i) v).slotOf dpa = s.slotOf dpa := by
      simp only [State.slotOf, State.healthy, State.fieldOf]
      rw [State.reg_setReg_ne _ _ (by simp only [Reg.memCap, Reg.memCnt]; omega)]
    have h2 : (s.setReg (Reg.memCnt c i) v).channelOf dpa = s.channelOf dpa := by
      simp only [State.channelOf, h1]
      rw [show (s.setReg (Reg.memCnt c i) v).regs = s.regs.set (Reg.memCnt c i) v from rfl,
        Tbl.getD_set_ne _ _ _ (by simp only [cmapKey, Reg.memCnt]; omega)]
    refine ⟨?_, h2⟩
    simp only [State.failedAt, State.fieldOf, h2]
    rw [State.reg_setReg_ne _ _ (by simp only [Reg.memCh, Reg.memCnt]; omega)]
  unfold State.transit
  split
  · exact ⟨rfl, rfl⟩
  · exact key _

theorem State.failedAt_burst (s : State) (a dpa n : Nat) (w : Bool) (h : s.failedAt a = false) :
    (s.burst a n w).failedAt dpa = s.failedAt dpa := by
  have hc := s.channelOf_lt a
  unfold State.burst
  dsimp only
  have e1 : ∀ x y : Nat, (((s.pick 2).2.pick x).2).failedAt y = s.failedAt y := fun _ _ => rfl
  have e2 : ∀ x i k y : Nat, i < 6 → ((((s.pick 2).2.pick x).2).transit (Reg.memCnt (s.channelOf a) i) k).failedAt y = s.failedAt y :=
    fun x i k y hi => ((State.failedAt_transit _ _ i k y hc hi).1).trans (e1 x y)
  have e3 : ∀ x i k j m y : Nat, i < 6 → j < 6 →
      (((((s.pick 2).2.pick x).2).transit (Reg.memCnt (s.channelOf a) i) k).transit (Reg.memCnt (s.channelOf a) j) m).failedAt y = s.failedAt y :=
    fun x i k j m y hi hj => ((State.failedAt_transit _ _ j m y hc hj).1).trans (e2 x i k y hi)
  rw [h]
  simp only [Bool.false_eq_true, if_false]
  have hb : b2n w < 6 := by cases w <;> decide
  split
  · rfl
  · exact ((State.failedAt_transit _ _ _ _ dpa hc hb).1).trans (e3 _ _ _ _ _ dpa (by decide) (by decide))

theorem State.booked_mem {s t : State} (h : s.booked t) : t.mem = s.mem := by obtain ⟨_, _, _, _, _, _, _, _, _, _, rfl⟩ := h; rfl
theorem State.booked_spm {s t : State} (h : s.booked t) : t.spm = s.spm := by obtain ⟨_, _, _, _, _, _, _, _, _, _, rfl⟩ := h; rfl
theorem State.booked_ships {s t : State} (h : s.booked t) : t.ships = s.ships := by obtain ⟨_, _, _, _, _, _, _, _, _, _, rfl⟩ := h; rfl
theorem State.booked_threads {s t : State} (h : s.booked t) : t.threads = s.threads := by obtain ⟨_, _, _, _, _, _, _, _, _, _, rfl⟩ := h; rfl
theorem State.booked_dir {s t : State} (h : s.booked t) : t.dir = s.dir := by obtain ⟨_, _, _, _, _, _, _, _, _, _, rfl⟩ := h; rfl
theorem State.booked_accs {s t : State} (h : s.booked t) : t.accs = s.accs := by obtain ⟨_, _, _, _, _, _, _, _, _, _, rfl⟩ := h; rfl
theorem State.booked_pending {s t : State} (h : s.booked t) : t.pending = s.pending := by obtain ⟨_, _, _, _, _, _, _, _, _, _, rfl⟩ := h; rfl
theorem State.booked_poison {s t : State} (h : s.booked t) : t.poison = s.poison := by obtain ⟨_, _, _, _, _, _, _, _, _, _, rfl⟩ := h; rfl

/-- The answer of a home to a master is a message or none. -/
theorem State.answerMaster_booked (s : State) (m : Msg) : s.booked (s.answerMaster m) := by
  unfold State.answerMaster
  split
  · split
    · exact s.booked_refl
    · exact State.send_booked _ _
  · exact State.send_booked _ _

/-- Keeping a line's old value for later fetches changes neither memory nor which channels have failed. -/
theorem State.note_mem (s : State) (l : Nat) : (s.note l).mem = s.mem := by unfold State.note; split <;> rfl
theorem State.note_failedAt (s : State) (l a : Nat) : (s.note l).failedAt a = s.failedAt a := by unfold State.note; split <;> rfl

end Sys2Proof.Machine
end

