-- ==== Sys2Proof/Laws/State.lean ====
section
/-! SUPPORT. Every named update of the state, field by field: what it writes, and that it leaves every other field as it was. -/

namespace Sys2Proof.Machine

variable (s : State)

/-! ### emit -/

@[simp] theorem State.emit_pending (o : Out) : (s.emit o).pending = s.pending := rfl
@[simp] theorem State.emit_regs (o : Out) : (s.emit o).regs = s.regs := rfl
@[simp] theorem State.emit_shadow (o : Out) : (s.emit o).shadow = s.shadow := rfl
@[simp] theorem State.emit_commits (o : Out) : (s.emit o).commits = s.commits := rfl
@[simp] theorem State.emit_mem (o : Out) : (s.emit o).mem = s.mem := rfl
@[simp] theorem State.emit_spm (o : Out) : (s.emit o).spm = s.spm := rfl
@[simp] theorem State.emit_threads (o : Out) : (s.emit o).threads = s.threads := rfl
@[simp] theorem State.emit_cores (o : Out) : (s.emit o).cores = s.cores := rfl
@[simp] theorem State.emit_launches (o : Out) : (s.emit o).launches = s.launches := rfl
@[simp] theorem State.emit_sections (o : Out) : (s.emit o).sections = s.sections := rfl
@[simp] theorem State.emit_ships (o : Out) : (s.emit o).ships = s.ships := rfl
@[simp] theorem State.emit_dir (o : Out) : (s.emit o).dir = s.dir := rfl
@[simp] theorem State.emit_waitq (o : Out) : (s.emit o).waitq = s.waitq := rfl
@[simp] theorem State.emit_slots (o : Out) : (s.emit o).slots = s.slots := rfl
@[simp] theorem State.emit_net (o : Out) : (s.emit o).net = s.net := rfl
@[simp] theorem State.emit_toks (o : Out) : (s.emit o).toks = s.toks := rfl
@[simp] theorem State.emit_routers (o : Out) : (s.emit o).routers = s.routers := rfl
@[simp] theorem State.emit_tables (o : Out) : (s.emit o).tables = s.tables := rfl
@[simp] theorem State.emit_engSleep (o : Out) : (s.emit o).engSleep = s.engSleep := rfl
@[simp] theorem State.emit_engHeld (o : Out) : (s.emit o).engHeld = s.engHeld := rfl
@[simp] theorem State.emit_code (o : Out) : (s.emit o).code = s.code := rfl
@[simp] theorem State.emit_stale (o : Out) : (s.emit o).stale = s.stale := rfl
@[simp] theorem State.emit_accs (o : Out) : (s.emit o).accs = s.accs := rfl
@[simp] theorem State.emit_queues (o : Out) : (s.emit o).queues = s.queues := rfl
@[simp] theorem State.emit_groups (o : Out) : (s.emit o).groups = s.groups := rfl
@[simp] theorem State.emit_ctxs (o : Out) : (s.emit o).ctxs = s.ctxs := rfl
@[simp] theorem State.emit_gens (o : Out) : (s.emit o).gens = s.gens := rfl
@[simp] theorem State.emit_objs (o : Out) : (s.emit o).objs = s.objs := rfl
@[simp] theorem State.emit_fences (o : Out) : (s.emit o).fences = s.fences := rfl
@[simp] theorem State.emit_seqs (o : Out) : (s.emit o).seqs = s.seqs := rfl
@[simp] theorem State.emit_cad (o : Out) : (s.emit o).cad = s.cad := rfl
@[simp] theorem State.emit_batches (o : Out) : (s.emit o).batches = s.batches := rfl
@[simp] theorem State.emit_orders (o : Out) : (s.emit o).orders = s.orders := rfl
@[simp] theorem State.emit_freeing (o : Out) : (s.emit o).freeing = s.freeing := rfl
@[simp] theorem State.emit_parcels (o : Out) : (s.emit o).parcels = s.parcels := rfl
@[simp] theorem State.emit_eases (o : Out) : (s.emit o).eases = s.eases := rfl
@[simp] theorem State.emit_fnEvents (o : Out) : (s.emit o).fnEvents = s.fnEvents := rfl
@[simp] theorem State.emit_fns (o : Out) : (s.emit o).fns = s.fns := rfl
@[simp] theorem State.emit_sites (o : Out) : (s.emit o).sites = s.sites := rfl
@[simp] theorem State.emit_siteCfgs (o : Out) : (s.emit o).siteCfgs = s.siteCfgs := rfl
@[simp] theorem State.emit_poison (o : Out) : (s.emit o).poison = s.poison := rfl
@[simp] theorem State.emit_badBursts (o : Out) : (s.emit o).badBursts = s.badBursts := rfl
@[simp] theorem State.emit_errlog (o : Out) : (s.emit o).errlog = s.errlog := rfl
@[simp] theorem State.emit_starts (o : Out) : (s.emit o).starts = s.starts := rfl
@[simp] theorem State.emit_traceSeq (o : Out) : (s.emit o).traceSeq = s.traceSeq := rfl
@[simp] theorem State.emit_keys (o : Out) : (s.emit o).keys = s.keys := rfl
@[simp] theorem State.emit_fuses (o : Out) : (s.emit o).fuses = s.fuses := rfl
@[simp] theorem State.emit_attest (o : Out) : (s.emit o).attest = s.attest := rfl
@[simp] theorem State.emit_lastSig (o : Out) : (s.emit o).lastSig = s.lastSig := rfl
@[simp] theorem State.emit_spdm (o : Out) : (s.emit o).spdm = s.spdm := rfl
@[simp] theorem State.emit_leave (o : Out) : (s.emit o).leave = s.leave := rfl
@[simp] theorem State.emit_ide (o : Out) : (s.emit o).ide = s.ide := rfl
@[simp] theorem State.emit_doe (o : Out) : (s.emit o).doe = s.doe := rfl
@[simp] theorem State.emit_atc (o : Out) : (s.emit o).atc = s.atc := rfl
@[simp] theorem State.emit_hostOut (o : Out) : (s.emit o).hostOut = s.hostOut := rfl
@[simp] theorem State.emit_hostWait (o : Out) : (s.emit o).hostWait = s.hostWait := rfl
@[simp] theorem State.emit_invals (o : Out) : (s.emit o).invals = s.invals := rfl
@[simp] theorem State.emit_recNow (o : Out) : (s.emit o).recNow = s.recNow := rfl
@[simp] theorem State.emit_recA (o : Out) : (s.emit o).recA = s.recA := rfl
@[simp] theorem State.emit_recB (o : Out) : (s.emit o).recB = s.recB := rfl
@[simp] theorem State.emit_recDue (o : Out) : (s.emit o).recDue = s.recDue := rfl
@[simp] theorem State.emit_units (o : Out) : (s.emit o).units = s.units := rfl
@[simp] theorem State.emit_flash (o : Out) : (s.emit o).flash = s.flash := rfl
@[simp] theorem State.emit_meas (o : Out) : (s.emit o).meas = s.meas := rfl
@[simp] theorem State.emit_certs (o : Out) : (s.emit o).certs = s.certs := rfl
@[simp] theorem State.emit_boot (o : Out) : (s.emit o).boot = s.boot := rfl
@[simp] theorem State.emit_vin48 (o : Out) : (s.emit o).vin48 = s.vin48 := rfl
@[simp] theorem State.emit_degraded (o : Out) : (s.emit o).degraded = s.degraded := rfl
@[simp] theorem State.emit_power (o : Out) : (s.emit o).power = s.power := rfl
@[simp] theorem State.emit_fwu (o : Out) : (s.emit o).fwu = s.fwu := rfl
@[simp] theorem State.emit_niDrops (o : Out) : (s.emit o).niDrops = s.niDrops := rfl
@[simp] theorem State.emit_hostHeld (o : Out) : (s.emit o).hostHeld = s.hostHeld := rfl
@[simp] theorem State.emit_retrain (o : Out) : (s.emit o).retrain = s.retrain := rfl
@[simp] theorem State.emit_pcieHeld (o : Out) : (s.emit o).pcieHeld = s.pcieHeld := rfl
@[simp] theorem State.emit_out (o : Out) : (s.emit o).out = o :: s.out := rfl
@[simp] theorem State.emit_free (o : Out) : (s.emit o).free = s.free := rfl
@[simp] theorem State.emit_tick (o : Out) : (s.emit o).tick = s.tick := rfl

/-! ### setReg -/

@[simp] theorem State.setReg_pending (off : Nat) (v : W64) : (s.setReg off v).pending = s.pending := rfl
@[simp] theorem State.setReg_regs (off : Nat) (v : W64) : (s.setReg off v).regs = s.regs.set off v := rfl
@[simp] theorem State.setReg_shadow (off : Nat) (v : W64) : (s.setReg off v).shadow = s.shadow := rfl
@[simp] theorem State.setReg_commits (off : Nat) (v : W64) : (s.setReg off v).commits = s.commits := rfl
@[simp] theorem State.setReg_mem (off : Nat) (v : W64) : (s.setReg off v).mem = s.mem := rfl
@[simp] theorem State.setReg_spm (off : Nat) (v : W64) : (s.setReg off v).spm = s.spm := rfl
@[simp] theorem State.setReg_threads (off : Nat) (v : W64) : (s.setReg off v).threads = s.threads := rfl
@[simp] theorem State.setReg_cores (off : Nat) (v : W64) : (s.setReg off v).cores = s.cores := rfl
@[simp] theorem State.setReg_launches (off : Nat) (v : W64) : (s.setReg off v).launches = s.launches := rfl
@[simp] theorem State.setReg_sections (off : Nat) (v : W64) : (s.setReg off v).sections = s.sections := rfl
@[simp] theorem State.setReg_ships (off : Nat) (v : W64) : (s.setReg off v).ships = s.ships := rfl
@[simp] theorem State.setReg_dir (off : Nat) (v : W64) : (s.setReg off v).dir = s.dir := rfl
@[simp] theorem State.setReg_waitq (off : Nat) (v : W64) : (s.setReg off v).waitq = s.waitq := rfl
@[simp] theorem State.setReg_slots (off : Nat) (v : W64) : (s.setReg off v).slots = s.slots := rfl
@[simp] theorem State.setReg_net (off : Nat) (v : W64) : (s.setReg off v).net = s.net := rfl
@[simp] theorem State.setReg_toks (off : Nat) (v : W64) : (s.setReg off v).toks = s.toks := rfl
@[simp] theorem State.setReg_routers (off : Nat) (v : W64) : (s.setReg off v).routers = s.routers := rfl
@[simp] theorem State.setReg_tables (off : Nat) (v : W64) : (s.setReg off v).tables = s.tables := rfl
@[simp] theorem State.setReg_engSleep (off : Nat) (v : W64) : (s.setReg off v).engSleep = s.engSleep := rfl
@[simp] theorem State.setReg_engHeld (off : Nat) (v : W64) : (s.setReg off v).engHeld = s.engHeld := rfl
@[simp] theorem State.setReg_code (off : Nat) (v : W64) : (s.setReg off v).code = s.code := rfl
@[simp] theorem State.setReg_stale (off : Nat) (v : W64) : (s.setReg off v).stale = s.stale := rfl
@[simp] theorem State.setReg_accs (off : Nat) (v : W64) : (s.setReg off v).accs = s.accs := rfl
@[simp] theorem State.setReg_queues (off : Nat) (v : W64) : (s.setReg off v).queues = s.queues := rfl
@[simp] theorem State.setReg_groups (off : Nat) (v : W64) : (s.setReg off v).groups = s.groups := rfl
@[simp] theorem State.setReg_ctxs (off : Nat) (v : W64) : (s.setReg off v).ctxs = s.ctxs := rfl
@[simp] theorem State.setReg_gens (off : Nat) (v : W64) : (s.setReg off v).gens = s.gens := rfl
@[simp] theorem State.setReg_objs (off : Nat) (v : W64) : (s.setReg off v).objs = s.objs := rfl
@[simp] theorem State.setReg_fences (off : Nat) (v : W64) : (s.setReg off v).fences = s.fences := rfl
@[simp] theorem State.setReg_seqs (off : Nat) (v : W64) : (s.setReg off v).seqs = s.seqs := rfl
@[simp] theorem State.setReg_cad (off : Nat) (v : W64) : (s.setReg off v).cad = s.cad := rfl
@[simp] theorem State.setReg_batches (off : Nat) (v : W64) : (s.setReg off v).batches = s.batches := rfl
@[simp] theorem State.setReg_orders (off : Nat) (v : W64) : (s.setReg off v).orders = s.orders := rfl
@[simp] theorem State.setReg_freeing (off : Nat) (v : W64) : (s.setReg off v).freeing = s.freeing := rfl
@[simp] theorem State.setReg_parcels (off : Nat) (v : W64) : (s.setReg off v).parcels = s.parcels := rfl
@[simp] theorem State.setReg_eases (off : Nat) (v : W64) : (s.setReg off v).eases = s.eases := rfl
@[simp] theorem State.setReg_fnEvents (off : Nat) (v : W64) : (s.setReg off v).fnEvents = s.fnEvents := rfl
@[simp] theorem State.setReg_fns (off : Nat) (v : W64) : (s.setReg off v).fns = s.fns := rfl
@[simp] theorem State.setReg_sites (off : Nat) (v : W64) : (s.setReg off v).sites = s.sites := rfl
@[simp] theorem State.setReg_siteCfgs (off : Nat) (v : W64) : (s.setReg off v).siteCfgs = s.siteCfgs := rfl
@[simp] theorem State.setReg_poison (off : Nat) (v : W64) : (s.setReg off v).poison = s.poison := rfl
@[simp] theorem State.setReg_badBursts (off : Nat) (v : W64) : (s.setReg off v).badBursts = s.badBursts := rfl
@[simp] theorem State.setReg_errlog (off : Nat) (v : W64) : (s.setReg off v).errlog = s.errlog := rfl
@[simp] theorem State.setReg_starts (off : Nat) (v : W64) : (s.setReg off v).starts = s.starts := rfl
@[simp] theorem State.setReg_traceSeq (off : Nat) (v : W64) : (s.setReg off v).traceSeq = s.traceSeq := rfl
@[simp] theorem State.setReg_keys (off : Nat) (v : W64) : (s.setReg off v).keys = s.keys := rfl
@[simp] theorem State.setReg_fuses (off : Nat) (v : W64) : (s.setReg off v).fuses = s.fuses := rfl
@[simp] theorem State.setReg_attest (off : Nat) (v : W64) : (s.setReg off v).attest = s.attest := rfl
@[simp] theorem State.setReg_lastSig (off : Nat) (v : W64) : (s.setReg off v).lastSig = s.lastSig := rfl
@[simp] theorem State.setReg_spdm (off : Nat) (v : W64) : (s.setReg off v).spdm = s.spdm := rfl
@[simp] theorem State.setReg_leave (off : Nat) (v : W64) : (s.setReg off v).leave = s.leave := rfl
@[simp] theorem State.setReg_ide (off : Nat) (v : W64) : (s.setReg off v).ide = s.ide := rfl
@[simp] theorem State.setReg_doe (off : Nat) (v : W64) : (s.setReg off v).doe = s.doe := rfl
@[simp] theorem State.setReg_atc (off : Nat) (v : W64) : (s.setReg off v).atc = s.atc := rfl
@[simp] theorem State.setReg_hostOut (off : Nat) (v : W64) : (s.setReg off v).hostOut = s.hostOut := rfl
@[simp] theorem State.setReg_hostWait (off : Nat) (v : W64) : (s.setReg off v).hostWait = s.hostWait := rfl
@[simp] theorem State.setReg_invals (off : Nat) (v : W64) : (s.setReg off v).invals = s.invals := rfl
@[simp] theorem State.setReg_recNow (off : Nat) (v : W64) : (s.setReg off v).recNow = s.recNow := rfl
@[simp] theorem State.setReg_recA (off : Nat) (v : W64) : (s.setReg off v).recA = s.recA := rfl
@[simp] theorem State.setReg_recB (off : Nat) (v : W64) : (s.setReg off v).recB = s.recB := rfl
@[simp] theorem State.setReg_recDue (off : Nat) (v : W64) : (s.setReg off v).recDue = s.recDue := rfl
@[simp] theorem State.setReg_units (off : Nat) (v : W64) : (s.setReg off v).units = s.units := rfl
@[simp] theorem State.setReg_flash (off : Nat) (v : W64) : (s.setReg off v).flash = s.flash := rfl
@[simp] theorem State.setReg_meas (off : Nat) (v : W64) : (s.setReg off v).meas = s.meas := rfl
@[simp] theorem State.setReg_certs (off : Nat) (v : W64) : (s.setReg off v).certs = s.certs := rfl
@[simp] theorem State.setReg_boot (off : Nat) (v : W64) : (s.setReg off v).boot = s.boot := rfl
@[simp] theorem State.setReg_vin48 (off : Nat) (v : W64) : (s.setReg off v).vin48 = s.vin48 := rfl
@[simp] theorem State.setReg_degraded (off : Nat) (v : W64) : (s.setReg off v).degraded = s.degraded := rfl
@[simp] theorem State.setReg_power (off : Nat) (v : W64) : (s.setReg off v).power = s.power := rfl
@[simp] theorem State.setReg_fwu (off : Nat) (v : W64) : (s.setReg off v).fwu = s.fwu := rfl
@[simp] theorem State.setReg_niDrops (off : Nat) (v : W64) : (s.setReg off v).niDrops = s.niDrops := rfl
@[simp] theorem State.setReg_hostHeld (off : Nat) (v : W64) : (s.setReg off v).hostHeld = s.hostHeld := rfl
@[simp] theorem State.setReg_retrain (off : Nat) (v : W64) : (s.setReg off v).retrain = s.retrain := rfl
@[simp] theorem State.setReg_pcieHeld (off : Nat) (v : W64) : (s.setReg off v).pcieHeld = s.pcieHeld := rfl
@[simp] theorem State.setReg_out (off : Nat) (v : W64) : (s.setReg off v).out = s.out := rfl
@[simp] theorem State.setReg_free (off : Nat) (v : W64) : (s.setReg off v).free = s.free := rfl
@[simp] theorem State.setReg_tick (off : Nat) (v : W64) : (s.setReg off v).tick = s.tick := rfl

/-! ### setShip -/

@[simp] theorem State.setShip_pending (t : Nat) (x : Township) : (s.setShip t x).pending = s.pending := rfl
@[simp] theorem State.setShip_regs (t : Nat) (x : Township) : (s.setShip t x).regs = s.regs := rfl
@[simp] theorem State.setShip_shadow (t : Nat) (x : Township) : (s.setShip t x).shadow = s.shadow := rfl
@[simp] theorem State.setShip_commits (t : Nat) (x : Township) : (s.setShip t x).commits = s.commits := rfl
@[simp] theorem State.setShip_mem (t : Nat) (x : Township) : (s.setShip t x).mem = s.mem := rfl
@[simp] theorem State.setShip_spm (t : Nat) (x : Township) : (s.setShip t x).spm = s.spm := rfl
@[simp] theorem State.setShip_threads (t : Nat) (x : Township) : (s.setShip t x).threads = s.threads := rfl
@[simp] theorem State.setShip_cores (t : Nat) (x : Township) : (s.setShip t x).cores = s.cores := rfl
@[simp] theorem State.setShip_launches (t : Nat) (x : Township) : (s.setShip t x).launches = s.launches := rfl
@[simp] theorem State.setShip_sections (t : Nat) (x : Township) : (s.setShip t x).sections = s.sections := rfl
@[simp] theorem State.setShip_ships (t : Nat) (x : Township) : (s.setShip t x).ships = s.ships.set t x := rfl
@[simp] theorem State.setShip_dir (t : Nat) (x : Township) : (s.setShip t x).dir = s.dir := rfl
@[simp] theorem State.setShip_waitq (t : Nat) (x : Township) : (s.setShip t x).waitq = s.waitq := rfl
@[simp] theorem State.setShip_slots (t : Nat) (x : Township) : (s.setShip t x).slots = s.slots := rfl
@[simp] theorem State.setShip_net (t : Nat) (x : Township) : (s.setShip t x).net = s.net := rfl
@[simp] theorem State.setShip_toks (t : Nat) (x : Township) : (s.setShip t x).toks = s.toks := rfl
@[simp] theorem State.setShip_routers (t : Nat) (x : Township) : (s.setShip t x).routers = s.routers := rfl
@[simp] theorem State.setShip_tables (t : Nat) (x : Township) : (s.setShip t x).tables = s.tables := rfl
@[simp] theorem State.setShip_engSleep (t : Nat) (x : Township) : (s.setShip t x).engSleep = s.engSleep := rfl
@[simp] theorem State.setShip_engHeld (t : Nat) (x : Township) : (s.setShip t x).engHeld = s.engHeld := rfl
@[simp] theorem State.setShip_code (t : Nat) (x : Township) : (s.setShip t x).code = s.code := rfl
@[simp] theorem State.setShip_stale (t : Nat) (x : Township) : (s.setShip t x).stale = s.stale := rfl
@[simp] theorem State.setShip_accs (t : Nat) (x : Township) : (s.setShip t x).accs = s.accs := rfl
@[simp] theorem State.setShip_queues (t : Nat) (x : Township) : (s.setShip t x).queues = s.queues := rfl
@[simp] theorem State.setShip_groups (t : Nat) (x : Township) : (s.setShip t x).groups = s.groups := rfl
@[simp] theorem State.setShip_ctxs (t : Nat) (x : Township) : (s.setShip t x).ctxs = s.ctxs := rfl
@[simp] theorem State.setShip_gens (t : Nat) (x : Township) : (s.setShip t x).gens = s.gens := rfl
@[simp] theorem State.setShip_objs (t : Nat) (x : Township) : (s.setShip t x).objs = s.objs := rfl
@[simp] theorem State.setShip_fences (t : Nat) (x : Township) : (s.setShip t x).fences = s.fences := rfl
@[simp] theorem State.setShip_seqs (t : Nat) (x : Township) : (s.setShip t x).seqs = s.seqs := rfl
@[simp] theorem State.setShip_cad (t : Nat) (x : Township) : (s.setShip t x).cad = s.cad := rfl
@[simp] theorem State.setShip_batches (t : Nat) (x : Township) : (s.setShip t x).batches = s.batches := rfl
@[simp] theorem State.setShip_orders (t : Nat) (x : Township) : (s.setShip t x).orders = s.orders := rfl
@[simp] theorem State.setShip_freeing (t : Nat) (x : Township) : (s.setShip t x).freeing = s.freeing := rfl
@[simp] theorem State.setShip_parcels (t : Nat) (x : Township) : (s.setShip t x).parcels = s.parcels := rfl
@[simp] theorem State.setShip_eases (t : Nat) (x : Township) : (s.setShip t x).eases = s.eases := rfl
@[simp] theorem State.setShip_fnEvents (t : Nat) (x : Township) : (s.setShip t x).fnEvents = s.fnEvents := rfl
@[simp] theorem State.setShip_fns (t : Nat) (x : Township) : (s.setShip t x).fns = s.fns := rfl
@[simp] theorem State.setShip_sites (t : Nat) (x : Township) : (s.setShip t x).sites = s.sites := rfl
@[simp] theorem State.setShip_siteCfgs (t : Nat) (x : Township) : (s.setShip t x).siteCfgs = s.siteCfgs := rfl
@[simp] theorem State.setShip_poison (t : Nat) (x : Township) : (s.setShip t x).poison = s.poison := rfl
@[simp] theorem State.setShip_badBursts (t : Nat) (x : Township) : (s.setShip t x).badBursts = s.badBursts := rfl
@[simp] theorem State.setShip_errlog (t : Nat) (x : Township) : (s.setShip t x).errlog = s.errlog := rfl
@[simp] theorem State.setShip_starts (t : Nat) (x : Township) : (s.setShip t x).starts = s.starts := rfl
@[simp] theorem State.setShip_traceSeq (t : Nat) (x : Township) : (s.setShip t x).traceSeq = s.traceSeq := rfl
@[simp] theorem State.setShip_keys (t : Nat) (x : Township) : (s.setShip t x).keys = s.keys := rfl
@[simp] theorem State.setShip_fuses (t : Nat) (x : Township) : (s.setShip t x).fuses = s.fuses := rfl
@[simp] theorem State.setShip_attest (t : Nat) (x : Township) : (s.setShip t x).attest = s.attest := rfl
@[simp] theorem State.setShip_lastSig (t : Nat) (x : Township) : (s.setShip t x).lastSig = s.lastSig := rfl
@[simp] theorem State.setShip_spdm (t : Nat) (x : Township) : (s.setShip t x).spdm = s.spdm := rfl
@[simp] theorem State.setShip_leave (t : Nat) (x : Township) : (s.setShip t x).leave = s.leave := rfl
@[simp] theorem State.setShip_ide (t : Nat) (x : Township) : (s.setShip t x).ide = s.ide := rfl
@[simp] theorem State.setShip_doe (t : Nat) (x : Township) : (s.setShip t x).doe = s.doe := rfl
@[simp] theorem State.setShip_atc (t : Nat) (x : Township) : (s.setShip t x).atc = s.atc := rfl
@[simp] theorem State.setShip_hostOut (t : Nat) (x : Township) : (s.setShip t x).hostOut = s.hostOut := rfl
@[simp] theorem State.setShip_hostWait (t : Nat) (x : Township) : (s.setShip t x).hostWait = s.hostWait := rfl
@[simp] theorem State.setShip_invals (t : Nat) (x : Township) : (s.setShip t x).invals = s.invals := rfl
@[simp] theorem State.setShip_recNow (t : Nat) (x : Township) : (s.setShip t x).recNow = s.recNow := rfl
@[simp] theorem State.setShip_recA (t : Nat) (x : Township) : (s.setShip t x).recA = s.recA := rfl
@[simp] theorem State.setShip_recB (t : Nat) (x : Township) : (s.setShip t x).recB = s.recB := rfl
@[simp] theorem State.setShip_recDue (t : Nat) (x : Township) : (s.setShip t x).recDue = s.recDue := rfl
@[simp] theorem State.setShip_units (t : Nat) (x : Township) : (s.setShip t x).units = s.units := rfl
@[simp] theorem State.setShip_flash (t : Nat) (x : Township) : (s.setShip t x).flash = s.flash := rfl
@[simp] theorem State.setShip_meas (t : Nat) (x : Township) : (s.setShip t x).meas = s.meas := rfl
@[simp] theorem State.setShip_certs (t : Nat) (x : Township) : (s.setShip t x).certs = s.certs := rfl
@[simp] theorem State.setShip_boot (t : Nat) (x : Township) : (s.setShip t x).boot = s.boot := rfl
@[simp] theorem State.setShip_vin48 (t : Nat) (x : Township) : (s.setShip t x).vin48 = s.vin48 := rfl
@[simp] theorem State.setShip_degraded (t : Nat) (x : Township) : (s.setShip t x).degraded = s.degraded := rfl
@[simp] theorem State.setShip_power (t : Nat) (x : Township) : (s.setShip t x).power = s.power := rfl
@[simp] theorem State.setShip_fwu (t : Nat) (x : Township) : (s.setShip t x).fwu = s.fwu := rfl
@[simp] theorem State.setShip_niDrops (t : Nat) (x : Township) : (s.setShip t x).niDrops = s.niDrops := rfl
@[simp] theorem State.setShip_hostHeld (t : Nat) (x : Township) : (s.setShip t x).hostHeld = s.hostHeld := rfl
@[simp] theorem State.setShip_retrain (t : Nat) (x : Township) : (s.setShip t x).retrain = s.retrain := rfl
@[simp] theorem State.setShip_pcieHeld (t : Nat) (x : Township) : (s.setShip t x).pcieHeld = s.pcieHeld := rfl
@[simp] theorem State.setShip_out (t : Nat) (x : Township) : (s.setShip t x).out = s.out := rfl
@[simp] theorem State.setShip_free (t : Nat) (x : Township) : (s.setShip t x).free = s.free := rfl
@[simp] theorem State.setShip_tick (t : Nat) (x : Township) : (s.setShip t x).tick = s.tick := rfl

/-! ### setSect -/

@[simp] theorem State.setSect_pending (k : Nat) (x : SectionSt) : (s.setSect k x).pending = s.pending := rfl
@[simp] theorem State.setSect_regs (k : Nat) (x : SectionSt) : (s.setSect k x).regs = s.regs := rfl
@[simp] theorem State.setSect_shadow (k : Nat) (x : SectionSt) : (s.setSect k x).shadow = s.shadow := rfl
@[simp] theorem State.setSect_commits (k : Nat) (x : SectionSt) : (s.setSect k x).commits = s.commits := rfl
@[simp] theorem State.setSect_mem (k : Nat) (x : SectionSt) : (s.setSect k x).mem = s.mem := rfl
@[simp] theorem State.setSect_spm (k : Nat) (x : SectionSt) : (s.setSect k x).spm = s.spm := rfl
@[simp] theorem State.setSect_threads (k : Nat) (x : SectionSt) : (s.setSect k x).threads = s.threads := rfl
@[simp] theorem State.setSect_cores (k : Nat) (x : SectionSt) : (s.setSect k x).cores = s.cores := rfl
@[simp] theorem State.setSect_launches (k : Nat) (x : SectionSt) : (s.setSect k x).launches = s.launches := rfl
@[simp] theorem State.setSect_sections (k : Nat) (x : SectionSt) : (s.setSect k x).sections = s.sections.set k x := rfl
@[simp] theorem State.setSect_ships (k : Nat) (x : SectionSt) : (s.setSect k x).ships = s.ships := rfl
@[simp] theorem State.setSect_dir (k : Nat) (x : SectionSt) : (s.setSect k x).dir = s.dir := rfl
@[simp] theorem State.setSect_waitq (k : Nat) (x : SectionSt) : (s.setSect k x).waitq = s.waitq := rfl
@[simp] theorem State.setSect_slots (k : Nat) (x : SectionSt) : (s.setSect k x).slots = s.slots := rfl
@[simp] theorem State.setSect_net (k : Nat) (x : SectionSt) : (s.setSect k x).net = s.net := rfl
@[simp] theorem State.setSect_toks (k : Nat) (x : SectionSt) : (s.setSect k x).toks = s.toks := rfl
@[simp] theorem State.setSect_routers (k : Nat) (x : SectionSt) : (s.setSect k x).routers = s.routers := rfl
@[simp] theorem State.setSect_tables (k : Nat) (x : SectionSt) : (s.setSect k x).tables = s.tables := rfl
@[simp] theorem State.setSect_engSleep (k : Nat) (x : SectionSt) : (s.setSect k x).engSleep = s.engSleep := rfl
@[simp] theorem State.setSect_engHeld (k : Nat) (x : SectionSt) : (s.setSect k x).engHeld = s.engHeld := rfl
@[simp] theorem State.setSect_code (k : Nat) (x : SectionSt) : (s.setSect k x).code = s.code := rfl
@[simp] theorem State.setSect_stale (k : Nat) (x : SectionSt) : (s.setSect k x).stale = s.stale := rfl
@[simp] theorem State.setSect_accs (k : Nat) (x : SectionSt) : (s.setSect k x).accs = s.accs := rfl
@[simp] theorem State.setSect_queues (k : Nat) (x : SectionSt) : (s.setSect k x).queues = s.queues := rfl
@[simp] theorem State.setSect_groups (k : Nat) (x : SectionSt) : (s.setSect k x).groups = s.groups := rfl
@[simp] theorem State.setSect_ctxs (k : Nat) (x : SectionSt) : (s.setSect k x).ctxs = s.ctxs := rfl
@[simp] theorem State.setSect_gens (k : Nat) (x : SectionSt) : (s.setSect k x).gens = s.gens := rfl
@[simp] theorem State.setSect_objs (k : Nat) (x : SectionSt) : (s.setSect k x).objs = s.objs := rfl
@[simp] theorem State.setSect_fences (k : Nat) (x : SectionSt) : (s.setSect k x).fences = s.fences := rfl
@[simp] theorem State.setSect_seqs (k : Nat) (x : SectionSt) : (s.setSect k x).seqs = s.seqs := rfl
@[simp] theorem State.setSect_cad (k : Nat) (x : SectionSt) : (s.setSect k x).cad = s.cad := rfl
@[simp] theorem State.setSect_batches (k : Nat) (x : SectionSt) : (s.setSect k x).batches = s.batches := rfl
@[simp] theorem State.setSect_orders (k : Nat) (x : SectionSt) : (s.setSect k x).orders = s.orders := rfl
@[simp] theorem State.setSect_freeing (k : Nat) (x : SectionSt) : (s.setSect k x).freeing = s.freeing := rfl
@[simp] theorem State.setSect_parcels (k : Nat) (x : SectionSt) : (s.setSect k x).parcels = s.parcels := rfl
@[simp] theorem State.setSect_eases (k : Nat) (x : SectionSt) : (s.setSect k x).eases = s.eases := rfl
@[simp] theorem State.setSect_fnEvents (k : Nat) (x : SectionSt) : (s.setSect k x).fnEvents = s.fnEvents := rfl
@[simp] theorem State.setSect_fns (k : Nat) (x : SectionSt) : (s.setSect k x).fns = s.fns := rfl
@[simp] theorem State.setSect_sites (k : Nat) (x : SectionSt) : (s.setSect k x).sites = s.sites := rfl
@[simp] theorem State.setSect_siteCfgs (k : Nat) (x : SectionSt) : (s.setSect k x).siteCfgs = s.siteCfgs := rfl
@[simp] theorem State.setSect_poison (k : Nat) (x : SectionSt) : (s.setSect k x).poison = s.poison := rfl
@[simp] theorem State.setSect_badBursts (k : Nat) (x : SectionSt) : (s.setSect k x).badBursts = s.badBursts := rfl
@[simp] theorem State.setSect_errlog (k : Nat) (x : SectionSt) : (s.setSect k x).errlog = s.errlog := rfl
@[simp] theorem State.setSect_starts (k : Nat) (x : SectionSt) : (s.setSect k x).starts = s.starts := rfl
@[simp] theorem State.setSect_traceSeq (k : Nat) (x : SectionSt) : (s.setSect k x).traceSeq = s.traceSeq := rfl
@[simp] theorem State.setSect_keys (k : Nat) (x : SectionSt) : (s.setSect k x).keys = s.keys := rfl
@[simp] theorem State.setSect_fuses (k : Nat) (x : SectionSt) : (s.setSect k x).fuses = s.fuses := rfl
@[simp] theorem State.setSect_attest (k : Nat) (x : SectionSt) : (s.setSect k x).attest = s.attest := rfl
@[simp] theorem State.setSect_lastSig (k : Nat) (x : SectionSt) : (s.setSect k x).lastSig = s.lastSig := rfl
@[simp] theorem State.setSect_spdm (k : Nat) (x : SectionSt) : (s.setSect k x).spdm = s.spdm := rfl
@[simp] theorem State.setSect_leave (k : Nat) (x : SectionSt) : (s.setSect k x).leave = s.leave := rfl
@[simp] theorem State.setSect_ide (k : Nat) (x : SectionSt) : (s.setSect k x).ide = s.ide := rfl
@[simp] theorem State.setSect_doe (k : Nat) (x : SectionSt) : (s.setSect k x).doe = s.doe := rfl
@[simp] theorem State.setSect_atc (k : Nat) (x : SectionSt) : (s.setSect k x).atc = s.atc := rfl
@[simp] theorem State.setSect_hostOut (k : Nat) (x : SectionSt) : (s.setSect k x).hostOut = s.hostOut := rfl
@[simp] theorem State.setSect_hostWait (k : Nat) (x : SectionSt) : (s.setSect k x).hostWait = s.hostWait := rfl
@[simp] theorem State.setSect_invals (k : Nat) (x : SectionSt) : (s.setSect k x).invals = s.invals := rfl
@[simp] theorem State.setSect_recNow (k : Nat) (x : SectionSt) : (s.setSect k x).recNow = s.recNow := rfl
@[simp] theorem State.setSect_recA (k : Nat) (x : SectionSt) : (s.setSect k x).recA = s.recA := rfl
@[simp] theorem State.setSect_recB (k : Nat) (x : SectionSt) : (s.setSect k x).recB = s.recB := rfl
@[simp] theorem State.setSect_recDue (k : Nat) (x : SectionSt) : (s.setSect k x).recDue = s.recDue := rfl
@[simp] theorem State.setSect_units (k : Nat) (x : SectionSt) : (s.setSect k x).units = s.units := rfl
@[simp] theorem State.setSect_flash (k : Nat) (x : SectionSt) : (s.setSect k x).flash = s.flash := rfl
@[simp] theorem State.setSect_meas (k : Nat) (x : SectionSt) : (s.setSect k x).meas = s.meas := rfl
@[simp] theorem State.setSect_certs (k : Nat) (x : SectionSt) : (s.setSect k x).certs = s.certs := rfl
@[simp] theorem State.setSect_boot (k : Nat) (x : SectionSt) : (s.setSect k x).boot = s.boot := rfl
@[simp] theorem State.setSect_vin48 (k : Nat) (x : SectionSt) : (s.setSect k x).vin48 = s.vin48 := rfl
@[simp] theorem State.setSect_degraded (k : Nat) (x : SectionSt) : (s.setSect k x).degraded = s.degraded := rfl
@[simp] theorem State.setSect_power (k : Nat) (x : SectionSt) : (s.setSect k x).power = s.power := rfl
@[simp] theorem State.setSect_fwu (k : Nat) (x : SectionSt) : (s.setSect k x).fwu = s.fwu := rfl
@[simp] theorem State.setSect_niDrops (k : Nat) (x : SectionSt) : (s.setSect k x).niDrops = s.niDrops := rfl
@[simp] theorem State.setSect_hostHeld (k : Nat) (x : SectionSt) : (s.setSect k x).hostHeld = s.hostHeld := rfl
@[simp] theorem State.setSect_retrain (k : Nat) (x : SectionSt) : (s.setSect k x).retrain = s.retrain := rfl
@[simp] theorem State.setSect_pcieHeld (k : Nat) (x : SectionSt) : (s.setSect k x).pcieHeld = s.pcieHeld := rfl
@[simp] theorem State.setSect_out (k : Nat) (x : SectionSt) : (s.setSect k x).out = s.out := rfl
@[simp] theorem State.setSect_free (k : Nat) (x : SectionSt) : (s.setSect k x).free = s.free := rfl
@[simp] theorem State.setSect_tick (k : Nat) (x : SectionSt) : (s.setSect k x).tick = s.tick := rfl

/-! ### setCore -/

@[simp] theorem State.setCore_pending (k : Nat) (x : CoreSt) : (s.setCore k x).pending = s.pending := rfl
@[simp] theorem State.setCore_regs (k : Nat) (x : CoreSt) : (s.setCore k x).regs = s.regs := rfl
@[simp] theorem State.setCore_shadow (k : Nat) (x : CoreSt) : (s.setCore k x).shadow = s.shadow := rfl
@[simp] theorem State.setCore_commits (k : Nat) (x : CoreSt) : (s.setCore k x).commits = s.commits := rfl
@[simp] theorem State.setCore_mem (k : Nat) (x : CoreSt) : (s.setCore k x).mem = s.mem := rfl
@[simp] theorem State.setCore_spm (k : Nat) (x : CoreSt) : (s.setCore k x).spm = s.spm := rfl
@[simp] theorem State.setCore_threads (k : Nat) (x : CoreSt) : (s.setCore k x).threads = s.threads := rfl
@[simp] theorem State.setCore_cores (k : Nat) (x : CoreSt) : (s.setCore k x).cores = s.cores.set k x := rfl
@[simp] theorem State.setCore_launches (k : Nat) (x : CoreSt) : (s.setCore k x).launches = s.launches := rfl
@[simp] theorem State.setCore_sections (k : Nat) (x : CoreSt) : (s.setCore k x).sections = s.sections := rfl
@[simp] theorem State.setCore_ships (k : Nat) (x : CoreSt) : (s.setCore k x).ships = s.ships := rfl
@[simp] theorem State.setCore_dir (k : Nat) (x : CoreSt) : (s.setCore k x).dir = s.dir := rfl
@[simp] theorem State.setCore_waitq (k : Nat) (x : CoreSt) : (s.setCore k x).waitq = s.waitq := rfl
@[simp] theorem State.setCore_slots (k : Nat) (x : CoreSt) : (s.setCore k x).slots = s.slots := rfl
@[simp] theorem State.setCore_net (k : Nat) (x : CoreSt) : (s.setCore k x).net = s.net := rfl
@[simp] theorem State.setCore_toks (k : Nat) (x : CoreSt) : (s.setCore k x).toks = s.toks := rfl
@[simp] theorem State.setCore_routers (k : Nat) (x : CoreSt) : (s.setCore k x).routers = s.routers := rfl
@[simp] theorem State.setCore_tables (k : Nat) (x : CoreSt) : (s.setCore k x).tables = s.tables := rfl
@[simp] theorem State.setCore_engSleep (k : Nat) (x : CoreSt) : (s.setCore k x).engSleep = s.engSleep := rfl
@[simp] theorem State.setCore_engHeld (k : Nat) (x : CoreSt) : (s.setCore k x).engHeld = s.engHeld := rfl
@[simp] theorem State.setCore_code (k : Nat) (x : CoreSt) : (s.setCore k x).code = s.code := rfl
@[simp] theorem State.setCore_stale (k : Nat) (x : CoreSt) : (s.setCore k x).stale = s.stale := rfl
@[simp] theorem State.setCore_accs (k : Nat) (x : CoreSt) : (s.setCore k x).accs = s.accs := rfl
@[simp] theorem State.setCore_queues (k : Nat) (x : CoreSt) : (s.setCore k x).queues = s.queues := rfl
@[simp] theorem State.setCore_groups (k : Nat) (x : CoreSt) : (s.setCore k x).groups = s.groups := rfl
@[simp] theorem State.setCore_ctxs (k : Nat) (x : CoreSt) : (s.setCore k x).ctxs = s.ctxs := rfl
@[simp] theorem State.setCore_gens (k : Nat) (x : CoreSt) : (s.setCore k x).gens = s.gens := rfl
@[simp] theorem State.setCore_objs (k : Nat) (x : CoreSt) : (s.setCore k x).objs = s.objs := rfl
@[simp] theorem State.setCore_fences (k : Nat) (x : CoreSt) : (s.setCore k x).fences = s.fences := rfl
@[simp] theorem State.setCore_seqs (k : Nat) (x : CoreSt) : (s.setCore k x).seqs = s.seqs := rfl
@[simp] theorem State.setCore_cad (k : Nat) (x : CoreSt) : (s.setCore k x).cad = s.cad := rfl
@[simp] theorem State.setCore_batches (k : Nat) (x : CoreSt) : (s.setCore k x).batches = s.batches := rfl
@[simp] theorem State.setCore_orders (k : Nat) (x : CoreSt) : (s.setCore k x).orders = s.orders := rfl
@[simp] theorem State.setCore_freeing (k : Nat) (x : CoreSt) : (s.setCore k x).freeing = s.freeing := rfl
@[simp] theorem State.setCore_parcels (k : Nat) (x : CoreSt) : (s.setCore k x).parcels = s.parcels := rfl
@[simp] theorem State.setCore_eases (k : Nat) (x : CoreSt) : (s.setCore k x).eases = s.eases := rfl
@[simp] theorem State.setCore_fnEvents (k : Nat) (x : CoreSt) : (s.setCore k x).fnEvents = s.fnEvents := rfl
@[simp] theorem State.setCore_fns (k : Nat) (x : CoreSt) : (s.setCore k x).fns = s.fns := rfl
@[simp] theorem State.setCore_sites (k : Nat) (x : CoreSt) : (s.setCore k x).sites = s.sites := rfl
@[simp] theorem State.setCore_siteCfgs (k : Nat) (x : CoreSt) : (s.setCore k x).siteCfgs = s.siteCfgs := rfl
@[simp] theorem State.setCore_poison (k : Nat) (x : CoreSt) : (s.setCore k x).poison = s.poison := rfl
@[simp] theorem State.setCore_badBursts (k : Nat) (x : CoreSt) : (s.setCore k x).badBursts = s.badBursts := rfl
@[simp] theorem State.setCore_errlog (k : Nat) (x : CoreSt) : (s.setCore k x).errlog = s.errlog := rfl
@[simp] theorem State.setCore_starts (k : Nat) (x : CoreSt) : (s.setCore k x).starts = s.starts := rfl
@[simp] theorem State.setCore_traceSeq (k : Nat) (x : CoreSt) : (s.setCore k x).traceSeq = s.traceSeq := rfl
@[simp] theorem State.setCore_keys (k : Nat) (x : CoreSt) : (s.setCore k x).keys = s.keys := rfl
@[simp] theorem State.setCore_fuses (k : Nat) (x : CoreSt) : (s.setCore k x).fuses = s.fuses := rfl
@[simp] theorem State.setCore_attest (k : Nat) (x : CoreSt) : (s.setCore k x).attest = s.attest := rfl
@[simp] theorem State.setCore_lastSig (k : Nat) (x : CoreSt) : (s.setCore k x).lastSig = s.lastSig := rfl
@[simp] theorem State.setCore_spdm (k : Nat) (x : CoreSt) : (s.setCore k x).spdm = s.spdm := rfl
@[simp] theorem State.setCore_leave (k : Nat) (x : CoreSt) : (s.setCore k x).leave = s.leave := rfl
@[simp] theorem State.setCore_ide (k : Nat) (x : CoreSt) : (s.setCore k x).ide = s.ide := rfl
@[simp] theorem State.setCore_doe (k : Nat) (x : CoreSt) : (s.setCore k x).doe = s.doe := rfl
@[simp] theorem State.setCore_atc (k : Nat) (x : CoreSt) : (s.setCore k x).atc = s.atc := rfl
@[simp] theorem State.setCore_hostOut (k : Nat) (x : CoreSt) : (s.setCore k x).hostOut = s.hostOut := rfl
@[simp] theorem State.setCore_hostWait (k : Nat) (x : CoreSt) : (s.setCore k x).hostWait = s.hostWait := rfl
@[simp] theorem State.setCore_invals (k : Nat) (x : CoreSt) : (s.setCore k x).invals = s.invals := rfl
@[simp] theorem State.setCore_recNow (k : Nat) (x : CoreSt) : (s.setCore k x).recNow = s.recNow := rfl
@[simp] theorem State.setCore_recA (k : Nat) (x : CoreSt) : (s.setCore k x).recA = s.recA := rfl
@[simp] theorem State.setCore_recB (k : Nat) (x : CoreSt) : (s.setCore k x).recB = s.recB := rfl
@[simp] theorem State.setCore_recDue (k : Nat) (x : CoreSt) : (s.setCore k x).recDue = s.recDue := rfl
@[simp] theorem State.setCore_units (k : Nat) (x : CoreSt) : (s.setCore k x).units = s.units := rfl
@[simp] theorem State.setCore_flash (k : Nat) (x : CoreSt) : (s.setCore k x).flash = s.flash := rfl
@[simp] theorem State.setCore_meas (k : Nat) (x : CoreSt) : (s.setCore k x).meas = s.meas := rfl
@[simp] theorem State.setCore_certs (k : Nat) (x : CoreSt) : (s.setCore k x).certs = s.certs := rfl
@[simp] theorem State.setCore_boot (k : Nat) (x : CoreSt) : (s.setCore k x).boot = s.boot := rfl
@[simp] theorem State.setCore_vin48 (k : Nat) (x : CoreSt) : (s.setCore k x).vin48 = s.vin48 := rfl
@[simp] theorem State.setCore_degraded (k : Nat) (x : CoreSt) : (s.setCore k x).degraded = s.degraded := rfl
@[simp] theorem State.setCore_power (k : Nat) (x : CoreSt) : (s.setCore k x).power = s.power := rfl
@[simp] theorem State.setCore_fwu (k : Nat) (x : CoreSt) : (s.setCore k x).fwu = s.fwu := rfl
@[simp] theorem State.setCore_niDrops (k : Nat) (x : CoreSt) : (s.setCore k x).niDrops = s.niDrops := rfl
@[simp] theorem State.setCore_hostHeld (k : Nat) (x : CoreSt) : (s.setCore k x).hostHeld = s.hostHeld := rfl
@[simp] theorem State.setCore_retrain (k : Nat) (x : CoreSt) : (s.setCore k x).retrain = s.retrain := rfl
@[simp] theorem State.setCore_pcieHeld (k : Nat) (x : CoreSt) : (s.setCore k x).pcieHeld = s.pcieHeld := rfl
@[simp] theorem State.setCore_out (k : Nat) (x : CoreSt) : (s.setCore k x).out = s.out := rfl
@[simp] theorem State.setCore_free (k : Nat) (x : CoreSt) : (s.setCore k x).free = s.free := rfl
@[simp] theorem State.setCore_tick (k : Nat) (x : CoreSt) : (s.setCore k x).tick = s.tick := rfl

/-! ### setThread -/

@[simp] theorem State.setThread_pending (t : Nat) (x : Thread) : (s.setThread t x).pending = s.pending := rfl
@[simp] theorem State.setThread_regs (t : Nat) (x : Thread) : (s.setThread t x).regs = s.regs := rfl
@[simp] theorem State.setThread_shadow (t : Nat) (x : Thread) : (s.setThread t x).shadow = s.shadow := rfl
@[simp] theorem State.setThread_commits (t : Nat) (x : Thread) : (s.setThread t x).commits = s.commits := rfl
@[simp] theorem State.setThread_mem (t : Nat) (x : Thread) : (s.setThread t x).mem = s.mem := rfl
@[simp] theorem State.setThread_spm (t : Nat) (x : Thread) : (s.setThread t x).spm = s.spm := rfl
@[simp] theorem State.setThread_threads (t : Nat) (x : Thread) : (s.setThread t x).threads = s.threads.set t x := rfl
@[simp] theorem State.setThread_cores (t : Nat) (x : Thread) : (s.setThread t x).cores = s.cores := rfl
@[simp] theorem State.setThread_launches (t : Nat) (x : Thread) : (s.setThread t x).launches = s.launches := rfl
@[simp] theorem State.setThread_sections (t : Nat) (x : Thread) : (s.setThread t x).sections = s.sections := rfl
@[simp] theorem State.setThread_ships (t : Nat) (x : Thread) : (s.setThread t x).ships = s.ships := rfl
@[simp] theorem State.setThread_dir (t : Nat) (x : Thread) : (s.setThread t x).dir = s.dir := rfl
@[simp] theorem State.setThread_waitq (t : Nat) (x : Thread) : (s.setThread t x).waitq = s.waitq := rfl
@[simp] theorem State.setThread_slots (t : Nat) (x : Thread) : (s.setThread t x).slots = s.slots := rfl
@[simp] theorem State.setThread_net (t : Nat) (x : Thread) : (s.setThread t x).net = s.net := rfl
@[simp] theorem State.setThread_toks (t : Nat) (x : Thread) : (s.setThread t x).toks = s.toks := rfl
@[simp] theorem State.setThread_routers (t : Nat) (x : Thread) : (s.setThread t x).routers = s.routers := rfl
@[simp] theorem State.setThread_tables (t : Nat) (x : Thread) : (s.setThread t x).tables = s.tables := rfl
@[simp] theorem State.setThread_engSleep (t : Nat) (x : Thread) : (s.setThread t x).engSleep = s.engSleep := rfl
@[simp] theorem State.setThread_engHeld (t : Nat) (x : Thread) : (s.setThread t x).engHeld = s.engHeld := rfl
@[simp] theorem State.setThread_code (t : Nat) (x : Thread) : (s.setThread t x).code = s.code := rfl
@[simp] theorem State.setThread_stale (t : Nat) (x : Thread) : (s.setThread t x).stale = s.stale := rfl
@[simp] theorem State.setThread_accs (t : Nat) (x : Thread) : (s.setThread t x).accs = s.accs := rfl
@[simp] theorem State.setThread_queues (t : Nat) (x : Thread) : (s.setThread t x).queues = s.queues := rfl
@[simp] theorem State.setThread_groups (t : Nat) (x : Thread) : (s.setThread t x).groups = s.groups := rfl
@[simp] theorem State.setThread_ctxs (t : Nat) (x : Thread) : (s.setThread t x).ctxs = s.ctxs := rfl
@[simp] theorem State.setThread_gens (t : Nat) (x : Thread) : (s.setThread t x).gens = s.gens := rfl
@[simp] theorem State.setThread_objs (t : Nat) (x : Thread) : (s.setThread t x).objs = s.objs := rfl
@[simp] theorem State.setThread_fences (t : Nat) (x : Thread) : (s.setThread t x).fences = s.fences := rfl
@[simp] theorem State.setThread_seqs (t : Nat) (x : Thread) : (s.setThread t x).seqs = s.seqs := rfl
@[simp] theorem State.setThread_cad (t : Nat) (x : Thread) : (s.setThread t x).cad = s.cad := rfl
@[simp] theorem State.setThread_batches (t : Nat) (x : Thread) : (s.setThread t x).batches = s.batches := rfl
@[simp] theorem State.setThread_orders (t : Nat) (x : Thread) : (s.setThread t x).orders = s.orders := rfl
@[simp] theorem State.setThread_freeing (t : Nat) (x : Thread) : (s.setThread t x).freeing = s.freeing := rfl
@[simp] theorem State.setThread_parcels (t : Nat) (x : Thread) : (s.setThread t x).parcels = s.parcels := rfl
@[simp] theorem State.setThread_eases (t : Nat) (x : Thread) : (s.setThread t x).eases = s.eases := rfl
@[simp] theorem State.setThread_fnEvents (t : Nat) (x : Thread) : (s.setThread t x).fnEvents = s.fnEvents := rfl
@[simp] theorem State.setThread_fns (t : Nat) (x : Thread) : (s.setThread t x).fns = s.fns := rfl
@[simp] theorem State.setThread_sites (t : Nat) (x : Thread) : (s.setThread t x).sites = s.sites := rfl
@[simp] theorem State.setThread_siteCfgs (t : Nat) (x : Thread) : (s.setThread t x).siteCfgs = s.siteCfgs := rfl
@[simp] theorem State.setThread_poison (t : Nat) (x : Thread) : (s.setThread t x).poison = s.poison := rfl
@[simp] theorem State.setThread_badBursts (t : Nat) (x : Thread) : (s.setThread t x).badBursts = s.badBursts := rfl
@[simp] theorem State.setThread_errlog (t : Nat) (x : Thread) : (s.setThread t x).errlog = s.errlog := rfl
@[simp] theorem State.setThread_starts (t : Nat) (x : Thread) : (s.setThread t x).starts = s.starts := rfl
@[simp] theorem State.setThread_traceSeq (t : Nat) (x : Thread) : (s.setThread t x).traceSeq = s.traceSeq := rfl
@[simp] theorem State.setThread_keys (t : Nat) (x : Thread) : (s.setThread t x).keys = s.keys := rfl
@[simp] theorem State.setThread_fuses (t : Nat) (x : Thread) : (s.setThread t x).fuses = s.fuses := rfl
@[simp] theorem State.setThread_attest (t : Nat) (x : Thread) : (s.setThread t x).attest = s.attest := rfl
@[simp] theorem State.setThread_lastSig (t : Nat) (x : Thread) : (s.setThread t x).lastSig = s.lastSig := rfl
@[simp] theorem State.setThread_spdm (t : Nat) (x : Thread) : (s.setThread t x).spdm = s.spdm := rfl
@[simp] theorem State.setThread_leave (t : Nat) (x : Thread) : (s.setThread t x).leave = s.leave := rfl
@[simp] theorem State.setThread_ide (t : Nat) (x : Thread) : (s.setThread t x).ide = s.ide := rfl
@[simp] theorem State.setThread_doe (t : Nat) (x : Thread) : (s.setThread t x).doe = s.doe := rfl
@[simp] theorem State.setThread_atc (t : Nat) (x : Thread) : (s.setThread t x).atc = s.atc := rfl
@[simp] theorem State.setThread_hostOut (t : Nat) (x : Thread) : (s.setThread t x).hostOut = s.hostOut := rfl
@[simp] theorem State.setThread_hostWait (t : Nat) (x : Thread) : (s.setThread t x).hostWait = s.hostWait := rfl
@[simp] theorem State.setThread_invals (t : Nat) (x : Thread) : (s.setThread t x).invals = s.invals := rfl
@[simp] theorem State.setThread_recNow (t : Nat) (x : Thread) : (s.setThread t x).recNow = s.recNow := rfl
@[simp] theorem State.setThread_recA (t : Nat) (x : Thread) : (s.setThread t x).recA = s.recA := rfl
@[simp] theorem State.setThread_recB (t : Nat) (x : Thread) : (s.setThread t x).recB = s.recB := rfl
@[simp] theorem State.setThread_recDue (t : Nat) (x : Thread) : (s.setThread t x).recDue = s.recDue := rfl
@[simp] theorem State.setThread_units (t : Nat) (x : Thread) : (s.setThread t x).units = s.units := rfl
@[simp] theorem State.setThread_flash (t : Nat) (x : Thread) : (s.setThread t x).flash = s.flash := rfl
@[simp] theorem State.setThread_meas (t : Nat) (x : Thread) : (s.setThread t x).meas = s.meas := rfl
@[simp] theorem State.setThread_certs (t : Nat) (x : Thread) : (s.setThread t x).certs = s.certs := rfl
@[simp] theorem State.setThread_boot (t : Nat) (x : Thread) : (s.setThread t x).boot = s.boot := rfl
@[simp] theorem State.setThread_vin48 (t : Nat) (x : Thread) : (s.setThread t x).vin48 = s.vin48 := rfl
@[simp] theorem State.setThread_degraded (t : Nat) (x : Thread) : (s.setThread t x).degraded = s.degraded := rfl
@[simp] theorem State.setThread_power (t : Nat) (x : Thread) : (s.setThread t x).power = s.power := rfl
@[simp] theorem State.setThread_fwu (t : Nat) (x : Thread) : (s.setThread t x).fwu = s.fwu := rfl
@[simp] theorem State.setThread_niDrops (t : Nat) (x : Thread) : (s.setThread t x).niDrops = s.niDrops := rfl
@[simp] theorem State.setThread_hostHeld (t : Nat) (x : Thread) : (s.setThread t x).hostHeld = s.hostHeld := rfl
@[simp] theorem State.setThread_retrain (t : Nat) (x : Thread) : (s.setThread t x).retrain = s.retrain := rfl
@[simp] theorem State.setThread_pcieHeld (t : Nat) (x : Thread) : (s.setThread t x).pcieHeld = s.pcieHeld := rfl
@[simp] theorem State.setThread_out (t : Nat) (x : Thread) : (s.setThread t x).out = s.out := rfl
@[simp] theorem State.setThread_free (t : Nat) (x : Thread) : (s.setThread t x).free = s.free := rfl
@[simp] theorem State.setThread_tick (t : Nat) (x : Thread) : (s.setThread t x).tick = s.tick := rfl

/-! ### setLaunch -/

@[simp] theorem State.setLaunch_pending (l : Nat) (x : Launch) : (s.setLaunch l x).pending = s.pending := rfl
@[simp] theorem State.setLaunch_regs (l : Nat) (x : Launch) : (s.setLaunch l x).regs = s.regs := rfl
@[simp] theorem State.setLaunch_shadow (l : Nat) (x : Launch) : (s.setLaunch l x).shadow = s.shadow := rfl
@[simp] theorem State.setLaunch_commits (l : Nat) (x : Launch) : (s.setLaunch l x).commits = s.commits := rfl
@[simp] theorem State.setLaunch_mem (l : Nat) (x : Launch) : (s.setLaunch l x).mem = s.mem := rfl
@[simp] theorem State.setLaunch_spm (l : Nat) (x : Launch) : (s.setLaunch l x).spm = s.spm := rfl
@[simp] theorem State.setLaunch_threads (l : Nat) (x : Launch) : (s.setLaunch l x).threads = s.threads := rfl
@[simp] theorem State.setLaunch_cores (l : Nat) (x : Launch) : (s.setLaunch l x).cores = s.cores := rfl
@[simp] theorem State.setLaunch_launches (l : Nat) (x : Launch) : (s.setLaunch l x).launches = s.launches.set l x := rfl
@[simp] theorem State.setLaunch_sections (l : Nat) (x : Launch) : (s.setLaunch l x).sections = s.sections := rfl
@[simp] theorem State.setLaunch_ships (l : Nat) (x : Launch) : (s.setLaunch l x).ships = s.ships := rfl
@[simp] theorem State.setLaunch_dir (l : Nat) (x : Launch) : (s.setLaunch l x).dir = s.dir := rfl
@[simp] theorem State.setLaunch_waitq (l : Nat) (x : Launch) : (s.setLaunch l x).waitq = s.waitq := rfl
@[simp] theorem State.setLaunch_slots (l : Nat) (x : Launch) : (s.setLaunch l x).slots = s.slots := rfl
@[simp] theorem State.setLaunch_net (l : Nat) (x : Launch) : (s.setLaunch l x).net = s.net := rfl
@[simp] theorem State.setLaunch_toks (l : Nat) (x : Launch) : (s.setLaunch l x).toks = s.toks := rfl
@[simp] theorem State.setLaunch_routers (l : Nat) (x : Launch) : (s.setLaunch l x).routers = s.routers := rfl
@[simp] theorem State.setLaunch_tables (l : Nat) (x : Launch) : (s.setLaunch l x).tables = s.tables := rfl
@[simp] theorem State.setLaunch_engSleep (l : Nat) (x : Launch) : (s.setLaunch l x).engSleep = s.engSleep := rfl
@[simp] theorem State.setLaunch_engHeld (l : Nat) (x : Launch) : (s.setLaunch l x).engHeld = s.engHeld := rfl
@[simp] theorem State.setLaunch_code (l : Nat) (x : Launch) : (s.setLaunch l x).code = s.code := rfl
@[simp] theorem State.setLaunch_stale (l : Nat) (x : Launch) : (s.setLaunch l x).stale = s.stale := rfl
@[simp] theorem State.setLaunch_accs (l : Nat) (x : Launch) : (s.setLaunch l x).accs = s.accs := rfl
@[simp] theorem State.setLaunch_queues (l : Nat) (x : Launch) : (s.setLaunch l x).queues = s.queues := rfl
@[simp] theorem State.setLaunch_groups (l : Nat) (x : Launch) : (s.setLaunch l x).groups = s.groups := rfl
@[simp] theorem State.setLaunch_ctxs (l : Nat) (x : Launch) : (s.setLaunch l x).ctxs = s.ctxs := rfl
@[simp] theorem State.setLaunch_gens (l : Nat) (x : Launch) : (s.setLaunch l x).gens = s.gens := rfl
@[simp] theorem State.setLaunch_objs (l : Nat) (x : Launch) : (s.setLaunch l x).objs = s.objs := rfl
@[simp] theorem State.setLaunch_fences (l : Nat) (x : Launch) : (s.setLaunch l x).fences = s.fences := rfl
@[simp] theorem State.setLaunch_seqs (l : Nat) (x : Launch) : (s.setLaunch l x).seqs = s.seqs := rfl
@[simp] theorem State.setLaunch_cad (l : Nat) (x : Launch) : (s.setLaunch l x).cad = s.cad := rfl
@[simp] theorem State.setLaunch_batches (l : Nat) (x : Launch) : (s.setLaunch l x).batches = s.batches := rfl
@[simp] theorem State.setLaunch_orders (l : Nat) (x : Launch) : (s.setLaunch l x).orders = s.orders := rfl
@[simp] theorem State.setLaunch_freeing (l : Nat) (x : Launch) : (s.setLaunch l x).freeing = s.freeing := rfl
@[simp] theorem State.setLaunch_parcels (l : Nat) (x : Launch) : (s.setLaunch l x).parcels = s.parcels := rfl
@[simp] theorem State.setLaunch_eases (l : Nat) (x : Launch) : (s.setLaunch l x).eases = s.eases := rfl
@[simp] theorem State.setLaunch_fnEvents (l : Nat) (x : Launch) : (s.setLaunch l x).fnEvents = s.fnEvents := rfl
@[simp] theorem State.setLaunch_fns (l : Nat) (x : Launch) : (s.setLaunch l x).fns = s.fns := rfl
@[simp] theorem State.setLaunch_sites (l : Nat) (x : Launch) : (s.setLaunch l x).sites = s.sites := rfl
@[simp] theorem State.setLaunch_siteCfgs (l : Nat) (x : Launch) : (s.setLaunch l x).siteCfgs = s.siteCfgs := rfl
@[simp] theorem State.setLaunch_poison (l : Nat) (x : Launch) : (s.setLaunch l x).poison = s.poison := rfl
@[simp] theorem State.setLaunch_badBursts (l : Nat) (x : Launch) : (s.setLaunch l x).badBursts = s.badBursts := rfl
@[simp] theorem State.setLaunch_errlog (l : Nat) (x : Launch) : (s.setLaunch l x).errlog = s.errlog := rfl
@[simp] theorem State.setLaunch_starts (l : Nat) (x : Launch) : (s.setLaunch l x).starts = s.starts := rfl
@[simp] theorem State.setLaunch_traceSeq (l : Nat) (x : Launch) : (s.setLaunch l x).traceSeq = s.traceSeq := rfl
@[simp] theorem State.setLaunch_keys (l : Nat) (x : Launch) : (s.setLaunch l x).keys = s.keys := rfl
@[simp] theorem State.setLaunch_fuses (l : Nat) (x : Launch) : (s.setLaunch l x).fuses = s.fuses := rfl
@[simp] theorem State.setLaunch_attest (l : Nat) (x : Launch) : (s.setLaunch l x).attest = s.attest := rfl
@[simp] theorem State.setLaunch_lastSig (l : Nat) (x : Launch) : (s.setLaunch l x).lastSig = s.lastSig := rfl
@[simp] theorem State.setLaunch_spdm (l : Nat) (x : Launch) : (s.setLaunch l x).spdm = s.spdm := rfl
@[simp] theorem State.setLaunch_leave (l : Nat) (x : Launch) : (s.setLaunch l x).leave = s.leave := rfl
@[simp] theorem State.setLaunch_ide (l : Nat) (x : Launch) : (s.setLaunch l x).ide = s.ide := rfl
@[simp] theorem State.setLaunch_doe (l : Nat) (x : Launch) : (s.setLaunch l x).doe = s.doe := rfl
@[simp] theorem State.setLaunch_atc (l : Nat) (x : Launch) : (s.setLaunch l x).atc = s.atc := rfl
@[simp] theorem State.setLaunch_hostOut (l : Nat) (x : Launch) : (s.setLaunch l x).hostOut = s.hostOut := rfl
@[simp] theorem State.setLaunch_hostWait (l : Nat) (x : Launch) : (s.setLaunch l x).hostWait = s.hostWait := rfl
@[simp] theorem State.setLaunch_invals (l : Nat) (x : Launch) : (s.setLaunch l x).invals = s.invals := rfl
@[simp] theorem State.setLaunch_recNow (l : Nat) (x : Launch) : (s.setLaunch l x).recNow = s.recNow := rfl
@[simp] theorem State.setLaunch_recA (l : Nat) (x : Launch) : (s.setLaunch l x).recA = s.recA := rfl
@[simp] theorem State.setLaunch_recB (l : Nat) (x : Launch) : (s.setLaunch l x).recB = s.recB := rfl
@[simp] theorem State.setLaunch_recDue (l : Nat) (x : Launch) : (s.setLaunch l x).recDue = s.recDue := rfl
@[simp] theorem State.setLaunch_units (l : Nat) (x : Launch) : (s.setLaunch l x).units = s.units := rfl
@[simp] theorem State.setLaunch_flash (l : Nat) (x : Launch) : (s.setLaunch l x).flash = s.flash := rfl
@[simp] theorem State.setLaunch_meas (l : Nat) (x : Launch) : (s.setLaunch l x).meas = s.meas := rfl
@[simp] theorem State.setLaunch_certs (l : Nat) (x : Launch) : (s.setLaunch l x).certs = s.certs := rfl
@[simp] theorem State.setLaunch_boot (l : Nat) (x : Launch) : (s.setLaunch l x).boot = s.boot := rfl
@[simp] theorem State.setLaunch_vin48 (l : Nat) (x : Launch) : (s.setLaunch l x).vin48 = s.vin48 := rfl
@[simp] theorem State.setLaunch_degraded (l : Nat) (x : Launch) : (s.setLaunch l x).degraded = s.degraded := rfl
@[simp] theorem State.setLaunch_power (l : Nat) (x : Launch) : (s.setLaunch l x).power = s.power := rfl
@[simp] theorem State.setLaunch_fwu (l : Nat) (x : Launch) : (s.setLaunch l x).fwu = s.fwu := rfl
@[simp] theorem State.setLaunch_niDrops (l : Nat) (x : Launch) : (s.setLaunch l x).niDrops = s.niDrops := rfl
@[simp] theorem State.setLaunch_hostHeld (l : Nat) (x : Launch) : (s.setLaunch l x).hostHeld = s.hostHeld := rfl
@[simp] theorem State.setLaunch_retrain (l : Nat) (x : Launch) : (s.setLaunch l x).retrain = s.retrain := rfl
@[simp] theorem State.setLaunch_pcieHeld (l : Nat) (x : Launch) : (s.setLaunch l x).pcieHeld = s.pcieHeld := rfl
@[simp] theorem State.setLaunch_out (l : Nat) (x : Launch) : (s.setLaunch l x).out = s.out := rfl
@[simp] theorem State.setLaunch_free (l : Nat) (x : Launch) : (s.setLaunch l x).free = s.free := rfl
@[simp] theorem State.setLaunch_tick (l : Nat) (x : Launch) : (s.setLaunch l x).tick = s.tick := rfl

/-! ### setQueue -/

@[simp] theorem State.setQueue_pending (q : Nat) (x : Queue) : (s.setQueue q x).pending = s.pending := rfl
@[simp] theorem State.setQueue_regs (q : Nat) (x : Queue) : (s.setQueue q x).regs = s.regs := rfl
@[simp] theorem State.setQueue_shadow (q : Nat) (x : Queue) : (s.setQueue q x).shadow = s.shadow := rfl
@[simp] theorem State.setQueue_commits (q : Nat) (x : Queue) : (s.setQueue q x).commits = s.commits := rfl
@[simp] theorem State.setQueue_mem (q : Nat) (x : Queue) : (s.setQueue q x).mem = s.mem := rfl
@[simp] theorem State.setQueue_spm (q : Nat) (x : Queue) : (s.setQueue q x).spm = s.spm := rfl
@[simp] theorem State.setQueue_threads (q : Nat) (x : Queue) : (s.setQueue q x).threads = s.threads := rfl
@[simp] theorem State.setQueue_cores (q : Nat) (x : Queue) : (s.setQueue q x).cores = s.cores := rfl
@[simp] theorem State.setQueue_launches (q : Nat) (x : Queue) : (s.setQueue q x).launches = s.launches := rfl
@[simp] theorem State.setQueue_sections (q : Nat) (x : Queue) : (s.setQueue q x).sections = s.sections := rfl
@[simp] theorem State.setQueue_ships (q : Nat) (x : Queue) : (s.setQueue q x).ships = s.ships := rfl
@[simp] theorem State.setQueue_dir (q : Nat) (x : Queue) : (s.setQueue q x).dir = s.dir := rfl
@[simp] theorem State.setQueue_waitq (q : Nat) (x : Queue) : (s.setQueue q x).waitq = s.waitq := rfl
@[simp] theorem State.setQueue_slots (q : Nat) (x : Queue) : (s.setQueue q x).slots = s.slots := rfl
@[simp] theorem State.setQueue_net (q : Nat) (x : Queue) : (s.setQueue q x).net = s.net := rfl
@[simp] theorem State.setQueue_toks (q : Nat) (x : Queue) : (s.setQueue q x).toks = s.toks := rfl
@[simp] theorem State.setQueue_routers (q : Nat) (x : Queue) : (s.setQueue q x).routers = s.routers := rfl
@[simp] theorem State.setQueue_tables (q : Nat) (x : Queue) : (s.setQueue q x).tables = s.tables := rfl
@[simp] theorem State.setQueue_engSleep (q : Nat) (x : Queue) : (s.setQueue q x).engSleep = s.engSleep := rfl
@[simp] theorem State.setQueue_engHeld (q : Nat) (x : Queue) : (s.setQueue q x).engHeld = s.engHeld := rfl
@[simp] theorem State.setQueue_code (q : Nat) (x : Queue) : (s.setQueue q x).code = s.code := rfl
@[simp] theorem State.setQueue_stale (q : Nat) (x : Queue) : (s.setQueue q x).stale = s.stale := rfl
@[simp] theorem State.setQueue_accs (q : Nat) (x : Queue) : (s.setQueue q x).accs = s.accs := rfl
@[simp] theorem State.setQueue_queues (q : Nat) (x : Queue) : (s.setQueue q x).queues = s.queues.set q x := rfl
@[simp] theorem State.setQueue_groups (q : Nat) (x : Queue) : (s.setQueue q x).groups = s.groups := rfl
@[simp] theorem State.setQueue_ctxs (q : Nat) (x : Queue) : (s.setQueue q x).ctxs = s.ctxs := rfl
@[simp] theorem State.setQueue_gens (q : Nat) (x : Queue) : (s.setQueue q x).gens = s.gens := rfl
@[simp] theorem State.setQueue_objs (q : Nat) (x : Queue) : (s.setQueue q x).objs = s.objs := rfl
@[simp] theorem State.setQueue_fences (q : Nat) (x : Queue) : (s.setQueue q x).fences = s.fences := rfl
@[simp] theorem State.setQueue_seqs (q : Nat) (x : Queue) : (s.setQueue q x).seqs = s.seqs := rfl
@[simp] theorem State.setQueue_cad (q : Nat) (x : Queue) : (s.setQueue q x).cad = s.cad := rfl
@[simp] theorem State.setQueue_batches (q : Nat) (x : Queue) : (s.setQueue q x).batches = s.batches := rfl
@[simp] theorem State.setQueue_orders (q : Nat) (x : Queue) : (s.setQueue q x).orders = s.orders := rfl
@[simp] theorem State.setQueue_freeing (q : Nat) (x : Queue) : (s.setQueue q x).freeing = s.freeing := rfl
@[simp] theorem State.setQueue_parcels (q : Nat) (x : Queue) : (s.setQueue q x).parcels = s.parcels := rfl
@[simp] theorem State.setQueue_eases (q : Nat) (x : Queue) : (s.setQueue q x).eases = s.eases := rfl
@[simp] theorem State.setQueue_fnEvents (q : Nat) (x : Queue) : (s.setQueue q x).fnEvents = s.fnEvents := rfl
@[simp] theorem State.setQueue_fns (q : Nat) (x : Queue) : (s.setQueue q x).fns = s.fns := rfl
@[simp] theorem State.setQueue_sites (q : Nat) (x : Queue) : (s.setQueue q x).sites = s.sites := rfl
@[simp] theorem State.setQueue_siteCfgs (q : Nat) (x : Queue) : (s.setQueue q x).siteCfgs = s.siteCfgs := rfl
@[simp] theorem State.setQueue_poison (q : Nat) (x : Queue) : (s.setQueue q x).poison = s.poison := rfl
@[simp] theorem State.setQueue_badBursts (q : Nat) (x : Queue) : (s.setQueue q x).badBursts = s.badBursts := rfl
@[simp] theorem State.setQueue_errlog (q : Nat) (x : Queue) : (s.setQueue q x).errlog = s.errlog := rfl
@[simp] theorem State.setQueue_starts (q : Nat) (x : Queue) : (s.setQueue q x).starts = s.starts := rfl
@[simp] theorem State.setQueue_traceSeq (q : Nat) (x : Queue) : (s.setQueue q x).traceSeq = s.traceSeq := rfl
@[simp] theorem State.setQueue_keys (q : Nat) (x : Queue) : (s.setQueue q x).keys = s.keys := rfl
@[simp] theorem State.setQueue_fuses (q : Nat) (x : Queue) : (s.setQueue q x).fuses = s.fuses := rfl
@[simp] theorem State.setQueue_attest (q : Nat) (x : Queue) : (s.setQueue q x).attest = s.attest := rfl
@[simp] theorem State.setQueue_lastSig (q : Nat) (x : Queue) : (s.setQueue q x).lastSig = s.lastSig := rfl
@[simp] theorem State.setQueue_spdm (q : Nat) (x : Queue) : (s.setQueue q x).spdm = s.spdm := rfl
@[simp] theorem State.setQueue_leave (q : Nat) (x : Queue) : (s.setQueue q x).leave = s.leave := rfl
@[simp] theorem State.setQueue_ide (q : Nat) (x : Queue) : (s.setQueue q x).ide = s.ide := rfl
@[simp] theorem State.setQueue_doe (q : Nat) (x : Queue) : (s.setQueue q x).doe = s.doe := rfl
@[simp] theorem State.setQueue_atc (q : Nat) (x : Queue) : (s.setQueue q x).atc = s.atc := rfl
@[simp] theorem State.setQueue_hostOut (q : Nat) (x : Queue) : (s.setQueue q x).hostOut = s.hostOut := rfl
@[simp] theorem State.setQueue_hostWait (q : Nat) (x : Queue) : (s.setQueue q x).hostWait = s.hostWait := rfl
@[simp] theorem State.setQueue_invals (q : Nat) (x : Queue) : (s.setQueue q x).invals = s.invals := rfl
@[simp] theorem State.setQueue_recNow (q : Nat) (x : Queue) : (s.setQueue q x).recNow = s.recNow := rfl
@[simp] theorem State.setQueue_recA (q : Nat) (x : Queue) : (s.setQueue q x).recA = s.recA := rfl
@[simp] theorem State.setQueue_recB (q : Nat) (x : Queue) : (s.setQueue q x).recB = s.recB := rfl
@[simp] theorem State.setQueue_recDue (q : Nat) (x : Queue) : (s.setQueue q x).recDue = s.recDue := rfl
@[simp] theorem State.setQueue_units (q : Nat) (x : Queue) : (s.setQueue q x).units = s.units := rfl
@[simp] theorem State.setQueue_flash (q : Nat) (x : Queue) : (s.setQueue q x).flash = s.flash := rfl
@[simp] theorem State.setQueue_meas (q : Nat) (x : Queue) : (s.setQueue q x).meas = s.meas := rfl
@[simp] theorem State.setQueue_certs (q : Nat) (x : Queue) : (s.setQueue q x).certs = s.certs := rfl
@[simp] theorem State.setQueue_boot (q : Nat) (x : Queue) : (s.setQueue q x).boot = s.boot := rfl
@[simp] theorem State.setQueue_vin48 (q : Nat) (x : Queue) : (s.setQueue q x).vin48 = s.vin48 := rfl
@[simp] theorem State.setQueue_degraded (q : Nat) (x : Queue) : (s.setQueue q x).degraded = s.degraded := rfl
@[simp] theorem State.setQueue_power (q : Nat) (x : Queue) : (s.setQueue q x).power = s.power := rfl
@[simp] theorem State.setQueue_fwu (q : Nat) (x : Queue) : (s.setQueue q x).fwu = s.fwu := rfl
@[simp] theorem State.setQueue_niDrops (q : Nat) (x : Queue) : (s.setQueue q x).niDrops = s.niDrops := rfl
@[simp] theorem State.setQueue_hostHeld (q : Nat) (x : Queue) : (s.setQueue q x).hostHeld = s.hostHeld := rfl
@[simp] theorem State.setQueue_retrain (q : Nat) (x : Queue) : (s.setQueue q x).retrain = s.retrain := rfl
@[simp] theorem State.setQueue_pcieHeld (q : Nat) (x : Queue) : (s.setQueue q x).pcieHeld = s.pcieHeld := rfl
@[simp] theorem State.setQueue_out (q : Nat) (x : Queue) : (s.setQueue q x).out = s.out := rfl
@[simp] theorem State.setQueue_free (q : Nat) (x : Queue) : (s.setQueue q x).free = s.free := rfl
@[simp] theorem State.setQueue_tick (q : Nat) (x : Queue) : (s.setQueue q x).tick = s.tick := rfl

/-! ### setCtx -/

@[simp] theorem State.setCtx_pending (c : Nat) (x : Context) : (s.setCtx c x).pending = s.pending := rfl
@[simp] theorem State.setCtx_regs (c : Nat) (x : Context) : (s.setCtx c x).regs = s.regs := rfl
@[simp] theorem State.setCtx_shadow (c : Nat) (x : Context) : (s.setCtx c x).shadow = s.shadow := rfl
@[simp] theorem State.setCtx_commits (c : Nat) (x : Context) : (s.setCtx c x).commits = s.commits := rfl
@[simp] theorem State.setCtx_mem (c : Nat) (x : Context) : (s.setCtx c x).mem = s.mem := rfl
@[simp] theorem State.setCtx_spm (c : Nat) (x : Context) : (s.setCtx c x).spm = s.spm := rfl
@[simp] theorem State.setCtx_threads (c : Nat) (x : Context) : (s.setCtx c x).threads = s.threads := rfl
@[simp] theorem State.setCtx_cores (c : Nat) (x : Context) : (s.setCtx c x).cores = s.cores := rfl
@[simp] theorem State.setCtx_launches (c : Nat) (x : Context) : (s.setCtx c x).launches = s.launches := rfl
@[simp] theorem State.setCtx_sections (c : Nat) (x : Context) : (s.setCtx c x).sections = s.sections := rfl
@[simp] theorem State.setCtx_ships (c : Nat) (x : Context) : (s.setCtx c x).ships = s.ships := rfl
@[simp] theorem State.setCtx_dir (c : Nat) (x : Context) : (s.setCtx c x).dir = s.dir := rfl
@[simp] theorem State.setCtx_waitq (c : Nat) (x : Context) : (s.setCtx c x).waitq = s.waitq := rfl
@[simp] theorem State.setCtx_slots (c : Nat) (x : Context) : (s.setCtx c x).slots = s.slots := rfl
@[simp] theorem State.setCtx_net (c : Nat) (x : Context) : (s.setCtx c x).net = s.net := rfl
@[simp] theorem State.setCtx_toks (c : Nat) (x : Context) : (s.setCtx c x).toks = s.toks := rfl
@[simp] theorem State.setCtx_routers (c : Nat) (x : Context) : (s.setCtx c x).routers = s.routers := rfl
@[simp] theorem State.setCtx_tables (c : Nat) (x : Context) : (s.setCtx c x).tables = s.tables := rfl
@[simp] theorem State.setCtx_engSleep (c : Nat) (x : Context) : (s.setCtx c x).engSleep = s.engSleep := rfl
@[simp] theorem State.setCtx_engHeld (c : Nat) (x : Context) : (s.setCtx c x).engHeld = s.engHeld := rfl
@[simp] theorem State.setCtx_code (c : Nat) (x : Context) : (s.setCtx c x).code = s.code := rfl
@[simp] theorem State.setCtx_stale (c : Nat) (x : Context) : (s.setCtx c x).stale = s.stale := rfl
@[simp] theorem State.setCtx_accs (c : Nat) (x : Context) : (s.setCtx c x).accs = s.accs := rfl
@[simp] theorem State.setCtx_queues (c : Nat) (x : Context) : (s.setCtx c x).queues = s.queues := rfl
@[simp] theorem State.setCtx_groups (c : Nat) (x : Context) : (s.setCtx c x).groups = s.groups := rfl
@[simp] theorem State.setCtx_ctxs (c : Nat) (x : Context) : (s.setCtx c x).ctxs = s.ctxs.set c x := rfl
@[simp] theorem State.setCtx_gens (c : Nat) (x : Context) : (s.setCtx c x).gens = s.gens := rfl
@[simp] theorem State.setCtx_objs (c : Nat) (x : Context) : (s.setCtx c x).objs = s.objs := rfl
@[simp] theorem State.setCtx_fences (c : Nat) (x : Context) : (s.setCtx c x).fences = s.fences := rfl
@[simp] theorem State.setCtx_seqs (c : Nat) (x : Context) : (s.setCtx c x).seqs = s.seqs := rfl
@[simp] theorem State.setCtx_cad (c : Nat) (x : Context) : (s.setCtx c x).cad = s.cad := rfl
@[simp] theorem State.setCtx_batches (c : Nat) (x : Context) : (s.setCtx c x).batches = s.batches := rfl
@[simp] theorem State.setCtx_orders (c : Nat) (x : Context) : (s.setCtx c x).orders = s.orders := rfl
@[simp] theorem State.setCtx_freeing (c : Nat) (x : Context) : (s.setCtx c x).freeing = s.freeing := rfl
@[simp] theorem State.setCtx_parcels (c : Nat) (x : Context) : (s.setCtx c x).parcels = s.parcels := rfl
@[simp] theorem State.setCtx_eases (c : Nat) (x : Context) : (s.setCtx c x).eases = s.eases := rfl
@[simp] theorem State.setCtx_fnEvents (c : Nat) (x : Context) : (s.setCtx c x).fnEvents = s.fnEvents := rfl
@[simp] theorem State.setCtx_fns (c : Nat) (x : Context) : (s.setCtx c x).fns = s.fns := rfl
@[simp] theorem State.setCtx_sites (c : Nat) (x : Context) : (s.setCtx c x).sites = s.sites := rfl
@[simp] theorem State.setCtx_siteCfgs (c : Nat) (x : Context) : (s.setCtx c x).siteCfgs = s.siteCfgs := rfl
@[simp] theorem State.setCtx_poison (c : Nat) (x : Context) : (s.setCtx c x).poison = s.poison := rfl
@[simp] theorem State.setCtx_badBursts (c : Nat) (x : Context) : (s.setCtx c x).badBursts = s.badBursts := rfl
@[simp] theorem State.setCtx_errlog (c : Nat) (x : Context) : (s.setCtx c x).errlog = s.errlog := rfl
@[simp] theorem State.setCtx_starts (c : Nat) (x : Context) : (s.setCtx c x).starts = s.starts := rfl
@[simp] theorem State.setCtx_traceSeq (c : Nat) (x : Context) : (s.setCtx c x).traceSeq = s.traceSeq := rfl
@[simp] theorem State.setCtx_keys (c : Nat) (x : Context) : (s.setCtx c x).keys = s.keys := rfl
@[simp] theorem State.setCtx_fuses (c : Nat) (x : Context) : (s.setCtx c x).fuses = s.fuses := rfl
@[simp] theorem State.setCtx_attest (c : Nat) (x : Context) : (s.setCtx c x).attest = s.attest := rfl
@[simp] theorem State.setCtx_lastSig (c : Nat) (x : Context) : (s.setCtx c x).lastSig = s.lastSig := rfl
@[simp] theorem State.setCtx_spdm (c : Nat) (x : Context) : (s.setCtx c x).spdm = s.spdm := rfl
@[simp] theorem State.setCtx_leave (c : Nat) (x : Context) : (s.setCtx c x).leave = s.leave := rfl
@[simp] theorem State.setCtx_ide (c : Nat) (x : Context) : (s.setCtx c x).ide = s.ide := rfl
@[simp] theorem State.setCtx_doe (c : Nat) (x : Context) : (s.setCtx c x).doe = s.doe := rfl
@[simp] theorem State.setCtx_atc (c : Nat) (x : Context) : (s.setCtx c x).atc = s.atc := rfl
@[simp] theorem State.setCtx_hostOut (c : Nat) (x : Context) : (s.setCtx c x).hostOut = s.hostOut := rfl
@[simp] theorem State.setCtx_hostWait (c : Nat) (x : Context) : (s.setCtx c x).hostWait = s.hostWait := rfl
@[simp] theorem State.setCtx_invals (c : Nat) (x : Context) : (s.setCtx c x).invals = s.invals := rfl
@[simp] theorem State.setCtx_recNow (c : Nat) (x : Context) : (s.setCtx c x).recNow = s.recNow := rfl
@[simp] theorem State.setCtx_recA (c : Nat) (x : Context) : (s.setCtx c x).recA = s.recA := rfl
@[simp] theorem State.setCtx_recB (c : Nat) (x : Context) : (s.setCtx c x).recB = s.recB := rfl
@[simp] theorem State.setCtx_recDue (c : Nat) (x : Context) : (s.setCtx c x).recDue = s.recDue := rfl
@[simp] theorem State.setCtx_units (c : Nat) (x : Context) : (s.setCtx c x).units = s.units := rfl
@[simp] theorem State.setCtx_flash (c : Nat) (x : Context) : (s.setCtx c x).flash = s.flash := rfl
@[simp] theorem State.setCtx_meas (c : Nat) (x : Context) : (s.setCtx c x).meas = s.meas := rfl
@[simp] theorem State.setCtx_certs (c : Nat) (x : Context) : (s.setCtx c x).certs = s.certs := rfl
@[simp] theorem State.setCtx_boot (c : Nat) (x : Context) : (s.setCtx c x).boot = s.boot := rfl
@[simp] theorem State.setCtx_vin48 (c : Nat) (x : Context) : (s.setCtx c x).vin48 = s.vin48 := rfl
@[simp] theorem State.setCtx_degraded (c : Nat) (x : Context) : (s.setCtx c x).degraded = s.degraded := rfl
@[simp] theorem State.setCtx_power (c : Nat) (x : Context) : (s.setCtx c x).power = s.power := rfl
@[simp] theorem State.setCtx_fwu (c : Nat) (x : Context) : (s.setCtx c x).fwu = s.fwu := rfl
@[simp] theorem State.setCtx_niDrops (c : Nat) (x : Context) : (s.setCtx c x).niDrops = s.niDrops := rfl
@[simp] theorem State.setCtx_hostHeld (c : Nat) (x : Context) : (s.setCtx c x).hostHeld = s.hostHeld := rfl
@[simp] theorem State.setCtx_retrain (c : Nat) (x : Context) : (s.setCtx c x).retrain = s.retrain := rfl
@[simp] theorem State.setCtx_pcieHeld (c : Nat) (x : Context) : (s.setCtx c x).pcieHeld = s.pcieHeld := rfl
@[simp] theorem State.setCtx_out (c : Nat) (x : Context) : (s.setCtx c x).out = s.out := rfl
@[simp] theorem State.setCtx_free (c : Nat) (x : Context) : (s.setCtx c x).free = s.free := rfl
@[simp] theorem State.setCtx_tick (c : Nat) (x : Context) : (s.setCtx c x).tick = s.tick := rfl

/-! ### modFn -/

@[simp] theorem State.modFn_pending (n : Nat) (f : FnSt → FnSt) : (s.modFn n f).pending = s.pending := rfl
@[simp] theorem State.modFn_regs (n : Nat) (f : FnSt → FnSt) : (s.modFn n f).regs = s.regs := rfl
@[simp] theorem State.modFn_shadow (n : Nat) (f : FnSt → FnSt) : (s.modFn n f).shadow = s.shadow := rfl
@[simp] theorem State.modFn_commits (n : Nat) (f : FnSt → FnSt) : (s.modFn n f).commits = s.commits := rfl
@[simp] theorem State.modFn_mem (n : Nat) (f : FnSt → FnSt) : (s.modFn n f).mem = s.mem := rfl
@[simp] theorem State.modFn_spm (n : Nat) (f : FnSt → FnSt) : (s.modFn n f).spm = s.spm := rfl
@[simp] theorem State.modFn_threads (n : Nat) (f : FnSt → FnSt) : (s.modFn n f).threads = s.threads := rfl
@[simp] theorem State.modFn_cores (n : Nat) (f : FnSt → FnSt) : (s.modFn n f).cores = s.cores := rfl
@[simp] theorem State.modFn_launches (n : Nat) (f : FnSt → FnSt) : (s.modFn n f).launches = s.launches := rfl
@[simp] theorem State.modFn_sections (n : Nat) (f : FnSt → FnSt) : (s.modFn n f).sections = s.sections := rfl
@[simp] theorem State.modFn_ships (n : Nat) (f : FnSt → FnSt) : (s.modFn n f).ships = s.ships := rfl
@[simp] theorem State.modFn_dir (n : Nat) (f : FnSt → FnSt) : (s.modFn n f).dir = s.dir := rfl
@[simp] theorem State.modFn_waitq (n : Nat) (f : FnSt → FnSt) : (s.modFn n f).waitq = s.waitq := rfl
@[simp] theorem State.modFn_slots (n : Nat) (f : FnSt → FnSt) : (s.modFn n f).slots = s.slots := rfl
@[simp] theorem State.modFn_net (n : Nat) (f : FnSt → FnSt) : (s.modFn n f).net = s.net := rfl
@[simp] theorem State.modFn_toks (n : Nat) (f : FnSt → FnSt) : (s.modFn n f).toks = s.toks := rfl
@[simp] theorem State.modFn_routers (n : Nat) (f : FnSt → FnSt) : (s.modFn n f).routers = s.routers := rfl
@[simp] theorem State.modFn_tables (n : Nat) (f : FnSt → FnSt) : (s.modFn n f).tables = s.tables := rfl
@[simp] theorem State.modFn_engSleep (n : Nat) (f : FnSt → FnSt) : (s.modFn n f).engSleep = s.engSleep := rfl
@[simp] theorem State.modFn_engHeld (n : Nat) (f : FnSt → FnSt) : (s.modFn n f).engHeld = s.engHeld := rfl
@[simp] theorem State.modFn_code (n : Nat) (f : FnSt → FnSt) : (s.modFn n f).code = s.code := rfl
@[simp] theorem State.modFn_stale (n : Nat) (f : FnSt → FnSt) : (s.modFn n f).stale = s.stale := rfl
@[simp] theorem State.modFn_accs (n : Nat) (f : FnSt → FnSt) : (s.modFn n f).accs = s.accs := rfl
@[simp] theorem State.modFn_queues (n : Nat) (f : FnSt → FnSt) : (s.modFn n f).queues = s.queues := rfl
@[simp] theorem State.modFn_groups (n : Nat) (f : FnSt → FnSt) : (s.modFn n f).groups = s.groups := rfl
@[simp] theorem State.modFn_ctxs (n : Nat) (f : FnSt → FnSt) : (s.modFn n f).ctxs = s.ctxs := rfl
@[simp] theorem State.modFn_gens (n : Nat) (f : FnSt → FnSt) : (s.modFn n f).gens = s.gens := rfl
@[simp] theorem State.modFn_objs (n : Nat) (f : FnSt → FnSt) : (s.modFn n f).objs = s.objs := rfl
@[simp] theorem State.modFn_fences (n : Nat) (f : FnSt → FnSt) : (s.modFn n f).fences = s.fences := rfl
@[simp] theorem State.modFn_seqs (n : Nat) (f : FnSt → FnSt) : (s.modFn n f).seqs = s.seqs := rfl
@[simp] theorem State.modFn_cad (n : Nat) (f : FnSt → FnSt) : (s.modFn n f).cad = s.cad := rfl
@[simp] theorem State.modFn_batches (n : Nat) (f : FnSt → FnSt) : (s.modFn n f).batches = s.batches := rfl
@[simp] theorem State.modFn_orders (n : Nat) (f : FnSt → FnSt) : (s.modFn n f).orders = s.orders := rfl
@[simp] theorem State.modFn_freeing (n : Nat) (f : FnSt → FnSt) : (s.modFn n f).freeing = s.freeing := rfl
@[simp] theorem State.modFn_parcels (n : Nat) (f : FnSt → FnSt) : (s.modFn n f).parcels = s.parcels := rfl
@[simp] theorem State.modFn_eases (n : Nat) (f : FnSt → FnSt) : (s.modFn n f).eases = s.eases := rfl
@[simp] theorem State.modFn_fnEvents (n : Nat) (f : FnSt → FnSt) : (s.modFn n f).fnEvents = s.fnEvents := rfl
@[simp] theorem State.modFn_fns (n : Nat) (f : FnSt → FnSt) : (s.modFn n f).fns = s.fns.set n (f (s.fn n)) := rfl
@[simp] theorem State.modFn_sites (n : Nat) (f : FnSt → FnSt) : (s.modFn n f).sites = s.sites := rfl
@[simp] theorem State.modFn_siteCfgs (n : Nat) (f : FnSt → FnSt) : (s.modFn n f).siteCfgs = s.siteCfgs := rfl
@[simp] theorem State.modFn_poison (n : Nat) (f : FnSt → FnSt) : (s.modFn n f).poison = s.poison := rfl
@[simp] theorem State.modFn_badBursts (n : Nat) (f : FnSt → FnSt) : (s.modFn n f).badBursts = s.badBursts := rfl
@[simp] theorem State.modFn_errlog (n : Nat) (f : FnSt → FnSt) : (s.modFn n f).errlog = s.errlog := rfl
@[simp] theorem State.modFn_starts (n : Nat) (f : FnSt → FnSt) : (s.modFn n f).starts = s.starts := rfl
@[simp] theorem State.modFn_traceSeq (n : Nat) (f : FnSt → FnSt) : (s.modFn n f).traceSeq = s.traceSeq := rfl
@[simp] theorem State.modFn_keys (n : Nat) (f : FnSt → FnSt) : (s.modFn n f).keys = s.keys := rfl
@[simp] theorem State.modFn_fuses (n : Nat) (f : FnSt → FnSt) : (s.modFn n f).fuses = s.fuses := rfl
@[simp] theorem State.modFn_attest (n : Nat) (f : FnSt → FnSt) : (s.modFn n f).attest = s.attest := rfl
@[simp] theorem State.modFn_lastSig (n : Nat) (f : FnSt → FnSt) : (s.modFn n f).lastSig = s.lastSig := rfl
@[simp] theorem State.modFn_spdm (n : Nat) (f : FnSt → FnSt) : (s.modFn n f).spdm = s.spdm := rfl
@[simp] theorem State.modFn_leave (n : Nat) (f : FnSt → FnSt) : (s.modFn n f).leave = s.leave := rfl
@[simp] theorem State.modFn_ide (n : Nat) (f : FnSt → FnSt) : (s.modFn n f).ide = s.ide := rfl
@[simp] theorem State.modFn_doe (n : Nat) (f : FnSt → FnSt) : (s.modFn n f).doe = s.doe := rfl
@[simp] theorem State.modFn_atc (n : Nat) (f : FnSt → FnSt) : (s.modFn n f).atc = s.atc := rfl
@[simp] theorem State.modFn_hostOut (n : Nat) (f : FnSt → FnSt) : (s.modFn n f).hostOut = s.hostOut := rfl
@[simp] theorem State.modFn_hostWait (n : Nat) (f : FnSt → FnSt) : (s.modFn n f).hostWait = s.hostWait := rfl
@[simp] theorem State.modFn_invals (n : Nat) (f : FnSt → FnSt) : (s.modFn n f).invals = s.invals := rfl
@[simp] theorem State.modFn_recNow (n : Nat) (f : FnSt → FnSt) : (s.modFn n f).recNow = s.recNow := rfl
@[simp] theorem State.modFn_recA (n : Nat) (f : FnSt → FnSt) : (s.modFn n f).recA = s.recA := rfl
@[simp] theorem State.modFn_recB (n : Nat) (f : FnSt → FnSt) : (s.modFn n f).recB = s.recB := rfl
@[simp] theorem State.modFn_recDue (n : Nat) (f : FnSt → FnSt) : (s.modFn n f).recDue = s.recDue := rfl
@[simp] theorem State.modFn_units (n : Nat) (f : FnSt → FnSt) : (s.modFn n f).units = s.units := rfl
@[simp] theorem State.modFn_flash (n : Nat) (f : FnSt → FnSt) : (s.modFn n f).flash = s.flash := rfl
@[simp] theorem State.modFn_meas (n : Nat) (f : FnSt → FnSt) : (s.modFn n f).meas = s.meas := rfl
@[simp] theorem State.modFn_certs (n : Nat) (f : FnSt → FnSt) : (s.modFn n f).certs = s.certs := rfl
@[simp] theorem State.modFn_boot (n : Nat) (f : FnSt → FnSt) : (s.modFn n f).boot = s.boot := rfl
@[simp] theorem State.modFn_vin48 (n : Nat) (f : FnSt → FnSt) : (s.modFn n f).vin48 = s.vin48 := rfl
@[simp] theorem State.modFn_degraded (n : Nat) (f : FnSt → FnSt) : (s.modFn n f).degraded = s.degraded := rfl
@[simp] theorem State.modFn_power (n : Nat) (f : FnSt → FnSt) : (s.modFn n f).power = s.power := rfl
@[simp] theorem State.modFn_fwu (n : Nat) (f : FnSt → FnSt) : (s.modFn n f).fwu = s.fwu := rfl
@[simp] theorem State.modFn_niDrops (n : Nat) (f : FnSt → FnSt) : (s.modFn n f).niDrops = s.niDrops := rfl
@[simp] theorem State.modFn_hostHeld (n : Nat) (f : FnSt → FnSt) : (s.modFn n f).hostHeld = s.hostHeld := rfl
@[simp] theorem State.modFn_retrain (n : Nat) (f : FnSt → FnSt) : (s.modFn n f).retrain = s.retrain := rfl
@[simp] theorem State.modFn_pcieHeld (n : Nat) (f : FnSt → FnSt) : (s.modFn n f).pcieHeld = s.pcieHeld := rfl
@[simp] theorem State.modFn_out (n : Nat) (f : FnSt → FnSt) : (s.modFn n f).out = s.out := rfl
@[simp] theorem State.modFn_free (n : Nat) (f : FnSt → FnSt) : (s.modFn n f).free = s.free := rfl
@[simp] theorem State.modFn_tick (n : Nat) (f : FnSt → FnSt) : (s.modFn n f).tick = s.tick := rfl

/-! ### modSite -/

@[simp] theorem State.modSite_pending (n : Nat) (f : SiteSt → SiteSt) : (s.modSite n f).pending = s.pending := rfl
@[simp] theorem State.modSite_regs (n : Nat) (f : SiteSt → SiteSt) : (s.modSite n f).regs = s.regs := rfl
@[simp] theorem State.modSite_shadow (n : Nat) (f : SiteSt → SiteSt) : (s.modSite n f).shadow = s.shadow := rfl
@[simp] theorem State.modSite_commits (n : Nat) (f : SiteSt → SiteSt) : (s.modSite n f).commits = s.commits := rfl
@[simp] theorem State.modSite_mem (n : Nat) (f : SiteSt → SiteSt) : (s.modSite n f).mem = s.mem := rfl
@[simp] theorem State.modSite_spm (n : Nat) (f : SiteSt → SiteSt) : (s.modSite n f).spm = s.spm := rfl
@[simp] theorem State.modSite_threads (n : Nat) (f : SiteSt → SiteSt) : (s.modSite n f).threads = s.threads := rfl
@[simp] theorem State.modSite_cores (n : Nat) (f : SiteSt → SiteSt) : (s.modSite n f).cores = s.cores := rfl
@[simp] theorem State.modSite_launches (n : Nat) (f : SiteSt → SiteSt) : (s.modSite n f).launches = s.launches := rfl
@[simp] theorem State.modSite_sections (n : Nat) (f : SiteSt → SiteSt) : (s.modSite n f).sections = s.sections := rfl
@[simp] theorem State.modSite_ships (n : Nat) (f : SiteSt → SiteSt) : (s.modSite n f).ships = s.ships := rfl
@[simp] theorem State.modSite_dir (n : Nat) (f : SiteSt → SiteSt) : (s.modSite n f).dir = s.dir := rfl
@[simp] theorem State.modSite_waitq (n : Nat) (f : SiteSt → SiteSt) : (s.modSite n f).waitq = s.waitq := rfl
@[simp] theorem State.modSite_slots (n : Nat) (f : SiteSt → SiteSt) : (s.modSite n f).slots = s.slots := rfl
@[simp] theorem State.modSite_net (n : Nat) (f : SiteSt → SiteSt) : (s.modSite n f).net = s.net := rfl
@[simp] theorem State.modSite_toks (n : Nat) (f : SiteSt → SiteSt) : (s.modSite n f).toks = s.toks := rfl
@[simp] theorem State.modSite_routers (n : Nat) (f : SiteSt → SiteSt) : (s.modSite n f).routers = s.routers := rfl
@[simp] theorem State.modSite_tables (n : Nat) (f : SiteSt → SiteSt) : (s.modSite n f).tables = s.tables := rfl
@[simp] theorem State.modSite_engSleep (n : Nat) (f : SiteSt → SiteSt) : (s.modSite n f).engSleep = s.engSleep := rfl
@[simp] theorem State.modSite_engHeld (n : Nat) (f : SiteSt → SiteSt) : (s.modSite n f).engHeld = s.engHeld := rfl
@[simp] theorem State.modSite_code (n : Nat) (f : SiteSt → SiteSt) : (s.modSite n f).code = s.code := rfl
@[simp] theorem State.modSite_stale (n : Nat) (f : SiteSt → SiteSt) : (s.modSite n f).stale = s.stale := rfl
@[simp] theorem State.modSite_accs (n : Nat) (f : SiteSt → SiteSt) : (s.modSite n f).accs = s.accs := rfl
@[simp] theorem State.modSite_queues (n : Nat) (f : SiteSt → SiteSt) : (s.modSite n f).queues = s.queues := rfl
@[simp] theorem State.modSite_groups (n : Nat) (f : SiteSt → SiteSt) : (s.modSite n f).groups = s.groups := rfl
@[simp] theorem State.modSite_ctxs (n : Nat) (f : SiteSt → SiteSt) : (s.modSite n f).ctxs = s.ctxs := rfl
@[simp] theorem State.modSite_gens (n : Nat) (f : SiteSt → SiteSt) : (s.modSite n f).gens = s.gens := rfl
@[simp] theorem State.modSite_objs (n : Nat) (f : SiteSt → SiteSt) : (s.modSite n f).objs = s.objs := rfl
@[simp] theorem State.modSite_fences (n : Nat) (f : SiteSt → SiteSt) : (s.modSite n f).fences = s.fences := rfl
@[simp] theorem State.modSite_seqs (n : Nat) (f : SiteSt → SiteSt) : (s.modSite n f).seqs = s.seqs := rfl
@[simp] theorem State.modSite_cad (n : Nat) (f : SiteSt → SiteSt) : (s.modSite n f).cad = s.cad := rfl
@[simp] theorem State.modSite_batches (n : Nat) (f : SiteSt → SiteSt) : (s.modSite n f).batches = s.batches := rfl
@[simp] theorem State.modSite_orders (n : Nat) (f : SiteSt → SiteSt) : (s.modSite n f).orders = s.orders := rfl
@[simp] theorem State.modSite_freeing (n : Nat) (f : SiteSt → SiteSt) : (s.modSite n f).freeing = s.freeing := rfl
@[simp] theorem State.modSite_parcels (n : Nat) (f : SiteSt → SiteSt) : (s.modSite n f).parcels = s.parcels := rfl
@[simp] theorem State.modSite_eases (n : Nat) (f : SiteSt → SiteSt) : (s.modSite n f).eases = s.eases := rfl
@[simp] theorem State.modSite_fnEvents (n : Nat) (f : SiteSt → SiteSt) : (s.modSite n f).fnEvents = s.fnEvents := rfl
@[simp] theorem State.modSite_fns (n : Nat) (f : SiteSt → SiteSt) : (s.modSite n f).fns = s.fns := rfl
@[simp] theorem State.modSite_sites (n : Nat) (f : SiteSt → SiteSt) : (s.modSite n f).sites = s.sites.set n (f (s.site n)) := rfl
@[simp] theorem State.modSite_siteCfgs (n : Nat) (f : SiteSt → SiteSt) : (s.modSite n f).siteCfgs = s.siteCfgs := rfl
@[simp] theorem State.modSite_poison (n : Nat) (f : SiteSt → SiteSt) : (s.modSite n f).poison = s.poison := rfl
@[simp] theorem State.modSite_badBursts (n : Nat) (f : SiteSt → SiteSt) : (s.modSite n f).badBursts = s.badBursts := rfl
@[simp] theorem State.modSite_errlog (n : Nat) (f : SiteSt → SiteSt) : (s.modSite n f).errlog = s.errlog := rfl
@[simp] theorem State.modSite_starts (n : Nat) (f : SiteSt → SiteSt) : (s.modSite n f).starts = s.starts := rfl
@[simp] theorem State.modSite_traceSeq (n : Nat) (f : SiteSt → SiteSt) : (s.modSite n f).traceSeq = s.traceSeq := rfl
@[simp] theorem State.modSite_keys (n : Nat) (f : SiteSt → SiteSt) : (s.modSite n f).keys = s.keys := rfl
@[simp] theorem State.modSite_fuses (n : Nat) (f : SiteSt → SiteSt) : (s.modSite n f).fuses = s.fuses := rfl
@[simp] theorem State.modSite_attest (n : Nat) (f : SiteSt → SiteSt) : (s.modSite n f).attest = s.attest := rfl
@[simp] theorem State.modSite_lastSig (n : Nat) (f : SiteSt → SiteSt) : (s.modSite n f).lastSig = s.lastSig := rfl
@[simp] theorem State.modSite_spdm (n : Nat) (f : SiteSt → SiteSt) : (s.modSite n f).spdm = s.spdm := rfl
@[simp] theorem State.modSite_leave (n : Nat) (f : SiteSt → SiteSt) : (s.modSite n f).leave = s.leave := rfl
@[simp] theorem State.modSite_ide (n : Nat) (f : SiteSt → SiteSt) : (s.modSite n f).ide = s.ide := rfl
@[simp] theorem State.modSite_doe (n : Nat) (f : SiteSt → SiteSt) : (s.modSite n f).doe = s.doe := rfl
@[simp] theorem State.modSite_atc (n : Nat) (f : SiteSt → SiteSt) : (s.modSite n f).atc = s.atc := rfl
@[simp] theorem State.modSite_hostOut (n : Nat) (f : SiteSt → SiteSt) : (s.modSite n f).hostOut = s.hostOut := rfl
@[simp] theorem State.modSite_hostWait (n : Nat) (f : SiteSt → SiteSt) : (s.modSite n f).hostWait = s.hostWait := rfl
@[simp] theorem State.modSite_invals (n : Nat) (f : SiteSt → SiteSt) : (s.modSite n f).invals = s.invals := rfl
@[simp] theorem State.modSite_recNow (n : Nat) (f : SiteSt → SiteSt) : (s.modSite n f).recNow = s.recNow := rfl
@[simp] theorem State.modSite_recA (n : Nat) (f : SiteSt → SiteSt) : (s.modSite n f).recA = s.recA := rfl
@[simp] theorem State.modSite_recB (n : Nat) (f : SiteSt → SiteSt) : (s.modSite n f).recB = s.recB := rfl
@[simp] theorem State.modSite_recDue (n : Nat) (f : SiteSt → SiteSt) : (s.modSite n f).recDue = s.recDue := rfl
@[simp] theorem State.modSite_units (n : Nat) (f : SiteSt → SiteSt) : (s.modSite n f).units = s.units := rfl
@[simp] theorem State.modSite_flash (n : Nat) (f : SiteSt → SiteSt) : (s.modSite n f).flash = s.flash := rfl
@[simp] theorem State.modSite_meas (n : Nat) (f : SiteSt → SiteSt) : (s.modSite n f).meas = s.meas := rfl
@[simp] theorem State.modSite_certs (n : Nat) (f : SiteSt → SiteSt) : (s.modSite n f).certs = s.certs := rfl
@[simp] theorem State.modSite_boot (n : Nat) (f : SiteSt → SiteSt) : (s.modSite n f).boot = s.boot := rfl
@[simp] theorem State.modSite_vin48 (n : Nat) (f : SiteSt → SiteSt) : (s.modSite n f).vin48 = s.vin48 := rfl
@[simp] theorem State.modSite_degraded (n : Nat) (f : SiteSt → SiteSt) : (s.modSite n f).degraded = s.degraded := rfl
@[simp] theorem State.modSite_power (n : Nat) (f : SiteSt → SiteSt) : (s.modSite n f).power = s.power := rfl
@[simp] theorem State.modSite_fwu (n : Nat) (f : SiteSt → SiteSt) : (s.modSite n f).fwu = s.fwu := rfl
@[simp] theorem State.modSite_niDrops (n : Nat) (f : SiteSt → SiteSt) : (s.modSite n f).niDrops = s.niDrops := rfl
@[simp] theorem State.modSite_hostHeld (n : Nat) (f : SiteSt → SiteSt) : (s.modSite n f).hostHeld = s.hostHeld := rfl
@[simp] theorem State.modSite_retrain (n : Nat) (f : SiteSt → SiteSt) : (s.modSite n f).retrain = s.retrain := rfl
@[simp] theorem State.modSite_pcieHeld (n : Nat) (f : SiteSt → SiteSt) : (s.modSite n f).pcieHeld = s.pcieHeld := rfl
@[simp] theorem State.modSite_out (n : Nat) (f : SiteSt → SiteSt) : (s.modSite n f).out = s.out := rfl
@[simp] theorem State.modSite_free (n : Nat) (f : SiteSt → SiteSt) : (s.modSite n f).free = s.free := rfl
@[simp] theorem State.modSite_tick (n : Nat) (f : SiteSt → SiteSt) : (s.modSite n f).tick = s.tick := rfl

end Sys2Proof.Machine
end

