-- ==== Sys2Proof/Laws/Threads.lean ====
section
/-! SUPPORT. What the issue of an instruction does, once for every instruction that only writes registers. -/

namespace Sys2Proof.Machine

@[simp] theorem State.setThread_get? (s : State) (t : Nat) (x : Thread) : (s.setThread t x).threads.get? t = some x := by
  simp [State.setThread]

@[simp] theorem State.setThread_setThread (s : State) (t : Nat) (x y : Thread) : (s.setThread t x).setThread t y = s.setThread t y := by
  simp [State.setThread]

/-- A thread that can issue waits for nothing. -/
theorem State.canIssue_wait {s : State} {t : Nat} {th : Thread} (h : s.canIssue t = true) (ht : s.threads.get? t = some th) :
    th.wait = .none := by
  unfold State.canIssue at h
  rw [ht] at h
  simp only [Bool.and_eq_true, beq_iff_eq] at h
  exact h.1.1.1.1.1.1

@[simp] theorem Thread.apply_wait (th : Thread) (e : Eff) : (th.apply e).wait = th.wait := rfl

theorem State.ready.canRun {s : State} {t : Nat} {th : Thread} {u : Uses} (h : s.ready t th u) : s.canRun t th u := ⟨h.1, h.2.1, h.2.2.2⟩

/-- An instruction that breaks no rule runs on its thread. -/
theorem issue_run {s : State} {t : Nat} {th : Thread} {u : Uses} (h : s.canRun t th u) (run : Thread → State → State) :
    issue t none u run s = run th s := by
  obtain ⟨h1, h2, h4⟩ := h
  simp [issue, h1, h2, h4]
theorem issue_ready {s : State} {t : Nat} {th : Thread} {u : Uses} (h : s.ready t th u) (run : Thread → State → State) :
    issue t none u run s = run th s := issue_run (State.ready.canRun h) run

/-- Register writes follow the visibility rule. -/
theorem State.writeRegs_write? {s : State} {t : Nat} {th : Thread} (ht : s.threads.get? t = some th) (e : Eff) :
    s.writeRegs t e = match th.write? e with | some x => s.setThread t x | none => s.setThread t { th with wait := .closure } := by
  unfold State.writeRegs Thread.write?
  rw [ht]
  dsimp only
  split <;> rename_i h
  · simp [h]
  · simp only [h]
    split <;> rfl

/-- What register writes leave of a thread beside its registers. -/
theorem Thread.write?_wait {th x : Thread} {e : Eff} (h : th.write? e = some x) : x.wait = th.wait := by
  unfold Thread.write? at h
  split at h
  · cases h; rfl
  · split at h
    · cases h; rfl
    · cases h
theorem Thread.write?_pc {th x : Thread} {e : Eff} (h : th.write? e = some x) : x.pc = e.pc.getD th.pc := by
  unfold Thread.write? at h
  split at h
  · cases h; rfl
  · split at h
    · cases h; rfl
    · cases h
theorem Thread.write?_spec {th : Thread} (h : th.spec = none) (e : Eff) : th.write? e = some (th.apply e) := by
  simp [Thread.write?, h]

/-- An instruction that breaks an encoding rule takes its fault; LOCAL_RANGE is not one of them. -/
theorem issue_code {s : State} {t : Nat} {th : Thread} (h : s.canIssue t = true) (ht : s.threads.get? t = some th) (c : Nat)
    (hc : c ≠ 0x14) (u : Uses) (run : Thread → State → State) : issue t (some c) u run s = s.encFault t c := by
  simp [issue, h, ht, hc]

/-- A register instruction makes its writes and moves on. -/
theorem regInstr_ready {s : State} {t : Nat} {th : Thread} {u : Uses} (h : s.canRun t th u) (n : Nat) (f : Thread → Eff)
    (hp : (f th).pc = none) : regInstr t n none u f s = s.wrote t th (f th) n := by
  have hw := State.canIssue_wait h.1 h.2.1
  unfold regInstr
  rw [issue_run h]
  simp only [State.writeRegs_write? h.2.1, State.wrote, State.wroteAt]
  cases hx : th.write? (f th) with
  | none => simp [State.waits]
  | some x =>
    have h1 := Thread.write?_wait hx
    have h2 := Thread.write?_pc hx
    simp [State.waits, h1, hw, hp, State.advance, State.modThread, h2]

/-- The same, once its encoding check has answered. -/
theorem regInstr_ok {s : State} {t : Nat} {th : Thread} {u : Uses} {code : Option Nat} (h : s.canRun t th u) (hc : code = none)
    (n : Nat) (f : Thread → Eff) (hp : (f th).pc = none) : regInstr t n code u f s = s.wrote t th (f th) n := by
  subst hc; exact regInstr_ready h n f hp

/-- An accumulator instruction of a thread with settled accumulators. -/
theorem accInstr_ok {s : State} {t : Nat} {th : Thread} {u : Uses} {code : Option Nat} (h : s.canRun t th u) (ha : s.settledAcc t th)
    (hc : code = none) (n : Nat) (f : Thread → Eff) (hp : (f th).pc = none) : accInstr t n code u f s = s.wrote t th (f th) n := by
  subst hc
  have hd : s.drain t = s := by simp [State.drain, h.2.1, ha.2]
  simp [accInstr, State.macIdle, ha.1, h.1, hd, State.onThread, h.2.1, h.2.2, regInstr_ready h n f hp]

end Sys2Proof.Machine
end

