-- ==== Sys2Proof/Laws/Translate.lean ====
section
/-! SUPPORT. A translation that succeeds changes the translation caches, counters and the count of free values: threads, accesses, contexts
and memory stay. -/

namespace Sys2Proof.Machine

/-- The parts of the state that a translation leaves alone. -/
def State.beside (s : State) : Tbl Thread × Tbl Acc × Tbl Context × Memory × Memory × Tbl Launch × Tbl SectionSt × Tbl CoreSt :=
  (s.threads, s.accs, s.ctxs, s.mem, s.spm, s.launches, s.sections, s.cores)

theorem State.booked_beside {s t : State} (h : s.booked t) : t.beside = s.beside := by
  obtain ⟨_, _, _, _, _, _, _, _, _, _, rfl⟩ := h; rfl

theorem State.keepTlb_beside (s : State) (t : Nat) (e : Tlb) : (s.keepTlb t e).beside = s.beside := rfl

theorem State.translate_beside (s : State) (cn : Nat) (c : Context) (t pva acc : Nat) :
    (s.translate cn c t pva acc).2.beside = s.beside := by
  unfold State.translate State.flip
  dsimp only
  split
  · rfl
  · split
    · exact (State.booked_beside (State.countWalk_booked _ _ _ _ _)).trans rfl
    · split
      · exact (State.booked_beside (State.countWalk_booked _ _ _ _ _)).trans rfl
      · exact (State.keepTlb_beside _ _ _).trans ((State.booked_beside (State.countWalk_booked _ _ _ _ _)).trans rfl)

theorem State.translateAcc_beside {s s1 : State} {cn : Nat} {c : Context} {t pva acc : Nat} {x : Xlat}
    (h : s.translateAcc cn c t pva acc = (.ok x, s1)) : s1.beside = s.beside := by
  have key := s.translate_beside cn c t pva acc
  unfold State.translateAcc at h
  split at h
  · cases h
  · rename_i eq
    cases h
    rwa [eq] at key

/-- Parts placed: what the walk of their addresses leaves alone. -/
theorem State.placeBytes_beside {s s1 : State} {cn : Nat} {c : Context} {t acc k pva len : Nat} {ps : List Part}
    (h : s.placeBytes cn c t acc k pva len = (.ok ps, s1)) : s1.beside = s.beside := by
  fun_induction State.placeBytes s cn c t acc k pva len generalizing ps s1
  all_goals grind [State.translateAcc_beside]

theorem State.placeBytes_threads {s s1 : State} {cn : Nat} {c : Context} {t acc k pva len : Nat} {ps : List Part}
    (h : s.placeBytes cn c t acc k pva len = (.ok ps, s1)) : s1.threads = s.threads :=
  congrArg Prod.fst (State.placeBytes_beside h)

end Sys2Proof.Machine
end

