-- ==== Sys2Proof/Tests/Threads.lean ====
section
/-! SUPPORT. Tests of thread instructions, and states that meet the hypotheses of the statements about them. -/

namespace Sys2Proof.Tests

set_option Elab.async false
open Sys2Proof Sys2Proof.Machine

/-! ### Small states -/

/-- A thread with s1 = 7, s2 = 40, s3 = 0x80000001. -/
def th0 : Thread :=
  { launch := 0, ctx := 5, s := [0, 7, 40, 0x80000001, 0, 0, 0, 0, 0, 0, 0, 0, 0, 0, 0, 0],
    v := [VReg.zero, VReg.zero, VReg.zero, VReg.zero], a := List.replicate 16 0, prods := [], p := 0b0010, pc := 0x1000, gen := 1, spec := none,
    wait := .none, pend := [] }

/-- A placed launch of one thread on township 0. -/
def launch0 : Launch :=
  { queue := 3, idx := 0, ctx := 5, parcel := 0, prio := 0, order := 0, gt := 1, gs := 1, gc := 1, gh := 1, mask := none, entry := 0x1000, args := 0,
    seed := 0, seq := 0, tol := false, disp := none, gather := none, st := .placed, ships := [0], start := 0, ended := [], closedTo := 0,
    signalled := 0, dropped := 0, spilled := 0, poisoned := 0, starved := false }

/-- A live context 5 of parcel 0 and function 1, with its page table at PPA 0. -/
def ctx0 : Context :=
  { gen := 2, parcel := 0, fn := 1, pasid := 9, root := 0, host := 0, event := none, st := .live, fault := none, later := 0, holds := [], xinv := 0 }

/-- A state in which thread 0 can issue. -/
def run0 : State := { State.reset with threads := [(0, th0)], launches := [(0, launch0)], ctxs := [(5, ctx0)] }

/-- The fields of a word: d = 4, a = 1, b = 2. -/
def fA : FmtA := ⟨4, 1, 2, 0⟩
def zA : FmtA := ⟨0, 0, 0, 0⟩
def zI : FmtI := ⟨0, 0, 0, 0⟩
def zM : FmtM := ⟨0, 0, 0, 0⟩
def zE : FmtE := ⟨0, 0, 0, 0, 0⟩

/-- The state that a meaning goes on with. -/
def after (s : State) (o : Host.Outcome State Fault Refusal) : State := match o with | .next t => t | _ => s

/-- An answered read of a row of the scratchpad for thread 0: its local address and its bytes, which are zero. -/
def rowAcc (loc n : Nat) (dst : LoadDst) : Acc :=
  { thread := 0, launch := 0, ctx := 5, ship := 0, tag := 0, prio := 0, pva := loc, base := loc, op := .load dst, ctr := 0, acq := false, spec := false,
    tol := false, seen := [], parts := [⟨loc, 0, n, .pad, some 0⟩], st := .done }

/-! ### Thread instructions -/

theorem witness_StepRunsTheFrontCommand : ({ State.reset with pending := [.pfFlr, .snap] } : State).pending = .pfFlr :: [.snap] ∧ State.reset.pending = [] := by decide

theorem witness_RegisterFileReadsWhatIsWritten : th0.s.length = 16 ∧ 15 < 16 ∧ 14 % 2 = 0 ∧ (2 ^ 64 - 1 : Nat) < 2 ^ 64 ∧ 3 < 4 := by decide

theorem witness_ScalarIntegerInstructions :
    run0.ready 0 th0 [.s fA.a.toNat, .s fA.b.toNat, .s fA.d.toNat] ∧ fA.md = 0 ∧
    (let f : FmtI := ⟨4, 3, 0, 0b10000000011111⟩
     run0.ready 0 th0 [.s f.a.toNat, .s f.d.toNat] ∧ f.b = 0 ∧ fld f.imm.toNat 11 5 = 0 ∧ fld f.imm.toNat 13 12 = 2) ∧
    (let f : FmtI := ⟨4, 3, 0, 0b01000000011111⟩
     fld f.imm.toNat 11 5 = 0 ∧ fld f.imm.toNat 13 12 = 1) ∧
    (let f : FmtI := ⟨4, 3, 0, 31⟩
     fld f.imm.toNat 11 5 = 0 ∧ fld f.imm.toNat 13 12 = 0) ∧
    (let f : FmtE := ⟨15, 0, 0, 0, 0xFFFFFFFF⟩
     run0.ready 0 th0 [.s f.d.toNat] ∧ f.a = 0 ∧ f.b = 0 ∧ f.imm = 0) := by decide +kernel

/-- Table 03-4: add, sub, mulh, sra and minu on 7, 40 and 0x80000001. -/
theorem test_scalar_integer :
    let r (i : Instr) : Option W32 := ((after run0 (exec i run0)).threads.get? 0).map (fun th => th.sr 4)
    r (.add 0 fA) = some 47 ∧ r (.sub 0 fA) = some 0xFFFFFFDF ∧ r (.mulh 0 ⟨4, 3, 2, 0⟩) = some 0xFFFFFFEC ∧
    r (.sra 0 ⟨4, 3, 1, 0⟩) = some 0xFF000000 ∧ r (.minu 0 ⟨4, 3, 2, 0⟩) = some 40 := by decide +kernel

/-- Scalar s0 discards a write, and the program counter moves on. -/
theorem test_s0_discards : ((after run0 (exec (.add 0 ⟨0, 1, 2, 0⟩) run0)).threads.get? 0).map (fun th => (th.sr 0, th.pc)) = some (0, 0x1004) := by
  decide +kernel

theorem witness_PredicateInstructions :
    run0.ready 0 th0 [.s fA.a.toNat, .s fA.b.toNat, .p 3] ∧ cmpCond 0x02 (th0.sr 1) (th0.sr 2) = some true ∧
    (let f : FmtI := ⟨3, 1, 5, 7⟩
     run0.ready 0 th0 [.s f.a.toNat, .p f.d.toNat] ∧ f.d.toNat < 4 ∧ f.b.toNat < 6 ∧ cmpCond f.b.toNat (th0.sr f.a.toNat) (f.imm.signExtend 32) = some true) ∧
    (let f : FmtA := ⟨3, 1, 3, 0⟩
     run0.ready 0 th0 [.p f.a.toNat, .p f.b.toNat, .p f.d.toNat] ∧ f.d.toNat < 4 ∧ f.a.toNat < 4 ∧ f.b.toNat < 4 ∧ f.md = 0) ∧
    (let f : FmtA := ⟨3, 0, 0, 0⟩
     run0.ready 0 th0 [.p f.a.toNat, .p f.b.toNat, .p f.d.toNat] ∧ f.a = 0 ∧ f.b = 0) ∧
    (let f : FmtA := ⟨4, 1, 2, 5⟩
     run0.ready 0 th0 [.s f.a.toNat, .s f.b.toNat, .s f.d.toNat, .p (fld f.md.toNat 1 0)] ∧ fld f.md.toNat 7 3 = 0) := by decide +kernel

theorem witness_ScalarFloatInstructions : run0.ready 0 th0 [.s fA.a.toNat, .s fA.b.toNat, .s fA.d.toNat] ∧ fA.md = 0 ∧
    run0.ready 0 th0 [.s 1, .s 0, .s 4] ∧ (⟨4, 1, 0, 0⟩ : FmtA).b = 0 := by decide +kernel

/-- 1.5 + 2.25 = 3.75 and the fused 1.5 × 2.25 + 1.5 = 4.875 (R116). -/
theorem test_scalar_float : f32Add 0x3FC00000 0x40100000 = 0x40700000 ∧ f32Fma 0x3FC00000 0x3FC00000 0x40100000 = 0x409C0000 := by decide +kernel

theorem witness_AccumulatorInstructions :
    run0.ready 0 th0 [.v zA.a.toNat, .s zA.a.toNat, .s zA.d.toNat, .v zA.d.toNat] ∧ run0.settledAcc 0 th0 ∧ zA.b = 0 ∧ zA.md = 0 ∧ zA.d = 0 ∧ zA.a = 0 ∧
    (let f : FmtA := ⟨0, 3, 0, 0⟩
     run0.ready 0 th0 [.v f.a.toNat, .s f.a.toNat, .s f.d.toNat, .v f.d.toNat] ∧ f.d = 0 ∧ f.a.toNat < 4) ∧
    (let f : FmtA := ⟨3, 0, 0, 0⟩
     run0.ready 0 th0 [.v f.a.toNat, .s f.a.toNat, .s f.d.toNat, .v f.d.toNat] ∧ f.a = 0 ∧ f.d.toNat < 4) ∧
    (let f : FmtE := ⟨3, 0, 0, 0, 0x31⟩
     run0.ready 0 th0 [.v f.d.toNat] ∧ f.d.toNat < 4 ∧ f.a = 0 ∧ f.b = 0 ∧ f.imm = 0 ∧ fld f.ext.toNat 31 14 = 0 ∧
     ElemFmt.ofCode? (fld f.ext.toNat 3 0) = some .e4m3 ∧ 16 * fld f.ext.toNat 6 4 < ElemFmt.e4m3.count) := by decide +kernel

theorem witness_VectorMovesAndGateLists :
    (let f : FmtA := ⟨3, 3, 0, 0⟩
     run0.ready 0 th0 [.v f.a.toNat, .s f.a.toNat, .v f.d.toNat, .s f.d.toNat] ∧ f.b = 0 ∧ f.md = 0 ∧ f.d.toNat < 4 ∧ f.a.toNat < 4) ∧
    (let f : FmtA := ⟨3, 3, 0, 15⟩
     run0.ready 0 th0 [.v f.a.toNat, .s f.a.toNat, .v f.d.toNat, .s f.d.toNat] ∧ f.md.toNat < 16) ∧
    (let f : FmtA := ⟨3, 0, 0, 0⟩
     run0.ready 0 th0 [.v f.a.toNat, .s f.a.toNat, .v f.d.toNat, .s f.d.toNat] ∧ f.a = 0 ∧ (1 : BitVec 6).toNat < 2) ∧
    (let f : FmtE := ⟨3, 1, 0, 0, 0x108⟩
     run0.ready 0 th0 [.s f.a.toNat, .v f.d.toNat] ∧ run0.settledAcc 0 th0 ∧ f.d.toNat < 4 ∧ f.b = 0 ∧ f.imm = 0 ∧ fld f.ext.toNat 31 10 = 0 ∧
     fld f.ext.toNat 3 0 = 8 ∧ fld f.ext.toNat 8 4 = 16) := by decide +kernel

/-- The same thread as a speculative one that took the record at 0x11C00 in slot 0; its log empty, or full with 64 granules. -/
def spec0 (log : List SpecItem) : Spec := ⟨0, 0, 0x11C00, 0x1000, log, none, none, 0⟩
def thS : Thread := { th0 with spec := some (spec0 []) }
def logFull : List SpecItem := List.replicate 64 (.dret 0x11C00 0 0 0)
def thF : Thread := { th0 with spec := some (spec0 logFull) }
def runS : State := { run0 with threads := [(0, thS)] }
def runF : State := { run0 with threads := [(0, thF)] }

/-- The speculative threads can issue, and the full slot takes no register's old value, no store and no dret. -/
theorem speculative_threads :
    (∀ u ∈ ([[], [.v 0, .s 0, .s 4], [.p 3], usesPair 4 ++ usesPair 6] : List Uses), runS.canRun 0 thS u ∧ runF.canRun 0 thF u) ∧
    thS.spec = some (spec0 []) ∧ thF.spec = some (spec0 logFull) ∧ (thS.write? (Eff.sc 4 1)).isSome = true ∧ thF.write? (Eff.sc 4 1) = none ∧
    logCost (.store true 0x40 64 1 :: logFull) = 69 ∧ logCost [.store true 0x40 64 1] = 5 := by decide +kernel


theorem witness_MacInstructions_speculative :
    let f : FmtE := ⟨0, 0, 3, 0, 0x11⟩
    let u : Uses := [.v f.a.toNat, .v f.b.toNat, .s (fld f.ext.toNat 19 16), .s (fld f.ext.toNat 23 20)]
    runS.canRun 0 thS u ∧ thS.logsAcc = true ∧ thS.prods = [] ∧ (thS.write? (thS.macEff Eff.none)).isSome = true ∧
    runF.canRun 0 thF u ∧ thF.logsAcc = true ∧ thF.prods = [] ∧ thF.write? (thF.macEff Eff.none) = none ∧ th0.logsAcc = false ∧
    (let c : FmtE := ⟨4, 0, 3, 0, 0x11⟩
     let s : State := { runF with accs := [(9, rowAcc 0 16 (.row (some .e4m3)))] }
     s.canRun 0 thF [.s c.a.toNat, .v c.b.toNat, .s c.d.toNat, .s (fld c.ext.toNat 23 20)] ∧
     s.accs.find? (fun e => s.owns 0 e.2 && e.2.isFetch) = some (9, rowAcc 0 16 (.row (some .e4m3))) ∧
     thF.write? (thF.macEff (Eff.sc c.d.toNat 16)) = none ∧ (thS.write? (thS.macEff (Eff.sc c.d.toNat 16))).isSome = true) := by decide +kernel

theorem witness_MacInstructions :
    (let f : FmtE := ⟨0, 0, 3, 0, 0x11⟩
     run0.ready 0 th0 [.v f.a.toNat, .v f.b.toNat, .s (fld f.ext.toNat 19 16), .s (fld f.ext.toNat 23 20)] ∧ (run0.core (coreOf 0)).mac = none ∧
     macForm f ≠ 3 ∧ f.a.toNat < 4 ∧ f.b.toNat < 4 ∧ f.d = 0 ∧ f.imm = 0 ∧ f.ext.toNat.testBit 15 = false ∧ fld f.ext.toNat 31 24 = 0 ∧
     macFmtA f = some .e4m3 ∧ macFmtB f = some .e4m3 ∧ macPairOk .e4m3 .e4m3 (macScaled f) = true ∧ macBadQ (macForm f) (macQ f) = false) ∧
    (let f : FmtE := ⟨4, 0, 3, 0, 0x11⟩
     run0.ready 0 th0 [.s f.a.toNat, .v f.b.toNat, .s f.d.toNat, .s (fld f.ext.toNat 23 20)] ∧ macForm f ≠ 1 ∧
     (th0.sr f.a.toNat).toNat % 2 ^ 17 % 8 = 0 ∧ badLocal 0 (csbGroupLen .e4m3 (fun o n => run0.spRead 0 o n) 0) = false ∧
     run0.accs = [] ∧ run0.padBusy 0 = false ∧ run0.acquiring 0 = false ∧
     let s : State := { run0 with accs := [(9, rowAcc 0 16 (.row (some .e4m3)))] }
     s.ready 0 th0 [.s f.a.toNat, .v f.b.toNat, .s f.d.toNat, .s (fld f.ext.toNat 23 20)] ∧
     s.accs.find? (fun e => s.owns 0 e.2 && e.2.isFetch) = some (9, rowAcc 0 16 (.row (some .e4m3))) ∧ (rowAcc 0 16 (.row (some .e4m3))).st = .done) := by
  decide +kernel

theorem witness_ControlFlowInstructions :
    (let f : FmtI := ⟨0b0101, 0, 0, 0b10000000000000⟩
     run0.ready 0 th0 [.p (f.d.toNat % 4)] ∧ f.a = 0 ∧ f.b = 0) ∧
    (let f : FmtE := ⟨14, 0, 0, 0, 0x80000000⟩
     run0.ready 0 th0 (usesPair f.d.toNat) ∧ f.d.toNat % 2 = 0 ∧ f.a = 0 ∧ f.b = 0 ∧ f.imm = 0) ∧
    (let f : FmtA := ⟨0, 4, 0, 0⟩
     run0.ready 0 th0 (usesPair f.a.toNat) ∧ f.a.toNat % 2 = 0 ∧ f.d = 0 ∧ f.b = 0 ∧ f.md = 0 ∧ th0.pr f.a.toNat % 2 ^ 52 % 4 = 0) ∧
    run0.ready 0 th0 [] ∧ run0.padBusy 0 = false ∧ (run0.ready 0 th0 [.s zA.d.toNat] ∧ (6 : BitVec 6).toNat < 7) ∧ run0.ready 0 th0 [.s fA.a.toNat] ∧ th0.spec = none := by decide +kernel

/-- A branch back by one word, taken on p1 (R96): the offset is relative to the branch's own address. -/
theorem test_branch : ((after run0 (exec (.br 0 ⟨0b0001, 0, 0, 0x3FFF⟩) run0)).threads.get? 0).map (fun th => th.pc) = some 0xFFC := by decide +kernel

/-- The state of `run0` with a page table that maps PVA 0 to 1 GiB to granule 1, writable and executable, and 384 channels. -/
def mem0 : State :=
  { run0 with
    regs := [(Reg.memCap, 384), (Reg.cohAtomCtrl 0, 1), (platKey 0 0, 9)]
    mem := (Memory.empty.writeN (2 ^ 30) 8 0x1001).writeN (2 ^ 30 + 0x1000) 8 0xF }

/-- The state after a fresh walk of thread t that its section and its township hold. -/
def walked (s : State) (cn t pva leaf shift : Nat) : State :=
  let s2 := ({ s with free := s.free + 1 } : State).countWalk (shipOf t) ctx0 (some (shipOf t)) pva
  if s.specThread t then s2 else s2.keepTlb t ⟨cn, pva / 2 ^ shift, shift, leaf⟩

/-- Where nothing is cached, a translation is a fresh walk. -/
theorem translate_fresh (s : State) (cn : Nat) (t pva acc : Nat) (h : (s.ship (shipOf t)).tlb = [])
    (h2 : (s.ship (shipOf t)).micro.getD (sectOf t % 64) [] = []) (x : Xlat) (leaf shift : Nat)
    (hx : ({ s with free := s.free + 1 } : State).translateFresh ctx0 (some (shipOf t)) pva acc = .ok (x, leaf, shift)) :
    s.translateAcc cn ctx0 t pva acc = (.ok x, walked s cn t pva leaf shift) := by
  simp only [State.translateAcc, State.translate, h, h2, List.append_nil, State.flip, List.find?_nil, ite_self, hx]
  rfl

/-- A thread whose pair (s4, s5) holds 0x8000. -/
def th1 : Thread := { th0 with s := th0.s.set 4 0x8000 }
def mem1 : State := { mem0 with threads := [(0, th1)] }

/-- A state like `mem1` translates PVA 0x8000 to DPA 2^30 + 0x8000. -/
theorem fence_at (s : State) (th : Thread) (acc : Nat) (hc : s.ctxs.get? (th.ctx % 4096) = some ctx0) (ht : (s.ship 0).tlb = [])
    (h1 : (s.ship 0).micro.getD 0 [] = [])
    (hw : ({ s with free := s.free + 1 } : State).translateFresh ctx0 (some 0) 0x8000 acc =
      .ok (⟨2 ^ 30 + 0x8000, 0x8000, false, false, none, false⟩, 0xF, 30)) :
    s.fencePlace 0 th 0x8000 acc = (.ok (2 ^ 30 + 0x8000, 0x8000), walked s (th.ctx % 4096) 0 0x8000 0xF 30) := by
  have h2 : inHost 0x8000 = false := by decide
  have h4 : ¬ (0x8000 % 8 ≠ 0) := by decide
  simp only [State.fencePlace, hc, h2, if_neg h4, translate_fresh s _ 0 0x8000 acc ht h1 _ _ _ hw]
  rfl

/-- Two threads of one launch, both at a section barrier. -/
def bar0 : State := { run0 with threads := [(0, { th0 with wait := .bar 0 }), (1, { th0 with wait := .bar 0 })] }
/-- Thread 0 waits for a fence word to reach 0, which it has. -/
def fw0 : State := { mem1 with threads := [(0, { th1 with wait := .fwait 3 0x8000 0 2 })] }

/-- The fence word's part of an access at PVA 0x8000. -/
def word0 (n : Nat) : Part := { dpa := 2 ^ 30 + 0x8000, ppa := 0x8000, len := n, via := .uncached, got := none }

theorem witness_FencesBarriersAndEvents :
    (let f : FmtA := ⟨0, 0, 0, 3⟩
     run0.ready 0 th0 [] ∧ f.d = 0 ∧ f.a = 0 ∧ f.b = 0 ∧ f.md.toNat < 4 ∧ run0.quiet 0 = true) ∧ (1 : BitVec 8).toNat < 2 ∧
    (let f : FmtE := ⟨0, 4, 6, 0, 3⟩
     mem1.ready 0 th1 (usesPair f.a.toNat ++ usesPair f.b.toNat) ∧ f.a.toNat % 2 = 0 ∧ f.b.toNat % 2 = 0 ∧ f.d = 0 ∧ fld f.ext.toNat 31 2 = 0 ∧
     mem1.release 0 (fld f.ext.toNat 1 0) = (true, mem1) ∧ globalAddr th1 f.a.toNat f.imm 8 = 0x8000 ∧
     (walked mem1 5 0 0x8000 0xF 30).clash 0 [word0 8] = false ∧
     mem1.fencePlace 0 th1 0x8000 4 = (.ok (2 ^ 30 + 0x8000, 0x8000), walked mem1 5 0 0x8000 0xF 30)) ∧
    (let f : FmtE := ⟨3, 4, 6, 0, 3⟩
     mem1.ready 0 th1 (usesPair f.a.toNat ++ usesPair f.b.toNat ++ [.p f.d.toNat]) ∧ f.d.toNat < 4 ∧ mem1.acquiring 0 = false ∧
     mem1.fencePlace 0 th1 0x8000 5 = (.ok (2 ^ 30 + 0x8000, 0x8000), walked mem1 5 0 0x8000 0xF 30)) ∧
    (let th : Thread := { th1 with wait := .fwait 3 0x8000 0 2 }
     let s1 := walked fw0 5 0 0x8000 0xF 30
     fw0.threads.get? 0 = some th ∧ th.spec = none ∧ s1.ownedElsewhere 0 ((2 ^ 30 + 0x8000) / 128) = false ∧ s1.clash 0 [word0 16] = false ∧
     fw0.fencePlace 0 th 0x8000 5 = (.ok (2 ^ 30 + 0x8000, 0x8000), s1) ∧ s1.poisoned (2 ^ 30 + 0x8000) = false ∧
     0 ≤ s1.cohRead (2 ^ 30 + 0x8000) 8) ∧
    (bar0.threads.get? 1 = some { th0 with wait := .bar 0 } ∧
     ∀ e ∈ bar0.threads.filter (fun e => e.2.launch == 0 && sameUnit 0 1 e.1), e.2.wait = .bar 0 ∧ (bar0.quiet e.1 = true ∨ bar0.quietNear e.1 = true)) ∧
    (mem1.fenceHeld 0 th1 0x8000 = false ∧
     let th : Thread := { th1 with wait := .fwait 3 0x8000 0 2 }
     fw0.fenceHeld 0 th 0x8000 = false ∧ (walked fw0 5 0 0x8000 0xF 30).spanHeld (2 ^ 30 + 0x8000) 8 = false ∧ th.replay = [] ∧ th.raise = none) := by
  refine ⟨by decide +kernel, by decide +kernel, ⟨by decide +kernel, by decide +kernel, by decide +kernel, by decide +kernel, by decide +kernel,
    by decide +kernel, by decide +kernel, by decide +kernel,
    fence_at mem1 th1 4 (by decide +kernel) (by decide +kernel) (by decide +kernel) (by decide +kernel)⟩,
    ⟨by decide +kernel, by decide +kernel, by decide +kernel,
    fence_at mem1 th1 5 (by decide +kernel) (by decide +kernel) (by decide +kernel) (by decide +kernel)⟩,
    ⟨by decide +kernel, by decide +kernel, by decide +kernel, by decide +kernel,
    fence_at fw0 _ 5 (by decide +kernel) (by decide +kernel) (by decide +kernel) (by decide +kernel), by decide +kernel, Nat.zero_le _⟩, by decide +kernel, by decide +kernel⟩

theorem witness_FencesBarriersAndEvents_speculative :
    thS.spec.isSome = true ∧ runS.canRun 0 thS [] ∧ zA.d = 0 ∧ zA.a = 0 ∧ zA.b = 0 ∧ zA.md = 0 ∧
    (let f : FmtE := ⟨0, 4, 6, 0, 3⟩
     runS.canRun 0 thS (usesPair f.a.toNat ++ usesPair f.b.toNat) ∧ f.a.toNat % 2 = 0 ∧ f.b.toNat % 2 = 0 ∧ f.d = 0 ∧ fld f.ext.toNat 31 2 = 0) ∧
    (let f : FmtE := ⟨4, 0, 2, 8, 0x19⟩
     let used := atUses f f.d.toNat ++ atUses f f.b.toNat ++ atUses f (atCmp f)
     atOp f = 9 ∧ runS.canRun 0 thS (usesPair f.a.toNat ++ used) ∧ firstCode (atCodes f (badP f.a)) = none ∧ runS.canRun 0 thS (.s f.a.toNat :: used) ∧
     firstCode (atCodes f false ++ [(badLocal (localAddr thS f.a.toNat f.imm (atSize f)) (atSize f), 0x14)]) = none) ∧
    (let f : FmtE := ⟨3, 0, 2, 0, 0x441⟩
     f.imm = 0 ∧ runS.canRun 0 thS [.v f.a.toNat, .s f.b.toNat, .s f.d.toNat] ∧ f.a.toNat < 4 ∧ fld f.ext.toNat 31 19 = 0 ∧
     (ElemFmt.ofCode? (fld f.ext.toNat 9 6)).isSome = true ∧ badLocal ((thS.sr f.b.toNat).toNat % 2 ^ 17) (64 * fld f.ext.toNat 5 0) = false) ∧
    (let f : FmtE := ⟨4, 1, 0, 0, 0xC⟩
     f.imm = 0 ∧ runS.canRun 0 thS [.s f.a.toNat, .s f.d.toNat, .p (fld f.ext.toNat 3 2)] ∧ f.b = 0 ∧ fld f.ext.toNat 31 4 = 0 ∧
     fld f.ext.toNat 1 0 = 0) := by decide +kernel

theorem witness_ScratchpadAccesses :
    run0.padBusy 0 = false ∧ run0.acquiring 0 = false ∧
    (let f : FmtM := ⟨14, 0, 5, 8⟩
     run0.ready 0 th0 (.s f.a.toNat :: dstUses (kindDst 5 f.d.toNat)) ∧ f.kind.toNat = 5 ∧ f.d.toNat % 2 = 0 ∧
     badLocal (localAddr th0 f.a.toNat f.imm 1) (kindSize 5) = false ∧ localAddr th0 f.a.toNat f.imm 1 % kindSize 5 = 0) ∧
    (let f : FmtM := ⟨6, 0, 5, 8⟩
     run0.ready 0 th0 (.s f.a.toNat :: usesPair f.d.toNat) ∧ storeKind f.kind.toNat = true ∧ badLocal (localAddr th0 f.a.toNat f.imm 1) (kindSize 5) = false ∧
     localAddr th0 f.a.toNat f.imm 1 % kindSize 5 = 0) ∧
    (let f : FmtM := ⟨3, 0, 1, 64⟩
     run0.ready 0 th0 [.v f.d.toNat, .s f.a.toNat] ∧ f.d.toNat < 4 ∧ ElemFmt.ofCode? f.kind.toNat = some .e4m3 ∧
     badLocal (localAddr th0 f.a.toNat f.imm 64) 64 = false ∧ localAddr th0 f.a.toNat f.imm 64 % 64 = 0) ∧
    (let f : FmtM := ⟨3, 0, 0, 64⟩
     f.kind = 0 ∧ badLocal (localAddr th0 f.a.toNat f.imm 64) 64 = false ∧ localAddr th0 f.a.toNat f.imm 64 % 64 = 0) ∧
    (let f : FmtE := ⟨3, 0, 0, 64, 0x35⟩
     xPad f = true ∧ f.d.toNat < 4 ∧ f.b = 0 ∧ f.ext.toNat.testBit 3 = false ∧ fld f.ext.toNat 11 8 = 0 ∧ xFmt? f = some .e2m3 ∧ xConv f < 2 ∧
     ElemFmt.isFp6 .e2m3 = true ∧ localAddr th0 f.a.toNat f.imm 1 % xAlign f = 0 ∧ badLocal (localAddr th0 f.a.toNat f.imm 1) (xFirst f) = false ∧
     run0.ready 0 th0 [.s f.a.toNat, .v f.d.toNat] ∧ fld f.ext.toNat 31 16 = 0 ∧ (xBytes th0 f).length = xFirst f) ∧
    (let g : FmtE := ⟨4, 0, 2, 8, 0x19⟩
     run0.ready 0 th0 (.s g.a.toNat :: (atUses g g.d.toNat ++ atUses g g.b.toNat ++ atUses g (atCmp g))) ∧ atOp g = 9 ∧
     firstCode (atCodes g false ++ [(badLocal (localAddr th0 g.a.toNat g.imm (atSize g)) (atSize g), 0x14)]) = none ∧
     localAddr th0 g.a.toNat g.imm (atSize g) % atSize g = 0 ∧ atRelease g = false ∧ run0.release 0 0 = (true, run0)) := by decide +kernel

theorem witness_ScratchpadAccesses_speculative :
    runS.padBusy 0 = false ∧ runS.acquiring 0 = false ∧ runF.padBusy 0 = false ∧ runF.acquiring 0 = false ∧
    (let f : FmtM := ⟨14, 0, 5, 8⟩
     runS.canRun 0 thS (.s f.a.toNat :: dstUses (kindDst 5 f.d.toNat)) ∧ (thS.write? (dstKeep thS (kindDst 5 f.d.toNat))).isSome = true ∧
     runF.canRun 0 thF (.s f.a.toNat :: dstUses (kindDst 5 f.d.toNat)) ∧ thF.write? (dstKeep thF (kindDst 5 f.d.toNat)) = none ∧
     badLocal (localAddr thF f.a.toNat f.imm 1) (kindSize 5) = false ∧ localAddr thF f.a.toNat f.imm 1 % kindSize 5 = 0) ∧
    (let f : FmtM := ⟨3, 0, 1, 64⟩
     thF.write? (dstKeep thF (.vector f.d.toNat .e4m3)) = none ∧ (thS.write? (dstKeep thS (.vector f.d.toNat .e4m3))).isSome = true) ∧
    (let f : FmtE := ⟨3, 0, 0, 64, 0x35⟩
     let dst : LoadDst := .convert f.d.toNat (xConv f) (xFmt f) (xScale f)
     runS.canRun 0 thS (.s f.a.toNat :: dstUses dst) ∧ runF.canRun 0 thF (.s f.a.toNat :: dstUses dst) ∧ thF.write? (dstKeep thF dst) = none ∧
     (thS.write? (dstKeep thS dst)).isSome = true ∧ thS.spec = some (spec0 []) ∧ thF.spec = some (spec0 logFull)) := by decide +kernel

/-- The bytes of `n` bytes at PVA 0x8000, in one line. -/
def part0 (n : Nat) : Part := ⟨2 ^ 30 + 0x8000, 0x8000, n, .line, none⟩

/-- Bytes within a line at PVA 0x8000 are placed by one fresh walk. -/
theorem place_at (s : State) (cn t acc k n : Nat) (h0 : n ≠ 0) (hn : n ≤ 128) (ht : (s.ship (shipOf t)).tlb = [])
    (h1 : (s.ship (shipOf t)).micro.getD (sectOf t % 64) [] = [])
    (hw : ({ s with free := s.free + 1 } : State).translateFresh ctx0 (some (shipOf t)) 0x8000 acc =
      .ok (⟨2 ^ 30 + 0x8000, 0x8000, false, false, none, false⟩, 0xF, 30)) :
    s.placeBytes cn ctx0 t acc (k + 1) 0x8000 n = (.ok [part0 n], walked s cn t 0x8000 0xF 30) := by
  have h2 : inHost 0x8000 = false := by decide
  have h3 : min n (128 - 0x8000 % 128) = n := by omega
  obtain ⟨m, rfl⟩ := Nat.exists_eq_succ_of_ne_zero h0
  rw [State.placeBytes]
  · simp only [h3, h2, translate_fresh s cn t 0x8000 acc ht h1 _ _ _ hw, Nat.sub_self]
    cases k <;> rfl
  · intro h; exact h0 h

theorem witness_GlobalAccesses :
    mem1.acquiring 0 = false ∧ mem1.ctxs.get? (th1.ctx % 4096) = some ctx0 ∧ mem1.loadRoom 0 = true ∧ mem1.storeRoom 0 = true ∧
    (walked mem1 5 0 0x8000 0xF 30).clash 0 [part0 4] = false ∧
    (let f : FmtM := ⟨6, 4, 4, 0⟩
     mem1.ready 0 th1 (usesPair f.a.toNat ++ dstUses (kindDst 4 f.d.toNat)) ∧ f.kind.toNat = 4 ∧ f.a.toNat % 2 = 0 ∧ storeKind 4 = true ∧
     mem1.ready 0 th1 (usesPair f.a.toNat ++ [.s f.d.toNat]) ∧ globalAddr th1 f.a.toNat f.imm 1 % kindSize 4 = 0 ∧
     mem1.placeBytes 5 ctx0 0 0 4 (globalAddr th1 f.a.toNat f.imm 1) (kindSize 4) = (.ok [part0 4], walked mem1 5 0 0x8000 0xF 30) ∧
     mem1.placeBytes 5 ctx0 0 1 4 (globalAddr th1 f.a.toNat f.imm 1) (kindSize 4) = (.ok [part0 4], walked mem1 5 0 0x8000 0xF 30)) ∧
    (let f : FmtM := ⟨3, 4, 0, 0⟩
     mem1.ready 0 th1 (.v f.d.toNat :: usesPair f.a.toNat) ∧ f.d.toNat < 4 ∧ f.kind = 0 ∧ ElemFmt.ofCode? f.kind.toNat = some .none ∧
     (walked mem1 5 0 0x8000 0xF 30).clash 0 [part0 64] = false ∧ globalAddr th1 f.a.toNat f.imm 64 % 64 = 0 ∧
     mem1.placeBytes 5 ctx0 0 0 4 (globalAddr th1 f.a.toNat f.imm 64) 64 = (.ok [part0 64], walked mem1 5 0 0x8000 0xF 30) ∧
     mem1.placeBytes 5 ctx0 0 1 4 (globalAddr th1 f.a.toNat f.imm 64) 64 = (.ok [part0 64], walked mem1 5 0 0x8000 0xF 30)) ∧
    (let f : FmtE := ⟨3, 4, 0, 0, 0x31⟩
     xPad f = false ∧ f.d.toNat < 4 ∧ f.a.toNat % 2 = 0 ∧ f.b = 0 ∧ f.ext.toNat.testBit 3 = false ∧ fld f.ext.toNat 11 8 = 0 ∧ fld f.ext.toNat 31 16 = 0 ∧
     xFmt? f = some .e2m3 ∧ xConv f < 2 ∧ ElemFmt.e2m3.isFp6 = true ∧ globalAddr th1 f.a.toNat f.imm 1 % xAlign f = 0 ∧
     mem1.ready 0 th1 (usesPair f.a.toNat ++ [.v f.d.toNat]) ∧ (xBytes th1 f).length = 48 ∧ xFirst f = 48 ∧
     mem1.placeBytes 5 ctx0 0 0 4 (globalAddr th1 f.a.toNat f.imm 1) 48 = (.ok [part0 48], walked mem1 5 0 0x8000 0xF 30) ∧
     mem1.placeBytes 5 ctx0 0 1 4 (globalAddr th1 f.a.toNat f.imm 1) 48 = (.ok [part0 48], walked mem1 5 0 0x8000 0xF 30)) ∧
    (let f : FmtE := ⟨6, 4, 2, 0, 0x01⟩
     mem1.ready 0 th1 (usesPair f.a.toNat ++ atUses f f.d.toNat ++ atUses f f.b.toNat) ∧ atOp f ≠ 9 ∧ firstCode (atCodes f (badP f.a)) = none ∧
     globalAddr th1 f.a.toNat f.imm (atSize f) % atSize f = 0 ∧ inHost 0x8000 = false ∧ atRelease f = false ∧ atSize f = 4 ∧ (walked mem1 5 0 0x8000 0xF 30).clash 0 [{ part0 4 with via := .uncached }] = false ∧
     mem1.placeBytes 5 ctx0 0 2 1 (globalAddr th1 f.a.toNat f.imm (atSize f)) 4 = (.ok [part0 4], walked mem1 5 0 0x8000 0xF 30) ∧
     (part0 4).via = .line ∧ mem1.goesNear 0 (part0 4).dpa = true ∧ mem1.release 0 (atScope f) = (true, mem1)) ∧
    (∀ n ∈ [4, 48, 64], mem1.walkHeld 5 ctx0 0 0x8000 n = false) := by
  have pl (acc k n : Nat) (h0 : n ≠ 0) (hn : n ≤ 128) (hw) := place_at mem1 5 0 acc k n h0 hn (by decide +kernel) (by decide +kernel) hw
  have a0 : globalAddr th1 4 0 1 = 0x8000 := by decide +kernel
  refine ⟨?_, ?_, ?_, ?_, ?_,
    ⟨?_, ?_, ?_, ?_, ?_, ?_,
      pl 0 3 4 (by decide) (by decide) (by decide +kernel), pl 1 3 4 (by decide) (by decide) (by decide +kernel)⟩,
    ⟨?_, ?_, ?_, ?_, ?_, ?_,
      pl 0 3 64 (by decide) (by decide) (by decide +kernel), pl 1 3 64 (by decide) (by decide) (by decide +kernel)⟩,
    ⟨?_, ?_, ?_, ?_, ?_, ?_, ?_,
      ?_, ?_, ?_, ?_, ?_, ?_, ?_,
      pl 0 3 48 (by decide) (by decide) (by decide +kernel), pl 1 3 48 (by decide) (by decide) (by decide +kernel)⟩,
    ⟨?_, ?_, ?_, ?_, ?_, ?_, ?_,
      ?_, pl 2 0 4 (by decide) (by decide) (by decide +kernel), ?_⟩, ?_⟩ <;> decide +kernel

/-- `mem1` with its thread speculative, and with its slot full. -/
def th1S : Thread := { th1 with spec := some (spec0 []) }
def th1F : Thread := { th1 with spec := some (spec0 logFull) }
def memS : State := { mem1 with threads := [(0, th1S)] }
def memF : State := { mem1 with threads := [(0, th1F)] }

theorem witness_GlobalAccesses_speculative :
    (let f : FmtM := ⟨6, 4, 4, 0⟩
     memS.acquiring 0 = false ∧ memS.ctxs.get? (th1S.ctx % 4096) = some ctx0 ∧ memS.loadRoom 0 = true ∧ memS.storeRoom 0 = true ∧
     (walked memS 5 0 0x8000 0xF 30).clash 0 [part0 4] = false ∧ globalAddr th1S f.a.toNat f.imm 1 = 0x8000 ∧
     memS.canRun 0 th1S (usesPair f.a.toNat ++ dstUses (kindDst 4 f.d.toNat)) ∧ (th1S.write? (dstKeep th1S (kindDst 4 f.d.toNat))).isSome = true ∧
     [part0 4].any (fun p => p.via == .window || p.via == .host) = false ∧ th1S.spec = some (spec0 [])) ∧
    (let f : FmtM := ⟨6, 4, 4, 0⟩
     memF.canRun 0 th1F (usesPair f.a.toNat ++ dstUses (kindDst 4 f.d.toNat)) ∧ th1F.write? (dstKeep th1F (kindDst 4 f.d.toNat)) = none) ∧
    memS.walkHeld 5 ctx0 0 0x8000 4 = false ∧ memF.walkHeld 5 ctx0 0 0x8000 4 = false ∧
    (∀ a ∈ [0, 1], memS.placeBytes 5 ctx0 0 a 4 0x8000 4 = (.ok [part0 4], walked memS 5 0 0x8000 0xF 30)) ∧
    memF.placeBytes 5 ctx0 0 0 4 0x8000 4 = (.ok [part0 4], walked memF 5 0 0x8000 0xF 30) := by
  refine ⟨by decide +kernel, by decide +kernel, by decide +kernel, by decide +kernel, ?_,
    place_at memF 5 0 0 3 4 (by decide) (by decide) (by decide +kernel) (by decide +kernel) (by decide +kernel)⟩
  intro a ha
  have h : a = 0 ∨ a = 1 := by simpa using ha
  rcases h with rfl | rfl
  · exact place_at memS 5 0 0 3 4 (by decide) (by decide) (by decide +kernel) (by decide +kernel) (by decide +kernel)
  · exact place_at memS 5 0 1 3 4 (by decide) (by decide) (by decide +kernel) (by decide +kernel) (by decide +kernel)

/-- A returned load of 4 bytes into scalar 6. -/
def acc0 : Acc :=
  { thread := 0, launch := 0, ctx := 5, ship := 0, tag := 0, prio := 0, pva := 0x8000, base := 0x8000, op := .load (.scalar 6 4 false false),
    ctr := 0, acq := false, spec := false, tol := false, seen := [], parts := [{ part0 4 with got := some 77 }], st := .done }
/-- A store of 8 bytes at local address 0x40 that no bank has served. -/
def req0 : SpReq := ⟨3, 0, 0, 0x40, 8, 0, .store 0xABCD, 0, false, 1, false, 0⟩
def pad0 : State := run0.modSect 0 (fun h => { h with reqs := [req0] })

theorem witness_LoadedDataAndBankArbitration :
    (let s : State := { run0 with accs := [(4, acc0)] }
     s.accs.get? 4 = some acc0 ∧ acc0.st = .done ∧ acc0.isFetch = false ∧ s.saved acc0.launch = false ∧ s.threads.get? acc0.thread = some th0 ∧ th0.spec = none ∧
     th0.launch = acc0.launch) ∧
    ((pad0.sect (0 * 64 + 0)).reqs = [req0] ∧ req0.op = .store 0xABCD ∧ req0.off = 0 ∧ req0.hold = false ∧ req0.cur = req0.len ∧
     1 ≤ req0.rank ∧
     bankOf req0.row = 1 ∧ pad0.inInbox req0.launch req0.loc = false) := by decide +kernel

/-- A load of a speculative thread, made in the speculation, has room in the log or has none. -/
theorem witness_LoadedData_speculative :
    let a : Acc := { acc0 with spec := true }
    (let s : State := { runS with accs := [(4, a)] }
     s.accs.get? 4 = some a ∧ a.st = .done ∧ a.isFetch = false ∧ s.saved a.launch = false ∧ s.threads.get? a.thread = some thS ∧ thS.launch = a.launch ∧
     (thS.write? (dstWrite a.dst a.value)).isSome = true) ∧ thF.write? (dstWrite a.dst a.value) = none := by decide +kernel

/-- Little-endian: the served store of 0xABCD shows 0xCD at its first byte (R86). -/
theorem test_bank_store : let u := after pad0 (exec (.scratchpadBankArbitration 0 0 1) pad0)
    (u.spm.read (spKey 0 0x40), u.spm.read (spKey 0 0x41), (u.sect 0).reqs) = (0xCD, 0xAB, []) := by decide +kernel


/-- A thread at PVA 0x8000, where memory holds the word `add s4, s1, s2`. -/
def thPc : Thread := { th0 with pc := 0x8000 }
def issue0 : State := { mem0 with threads := [(0, thPc)], cores := [(0, ⟨0, none, 3⟩)], mem := mem0.mem.writeN (2 ^ 30 + 0x8000) 4 (encA 1 0 fA).toNat }
/-- `issue0` after its core's step is counted. -/
def issue1 : State := issue0.setCore 0 { issue0.core 0 with steps := ((issue0.core 0).steps + 1) % 2 ^ 64 }
/-- The state once thread 0's word is fetched. -/
def fetch1 (s : State) : State := ({ walked s 5 0 0x8000 0xF 30 with free := (walked s 5 0 0x8000 0xF 30).free + 1 } : State).countRead 0 (2 ^ 30 + 0x8000) 4

theorem fetch_at (s : State) (w : W32) (hc : s.ctxs.get? 5 = some ctx0) (hl : s.launches.get? 0 = some launch0) (ht : (s.ship 0).tlb = [])
    (hm : (s.ship 0).micro.getD 0 [] = [])
    (hw : ({ s with free := s.free + 1 } : State).translateFresh ctx0 (some 0) 0x8000 3 =
      .ok (⟨2 ^ 30 + 0x8000, 0x8000, false, false, none, false⟩, 0xF, 30))
    (hp : (walked s 5 0 0x8000 0xF 30).poisoned (2 ^ 30 + 0x8000) = false)
    (hr : ((walked s 5 0 0x8000 0xF 30).wordValues launch0 (2 ^ 30 + 0x8000)).eraseDups = [w.toNat]) :
    s.fetchWord thPc 0 0x8000 = (.ok (w, false, 0x8000), fetch1 s) := by
  have h2 : inHost 0x8000 = false := by decide
  have h5 : thPc.ctx % 4096 = 5 := by decide
  have h6 : thPc.launch = 0 := by decide
  simp only [State.fetchWord, h2, h5, h6, hc, hl, translate_fresh s 5 0 0x8000 3 ht hm _ _ _ hw, hp, hr]
  simp only [Bool.false_eq_true, if_false, State.pick, List.length_singleton, Nat.mod_one, List.getD_cons_zero,
    BitVec.ofNat_toNat, BitVec.setWidth_eq]
  rfl

/-- The same with the place of the fetch kept. -/
def fetch2 : State := (fetch1 issue1).modThread 0 (fun y => { y with fetched := some (0x8000, 0x8000) })

/-- A halted township; and the channel of the word in a slice. -/
def halt0 : State := issue0.modShip 0 (fun x => { x with halted := true })
def heldWord : State := issue0.setField (Reg.memCh (issue0.channelOf (2 ^ 30 + 0x8000))) 2 0 2

theorem fetch_issue1 : issue1.fetchWord thPc 0 thPc.pc.toNat = (.ok (encA 1 0 fA, false, 0x8000), fetch1 issue1) :=
  fetch_at issue1 _ (by decide +kernel) (by decide +kernel) (by decide +kernel) (by decide +kernel) (by decide +kernel) (by decide +kernel)
    (by decide +kernel)

theorem witness_CoreIssuesInRotation :
    (issue0.ship 0).halted = false ∧ (issue0.ship 0).asleep = false ∧ (issue0.ship 0).absent = false ∧ (issue0.ship 0).test = none ∧
    ((issue0.core 0).last + 1) % 4 = 0 ∧ issue1.canIssue 0 = true ∧ issue1.canIssue 1 = false ∧
    issue1.threads.get? 0 = some thPc ∧ issue1.wordHeld thPc 0 thPc.pc.toNat = false ∧
    issue1.fetchWord thPc 0 thPc.pc.toNat = (.ok (encA 1 0 fA, false, 0x8000), fetch1 issue1) ∧
    isExtended (major (encA 1 0 fA)) = false ∧ decodeThread 0 (encA 1 0 fA) 0 = some (.add 0 fA) ∧
    runThread (.add 0 fA) fetch2 = .next (after fetch2 (exec (.add 0 fA) fetch2)) ∧
    (fetch2.jumps 0 (.add 0 fA) || fetch2.moved (after fetch2 (exec (.add 0 fA) fetch2)) 0) = true ∧
    ((halt0.ship 0).halted = true) ∧ heldWord.threads.get? 0 = some thPc ∧ heldWord.wordHeld thPc 0 thPc.pc.toNat = true := by
  refine ⟨by decide +kernel, by decide +kernel, by decide +kernel, by decide +kernel, by decide +kernel, by decide +kernel, by decide +kernel,
    by decide +kernel, by decide +kernel, fetch_issue1, by decide +kernel, by decide +kernel, rfl, by decide +kernel, by decide +kernel, by decide +kernel,
    by decide +kernel⟩

/-- A parcel of townships 0 to 3 with a waiting launch of one township. -/
def place0 : State :=
  { State.reset with
    parcels := [(0, { ships := [0, 1, 2, 3], sites := [], grans := [], eases := [], down := false })], ctxs := [(5, ctx0)]
    launches := [(0, { launch0 with st := .waiting, ships := [] })] }

theorem witness_LaunchPlacementAndEnd :
    (let l : Launch := { launch0 with st := .waiting, ships := [] }
     place0.launches.get? 0 = some l ∧ l.st = .waiting ∧ place0.mayPlace 0 l = true ∧ place0.fits l = some [0] ∧ place0.aheadOf 0 l = []) ∧
    (let s : State := { place0 with launches := [(0, launch0)] }
     s.launches.get? 0 = some launch0 ∧ launch0.st = .placed ∧ (∀ e ∈ s.threads, e.2.launch ≠ 0) ∧
     (∀ e ∈ s.accs, e.2.launch = 0 → e.2.st = .done) ∧ (∀ e ∈ s.sections, e.2.reqs = []) ∧ s.toks = [] ∧
     s.signalDue 0 launch0 = false) := by decide +kernel

/-- Table 02-2: the placed thread starts at ENTRY_PC with its rank in s1, the thread count in s2 and the identity in s5. -/
theorem test_launch_start : ((after place0 (exec (.launchPlaced 0) place0)).threads.get? 0).map (fun th => (th.pc, th.sr 1, th.sr 2, th.sr 5, th.p)) =
    some (0x1000, 0, 1, 0, 1) := by decide +kernel

/-- A dispatch descriptor with an inbox of 1 KiB. -/
def disp0 : DispDesc :=
  { policy := 0, spec := false, fanout := 2, predMax := 0, inboxKib := 1, hold := 0, first := 0, originLo := 0, originHi := 0, base := 0x8000, stride := 64, fence := 0 }
def launchD : Launch := { launch0 with disp := some disp0, ships := [0, 1, 2, 3] }
def rec0 : Record := ⟨0x11C00, 1 + 7 * 256, 2, 0, 1, 1, false, 0x3F800000, none, 0, 0, 0⟩
/-- A thread of a dispatching launch with s1 = 7 (a row's address from 64 · 0), s2 = 40. -/
def dispS : State :=
  { run0 with
    parcels := [(0, { ships := [0, 1, 2, 3], sites := [], grans := [], eases := [], down := false })], launches := [(0, launchD)]
    threads := [(0, { th0 with s := [0, 2, 0x40, 3, 0, 0, 0, 0, 0, 0, 0, 0, 0, 0, 0, 0] })]
    regs := [(erouteKey 0 2, BitVec.ofNat 64 (8 * 2 ^ 32 + 2 ^ 25 + 2 ^ 10 + 1))] }
def thD : Thread := { th0 with s := [0, 2, 0x40, 3, 0, 0, 0, 0, 0, 0, 0, 0, 0, 0, 0, 0] }
def copy0 : Copy :=
  { launch := 0, thread := 0, token := 3, layer := 0, expert := 2, weight := 0x3F800000, spec := false, st := .sent, counted := false,
    row := bytesOf 64 0, fmt := 1, len := 1, reserve := [], got := 0 }

theorem witness_DispatchInstructions :
    (let f : FmtE := ⟨3, 0, 2, 0, 0x441⟩
     let loc := (thD.sr f.b.toNat).toNat % 2 ^ 17
     dispS.ready 0 thD [.v f.a.toNat, .s f.b.toNat, .s f.d.toNat] ∧ f.a.toNat < 4 ∧ f.imm = 0 ∧ fld f.ext.toNat 31 19 = 0 ∧
     (ElemFmt.ofCode? (fld f.ext.toNat 9 6)).isSome = true ∧ badLocal loc (64 * fld f.ext.toNat 5 0) = false ∧
     dispS.launches.get? thD.launch = some launchD ∧ launchD.disp = some disp0 ∧ fld f.ext.toNat 5 0 ≠ 0 ∧ dispS.padBusy 0 = false ∧ dispS.acquiring 0 = false ∧
     dispS.accs = [] ∧ f.ext.toNat.testBit 10 = true ∧
     (let s : State := { dispS with accs := [(9, rowAcc 0x40 64 (.row none))] }
      s.ready 0 thD [.v f.a.toNat, .s f.b.toNat, .s f.d.toNat] ∧ s.launches.get? thD.launch = some launchD ∧
      s.accs.find? (fun e => s.owns 0 e.2 && e.2.isFetch) = some (9, rowAcc 0x40 64 (.row none)) ∧
      ((s.ship (shipOf 0)).ledger.length : Int) + s.dsptNeed 0 thD f disp0 ≤ 4096 ∧ (s.ship (shipOf 0)).ledger.length + ((s.specTargets 0 thD f launchD disp0).filter (s.routeOk ((s.parcelOfShip (shipOf 0)).getD 16))).length ≤ 4096 ∧
      (∀ e ∈ s.copiesOf (shipOf 0) thD.launch 0 (thD.sr f.d.toNat).toNat (fld f.ext.toNat 18 11), e.2.spec = true → e.2.st ≠ .sent))) ∧
    (let f : FmtE := ⟨4, 1, 0, 0, 0xC⟩
     let s : State := dispS.modSect 0 (fun x => { x with records := [rec0] })
     let e := (thD.sr f.a.toNat).toNat
     s.ready 0 thD [.s f.a.toNat, .s f.d.toNat, .p (fld f.ext.toNat 3 2)] ∧ f.b = 0 ∧ f.imm = 0 ∧ fld f.ext.toNat 31 4 = 0 ∧ fld f.ext.toNat 1 0 = 0 ∧
     s.launches.get? thD.launch = some launchD ∧ launchD.disp = some disp0 ∧
     (s.sect (sectOf 0)).records.filter (fun r => r.expert == e && r.layer == (s.sect (sectOf 0)).layers.getD e disp0.first && r.launch == thD.launch &&
       r.taken.isNone && (s.sect (sectOf 0)).whole r) = [rec0] ∧ rec0.spec = false) ∧
    (let f : FmtE := ⟨4, 1, 0, 0, 0xC⟩
     let e := (thD.sr f.a.toNat).toNat
     let l : Launch := { launchD with closedTo := 1 }
     let s : State := { dispS with launches := [(0, l)] }
     s.ready 0 thD [.s f.a.toNat, .s f.d.toNat, .p (fld f.ext.toNat 3 2)] ∧ s.launches.get? thD.launch = some l ∧ l.disp = some disp0 ∧
     (s.sect (sectOf 0)).records = [] ∧ (s.sect (sectOf 0)).layers.getD e disp0.first < l.closedTo ∧
     let r : Record := { rec0 with spec := true }
     let s2 : State := dispS.modSect 0 (fun x => { x with records := [r] })
     (s2.sect (sectOf 0)).records.filter (fun r => r.expert == e && r.layer == (s2.sect (sectOf 0)).layers.getD e disp0.first && r.launch == thD.launch &&
       r.taken.isNone && (s2.sect (sectOf 0)).whole r) = [r] ∧ r.spec = true ∧ (s2.sect (sectOf 0)).slot? = some 0) ∧
    (let f : FmtE := ⟨0, 2, 2, 0, 0x41⟩
     let row := (thD.sr f.a.toNat).toNat % 2 ^ 17
     dispS.ready 0 thD [.s f.a.toNat, .s f.b.toNat] ∧ f.d = 0 ∧ f.imm = 0 ∧ fld f.ext.toNat 31 10 = 0 ∧
     (ElemFmt.ofCode? (fld f.ext.toNat 9 6)).isSome = true ∧ badLocal row (64 * fld f.ext.toNat 5 0) = false ∧ dispS.padBusy 0 = false ∧ dispS.acquiring 0 = false ∧
     fld f.ext.toNat 5 0 ≠ 0 ∧ dispS.accs.find? (fun e => dispS.owns 0 e.2 && e.2.isFetch) = none ∧
     (let s : State := { dispS with accs := [(9, rowAcc 0x40 64 (.row none))] }
      s.ready 0 thD [.s f.a.toNat, .s f.b.toNat] ∧ s.accs.find? (fun e => s.owns 0 e.2 && e.2.isFetch) = some (9, rowAcc 0x40 64 (.row none)))) ∧
    (let th : Thread := { th0 with wait := .dspt }
     let s : State := ({ run0 with threads := [(0, th)] } : State).modShip 0 (fun x => { x with ledger := [(0, { copy0 with st := .admitted })] })
     s.threads.get? 0 = some th ∧ th.wait = .dspt ∧ ∀ e ∈ (s.ship (shipOf 0)).ledger, e.2.launch = th.launch → e.2.thread = 0 → e.2.spec = false → e.2.st ≠ .sent ∧ e.2.st ≠ .held) := by
  refine ⟨?_, ?_, ?_, ?_, ?_⟩ <;> decide +kernel

def tok0 (k : TokKind) : Tok := { Tok.blank k (.agent 1) (.agent 0) 0 0 7 with expert := 2, fmt := 1, weight := 0x3F800000, row := bytesOf 64 0 }
/-- A state in which one token packet has reached township 0. -/
def tokS (k : TokKind) : State :=
  (({ dispS with toks := [tok0 k] } : State).modSect 0 (fun x => { x with records := [rec0] })).modShip 0 (fun x => { x with ledger := [(7, copy0)] })

theorem witness_TokenMessages :
    (∀ k ∈ [TokKind.tcopy, .admitCopy, .refuse, .room, .confirm, .refute, .tret],
      (tokS k).tokDeliverable (tok0 k) = true ∧ (tok0 k).dst = .agent 0 ∧ (tok0 k).kind = k ∧ (tok0 k).last = true ∧ (tok0 k).spec = false ∧
      (tokS k).shipOpen 0 = true ∧ (tokS k).tagOk 0 (tok0 k).tag = true) ∧
    (let m := tok0 .tcopy
     let u := (tokS .tcopy).takeTok m
     ((u.addRow 0 m).2.admitAt 0 m.sub m (u.addRow 0 m).1).isSome = true ∧
     (let p : Tok := { m with sub := 70 }
      ((u.addRow 0 p).2.admitAt 0 p.sub p (u.addRow 0 p).1).isSome = false)) ∧
    (let u := (tokS .admitCopy).takeTok (tok0 .admitCopy)
     u.copyOf? 0 (tok0 .admitCopy) = some copy0 ∧ u.launches.get? copy0.launch = some launchD ∧ copy0.spec = false) ∧
    (let u := ((tokS .refuse).modShip 0 (fun x => { x with ledger := [(7, { copy0 with spec := true })] })).takeTok (tok0 .refuse)
     u.copyOf? 0 (tok0 .refuse) = some { copy0 with spec := true }) ∧
    (let u := ((tokS .room).modShip 0 (fun x => { x with ledger := [(7, { copy0 with st := .held })] })).takeTok (tok0 .room)
     u.copyOf? 0 (tok0 .room) = some { copy0 with st := .held } ∧ copy0.expert = (tok0 .room).expert) ∧
    (∀ k ∈ [TokKind.confirm, .refute], ((tokS k).takeTok (tok0 k)).recordOf (0 * 64 + (tok0 k).sub) (tok0 k) = some rec0) ∧ rec0.taken = none ∧
    (let u := (tokS .tret).takeTok (tok0 .tret)
     u.copyOf? 0 (tok0 .tret) = some copy0 ∧ (u.launches.get? copy0.launch).bind (fun l => l.disp) = some disp0) ∧
    (let s : State := (tokS .room).modShip 0 (fun x => { x with ledger := [(7, { copy0 with st := .held })] })
     s.copy? 0 7 = some { copy0 with st := .held }) ∧
    (let l : Launch := { launchD with closedTo := 2 }
     let s : State := { dispS with launches := [(0, l)] }
     s.launches.get? 0 = some l ∧ l.disp = some disp0 ∧ disp0.first < s.settledTo 0 l ∧ l.signalled < s.settledTo 0 l ∧ disp0.fence = 0 ∧
     let d : DispDesc := { disp0 with fence := 0x9000 }
     let lf : Launch := { l with disp := some d }
     let sf : State := { dispS with launches := [(0, lf)] }
     sf.launches.get? 0 = some lf ∧ lf.disp = some d ∧ d.first < sf.settledTo 0 lf ∧ lf.signalled < sf.settledTo 0 lf ∧ d.fence ≠ 0 ∧
     sf.ctxs.get? (lf.ctx % 4096) = some ctx0 ∧ ({ sf with ctxs := [] } : State).ctxs.get? (lf.ctx % 4096) = none ∧
     ({ sf with ctxs := [] } : State).settledTo 0 lf = 2 ∧ dispS.settledTo 0 launchD ≤ disp0.first) := by
  refine ⟨?_, ?_, ?_, ?_, ?_, ?_, ?_, ?_, ?_, ?_⟩ <;> decide +kernel

/-- `dispS` with its thread speculative; and a speculative record for it. -/
def thDS : Thread := { thD with spec := some (spec0 []) }
def dispSS : State := { dispS with threads := [(0, thDS)] }
def recS : Record := { rec0 with spec := true }

theorem witness_DispatchInstructions_more :
    (let f : FmtE := ⟨4, 1, 0, 0, 0xC⟩
     let s : State := dispS.modSect 0 (fun x => { x with records := [rec0, { recS with order := 1, addr := 0x11C40 }] })
     s.ready 0 thD [.s f.a.toNat, .s f.d.toNat, .p (fld f.ext.toNat 3 2)] ∧ rec0 ∈ (s.sect (sectOf 0)).records ∧
     (rec0.expert == (thD.sr f.a.toNat).toNat && rec0.layer == (s.sect (sectOf 0)).layers.getD rec0.expert disp0.first && rec0.launch == thD.launch &&
       rec0.taken.isNone) = true ∧ (s.sect (sectOf 0)).whole rec0 = true ∧ rec0.spec = false ∧
     (∀ q ∈ (s.sect (sectOf 0)).records, q ≠ rec0 → rec0.order < q.order) ∧ (s.sect (sectOf 0)).slot?.isSome = true) ∧
    (let f : FmtE := ⟨4, 1, 0, 0, 0xC⟩
     run0.ready 0 th0 [.s f.a.toNat, .s f.d.toNat, .p (fld f.ext.toNat 3 2)] ∧ f.b = 0 ∧ f.imm = 0 ∧ fld f.ext.toNat 31 4 = 0 ∧
     fld f.ext.toNat 1 0 = 0 ∧ run0.launches.get? th0.launch = some launch0 ∧ launch0.disp = none) ∧
    (let f : FmtE := ⟨0, 2, 2, 0, 0x41⟩
     dispSS.canRun 0 thDS [.s f.a.toNat, .s f.b.toNat] ∧ thDS.spec = some (spec0 []) ∧ dispSS.padBusy 0 = false ∧ dispSS.acquiring 0 = false ∧
     badLocal ((thDS.sr f.a.toNat).toNat % 2 ^ 17) (64 * fld f.ext.toNat 5 0) = false) := by decide +kernel

/-- A packet kind with another last flag, and a state whose ledger entry 7 or record is another. -/
def ledgerS (k : TokKind) (c : Copy) : State := (tokS k).modShip 0 (fun x => { x with ledger := [(7, c)] })
def takenS (k : TokKind) : State :=
  ({ tokS k with threads := [(0, thDS)] } : State).modSect 0 (fun x => { x with records := [{ rec0 with taken := some 0 }] })
def policyS (p h : Nat) : State := { tokS .refuse with launches := [(0, { launchD with disp := some { disp0 with policy := p, hold := h } })] }

theorem witness_TokenMessages_more :
    (let m : Tok := { tok0 .tcopy with last := false }
     let s : State := { tokS .tcopy with toks := [m] }
     s.tokDeliverable m = true ∧ m.last = false) ∧
    (∀ c ∈ [false, true], let s := ledgerS .admitCopy { copy0 with spec := c }
     (s.takeTok (tok0 .admitCopy)).copyOf? 0 (tok0 .admitCopy) = some { copy0 with spec := c }) ∧ copy0.layer < { launchD with closedTo := 1 }.closedTo ∧
    (∀ p ∈ [(0, 0), (1, 0), (1, 5), (2, 0)], let u := (policyS p.1 p.2).takeTok (tok0 .refuse)
     (policyS p.1 p.2).tokDeliverable (tok0 .refuse) = true ∧ u.copyOf? 0 (tok0 .refuse) = some copy0 ∧ copy0.spec = false ∧
     u.launches.get? copy0.launch = some { launchD with disp := some { disp0 with policy := p.1, hold := p.2 } }) ∧
    (∀ k ∈ [TokKind.confirm, .refute], let u := (takenS k).takeTok (tok0 k)
     (takenS k).tokDeliverable (tok0 k) = true ∧ u.recordOf (0 * 64 + (tok0 k).sub) (tok0 k) = some { rec0 with taken := some 0 } ∧
     u.threads.get? 0 = some thDS ∧ thDS.spec = some (spec0 []) ∧
     (((tokS k).modSect 0 (fun x => { x with records := [] })).takeTok (tok0 k)).recordOf (0 * 64 + (tok0 k).sub) (tok0 k) = none) := by
  refine ⟨?_, ?_, ?_, ?_, ?_⟩ <;> decide +kernel

end Sys2Proof.Tests
end

