-- ==== Sys2Proof/Tests/Fabric.lean ====
section
/-! SUPPORT. Coherence, fabric and HBM: tests and states that meet the hypotheses of the statements. -/

namespace Sys2Proof.Tests

set_option Elab.async false
open Sys2Proof Sys2Proof.Machine

/-! ### Coherence -/

/-- A parcel that holds townships 0 to 3 and granules 1 and 2; 384 healthy channels. -/
def coh0 : State :=
  { State.reset with
    regs := [(Reg.memCap, 384)], tables := true, parcels := [(0, { ships := [0, 1, 2, 3], sites := [], grans := [1, 2], eases := [], down := false })] }
def cdpa : Nat := 2 ^ 30 + 0x8000
/-- A request of township 0 for the line at `cdpa`, of 8 bytes. -/
def creq (k : MsgKind) (so : Bool) : Msg := { Msg.blank k (.agent 0) (.home 3) cdpa 0 1 with size := 8, pay := some 5, sonly := so }
def cnet (m : Msg) : State := { coh0 with net := [m] }
/-- The line in state X, owned by township 1. -/
def owned : DirEntry := ⟨vecOnly 1, .X, 0, false, 0, none⟩

theorem witness_HomeServesARequest :
    (∀ k ∈ [MsgKind.rdS, .rdX, .upg, .rdU, .wrU, .atN], ∀ so ∈ [true, false],
      let s := cnet (creq k so)
      let u := s.take (creq k so)
      s.deliverable (creq k so) = true ∧ (creq k so).dst = .home 3 ∧ (creq k so).kind = k ∧ (creq k so).sonly = so ∧ u.ownerOk (creq k so) = true ∧
      s.mayEnter (creq k so) = true ∧ u.sliceBusy (u.channelOf cdpa) < 128 ∧
      u.channelHeld (u.channelOf cdpa) = false ∧ u.waitq.getD (cdpa / 128) [] = [] ∧ u.dir.get? (cdpa / 128) = none ∧ (u.dirSet (cdpa / 128)).length < 8 ∧
      u.easeLine cdpa = false) ∧
    (∀ k ∈ [MsgKind.rdS, .rdX, .upg], ∀ so ∈ [true, false],
      let s : State := { cnet (creq k so) with dir := [(cdpa / 128, owned)] }
      let u := s.take (creq k so)
      s.deliverable (creq k so) = true ∧ s.mayEnter (creq k so) = true ∧ u.sliceBusy (u.channelOf cdpa) < 128 ∧ u.ownerOk (creq k so) = true ∧ u.channelHeld (u.channelOf cdpa) = false ∧ u.waitq.getD (cdpa / 128) [] = [] ∧
      u.dir.get? (cdpa / 128) = some owned ∧ owned.st = .X) := by decide +kernel

theorem witness_NearMemoryAccessIsPerformedAtTheHome :
    ∀ k ∈ [MsgKind.rdU, .wrU, .atN],
      let m := creq k false
      let u := (cnet m).take m
      (cnet m).deliverable m = true ∧ m.dst = .home 3 ∧ m.kind = k ∧ m.flag = false ∧ m.op ≠ 16 ∧ u.ownerOk m = true ∧
      (cnet m).mayEnter m = true ∧ u.sliceBusy (u.channelOf m.dpa) < 128 ∧ u.channelHeld (u.channelOf m.dpa) = false ∧
      u.waitq.getD (m.dpa / 128) [] = [] ∧ u.dir.get? (m.dpa / 128) = none ∧ u.failedAt m.dpa = false ∧ u.memPoisoned m.dpa = false ∧
      u.memPoisoned (m.dpa + m.size - 1) = false := by decide +kernel

/-- A near add of 5 to a word that holds 40 leaves 45 at the home (R253). -/
theorem test_near_add :
    let m := { creq .atN false with op := 0 }
    let s : State := { cnet m with mem := Memory.empty.writeN cdpa 8 40 }
    (after s (exec (.atn m) s)).mem.readN cdpa 8 = atomResult 0 8 40 5 0 ∧ atomResult 0 8 40 5 0 = 45 := by decide +kernel

/-- A message of home 3 to township 0 about the line at `cdpa`. -/
def hmsg (k : MsgKind) : Msg := { Msg.blank k (.home 3) (.agent 0) cdpa 0 1 with pay := some 5, req := .agent 1 }
/-- Township 0 holds the line, modified, in way 0 of its set. -/
def owner0 (m : Msg) : State :=
  (cnet m).modShip 0 (fun x => { x with sets := [(cacheSetOf (cdpa / 128), ⟨[(0, ⟨cdpa / 128, .M, 77, 0, false⟩)], 0⟩)] })
/-- Township 0 waits for the answer of request 1. -/
def miss0 (k : MsgKind) (m : Msg) : State := (cnet m).modShip 0 (fun x => { x with misses := [(1, ⟨cdpa / 128, k, false, 4, none, 0, cdpa, false⟩)] })

theorem witness_TownshipAnswersTheHome :
    (∀ k ∈ [MsgKind.fwdS, .fwdX, .rcl], let s := owner0 (hmsg k)
      s.deliverable (hmsg k) = true ∧ (hmsg k).dst = .agent 0 ∧ (hmsg k).kind = k ∧ s.shipOpen 0 = true ∧ s.tagOk 0 0 = true ∧ s.lineFree 0 (cdpa / 128) = true ∧
      (s.ship 0).holding? (cdpa / 128) = some (.M, 77, false)) ∧
    (∀ k ∈ [MsgKind.inv, .wbAck, .data, .atR, .uAck, .specWait], let s := miss0 .rdU (hmsg k)
      s.deliverable (hmsg k) = true ∧ (hmsg k).dst = .agent 0 ∧ (hmsg k).kind = k ∧ (hmsg k).flag = false ∧ s.shipOpen 0 = true ∧ s.tagOk 0 0 = true ∧ s.lineFree 0 (cdpa / 128) = true ∧
      ((s.take (hmsg k)).ship 0).misses.get? 1 = some ⟨cdpa / 128, .rdU, false, 4, none, 0, cdpa, false⟩ ∧ (hmsg k).txid = 1) ∧
    (let s := miss0 .rdX (hmsg .data)
     s.deliverable (hmsg .data) = true ∧ ((s.take (hmsg .data)).ship 0).misses.get? 1 = some ⟨cdpa / 128, .rdX, false, 4, none, 0, cdpa, false⟩ ∧
      (hmsg .data).src = .home 3) ∧
    (let a : Acc := { acc0 with op := .atomic 1 4 5 0 .none }
     let s : State := { miss0 .atN (hmsg .atR) with accs := [(4, a)] }
     s.deliverable (hmsg .atR) = true ∧ ((s.take (hmsg .atR)).ship 0).misses.get? 1 = some ⟨cdpa / 128, .atN, false, 4, none, 0, cdpa, false⟩ ∧
      (s.take (hmsg .atR)).accs.get? 4 = some a ∧ a.op = .atomic 1 4 5 0 .none) := by decide +kernel

/-- FwdX to the owner of a modified line drops the way and sends the data on (R245). -/
theorem test_fwdx :
    let s := owner0 (hmsg .fwdX)
    let u := after s (exec (.fwdx (hmsg .fwdX)) s)
    ((u.ship 0).holding? (cdpa / 128), u.net.map (fun m => (m.kind, m.dst, m.grant, m.pay))) = (none, [(MsgKind.data, Node.agent 1, LineState.M, some 77)]) := by
  decide +kernel

/-- A message of township 0 to home 3. -/
def tmsg (k : MsgKind) : Msg := { Msg.blank k (.agent 0) (.home 3) cdpa 0 1 with pay := some 5 }

theorem witness_HomeCollectsAcknowledgements :
    (∀ k ∈ [MsgKind.dataH, .wb, .invAck, .cmpAck], let s : State := { cnet (tmsg k) with dir := [(cdpa / 128, { owned with vec := vecOnly 0 })] }
      s.deliverable (tmsg k) = true ∧ (tmsg k).dst = .home 3 ∧ (tmsg k).kind = k ∧
      (s.take (tmsg k)).dir.get? (cdpa / 128) = some { owned with vec := vecOnly 0 } ∧ vecBit (vecOnly 0) ((tmsg k).src.agent?.getD 0) = true) ∧
    (let m := tmsg .wrU
     (cnet m).net.contains m = true ∧ m.aged = false ∧ m.kind.cls = 0 ∧ m.src = .agent 0) := by decide +kernel

/-! ### Fabric power and HBM -/

/-- Township 0 asleep, channel-pair engine 1 asleep. -/
def sleepS (m : Msg) : State := (({ cnet m with engSleep := [(1, false)] } : State).modShip 0 (fun x => { x with asleep := true }))

theorem witness_SleepAndWake :
    ((coh0.ship 255).asleep = false ∧ 255 ∉ coh0.busyShips ∧ (coh0.ship 255).streams = [] ∧ (coh0.ship 255).held = [] ∧ ∀ e ∈ coh0.threads, shipOf e.1 ≠ 255) ∧
    (coh0.engSleep.has 191 = false ∧ coh0.engHeld.has 191 = false ∧ (∀ m ∈ coh0.net, ∀ c, m.dst = .home c → c / 2 ≠ 191) ∧ coh0.waitq = [] ∧ coh0.channelHeld (2 * 191) = false ∧
     coh0.channelHeld (2 * 191 + 1) = false) ∧
    (let m := hmsg .inv
     let s := sleepS m
     m.dst = .agent 0 ∧ (s.ship 0).asleep = true ∧ s.net.contains m = true ∧ s.heldFor m.dst = [] ∧ s.overtakes m.src m.dst m.kind.cls m.hdr false = false) ∧
    (let m := tmsg .rdS
     let s := sleepS m
     m.dst = .home 3 ∧ s.net.contains m = true ∧ s.heldFor m.dst = [] ∧ s.overtakes m.src m.dst m.kind.cls m.hdr false = false ∧ s.engSleep.has (3 / 2) = true) ∧
    (((sleepS (hmsg .inv)).modShip 0 (fun x => { x with waking := true })).ship 0).waking = true ∧
    ({ coh0 with engSleep := [(1, true)] } : State).engSleep.get? 1 = some true := by
  refine ⟨by decide +kernel, ⟨by decide +kernel, by decide +kernel, (fun m h => by cases h), by decide +kernel⟩, by decide +kernel⟩

/-- A resident weight set of easement 3 in bay 1, with a source. -/
def wset0 : WeightSet := ⟨2 ^ 51, 5 + 2 * 4096, 0x10000, 3, false, [1], true, false, 0, 0⟩
def stack0 (v : Nat) : State :=
  { coh0 with poison := [(16384, v)], ctxs := [(5, ctx0)], objs := [(7, { gen := 1, parcel := 16, base := 0, size := 0x10000, host := 0, dev := 0, fence := 0, value := 0, wset := some wset0 })] }

/-- The same states with READY. -/
def ready (s : State) : State := s.setBit Reg.glbStatus 0 true
/-- The set without a source. -/
def bare0 (v : Nat) : State := { stack0 v with objs := [(7, { gen := 1, parcel := 16, base := 0, size := 0x10000, host := 0, dev := 0, fence := 0, value := 0, wset := some { wset0 with source := 0 } })] }

theorem witness_StackReportsAndPoison :
    (cdpa < coh0.hbmTop ∧ coh0.channelOf cdpa < 384) ∧ coh0.hbmTop ≤ 2 ^ 40 ∧
    ((ready coh0).driverRow = true ∧ (ready coh0).bit (Reg.memCh 383) 3 = false ∧
     ((ready coh0).setBit (Reg.memCh 383) 3 true).driverRow = true ∧ ((ready coh0).setBit (Reg.memCh 383) 3 true).bit (Reg.memCh 383) 3 = true) ∧
    ((stack0 0).setOfPage 16384 = some (7, wset0) ∧ (stack0 0).poison.get? 16384 = some 0 ∧ wset0.source ≠ 0 ∧ (stack0 0).ctxOf wset0.sctx = some ctx0) ∧
    ((stack0 1).setOfPage 16384 = some (7, wset0) ∧ (stack0 1).poison.get? 16384 = some 1 ∧ (stack0 1).sealOk wset0 = true ∧
     (stack0 1).sourceWaits wset0 = false ∧ (stack0 1).linesHeld (fun l => l / 512 == 16384) = false ∧
     (let s : State := { stack0 1 with dir := [(16384 * 512, owned)] }
      s.setOfPage 16384 = some (7, wset0) ∧ s.sealOk wset0 = true ∧ s.sourceWaits wset0 = false ∧ s.linesHeld (fun l => l / 512 == 16384) = true)) ∧
    ((stack0 2).setOfPage 16384 = some (7, wset0) ∧ (stack0 2).poison.get? 16384 = some 2) ∧
    ((bare0 0).setOfPage 16384 = some (7, { wset0 with source := 0 }) ∧ (bare0 0).poison.get? 16384 = some 0) ∧
    (coh0.poison.get? 16384 = none ∧ ({ coh0 with poison := [(16384, 0)] } : State).setOfPage 16384 = none) ∧ coh0.driverRow = false := by decide +kernel

/-- An uncorrectable report lists the page of its burst (R566, R569). -/
theorem test_poison_listed : (after coh0 (exec (.hbmReadBurst cdpa true) coh0)).poison.get? (cdpa / 65536) = some 0 := by decide +kernel

theorem witness_RefreshStepsFollowTheTemperature : 11 < 12 ∧ (114 : BitVec 8).toInt < 115 ∧ stepFor 114 = 3 ∧ stepFor 84 = 0 := by decide +kernel

/-- At 104 °C a stack is at step 2; the reading 103 °C after step 3 keeps step 3, since 103 is above 105 - 3 (R296). -/
theorem test_refresh_step :
    let u := after coh0 (exec (.refreshStepChange 0 104) coh0)
    let v := after coh0 (exec (.refreshStepChange 0 105) coh0)
    let w := after v (exec (.refreshStepChange 0 103) v)
    (u.fieldOf (Reg.memStack 0) 9 8, w.fieldOf (Reg.memStack 0) 9 8) = (2, 3) := by decide +kernel

/-- Retraining enabled with every trigger; channel 5 waits. Its stack is 20 degrees warmer than at its last training, and it has seen two reports. -/
def train0 : State :=
  { coh0 with
    regs := [(Reg.memCap, 384), (Reg.glbStatus, 1), (Reg.memStack 0, 60), (Reg.memCh 5, BitVec.ofNat 64 (2 * 2 ^ 16)),
             (Reg.memRetrainCtrl, BitVec.ofNat 64 (3 + 2 ^ 16 + 2 ^ 40))]
    retrain := ⟨[5], [], [(5, 40)], [(5, 0)], [], [], []⟩ }
/-- A slice of channel 5 under way, with its phase and failures so far. -/
def slice0 (ph bad : Nat) : State :=
  { train0 with
    regs := [(Reg.memCap, 384), (Reg.memRetrainStat, BitVec.ofNat 64 (0x200 + 5)), (Reg.memCh 5, BitVec.ofNat 64 (2 + bad * 2 ^ 32))]
    retrain := ⟨[], [(5, ph)], [], [], [], [], []⟩ }

theorem witness_RetrainingInSlices :
    (train0.driverRow = true ∧ train0.bit Reg.memRetrainCtrl 0 = true ∧ train0.fieldOf Reg.memRetrainCtrl 31 16 ≠ 0 ∧ train0.bit Reg.memRetrainCtrl 1 = true ∧
     train0.drifted 5 = true ∧ train0.fieldOf Reg.memRetrainCtrl 47 40 ≠ 0 ∧ train0.ceRisen 5 = true) ∧
    (train0.bit Reg.memRetrainStat 9 = false ∧ train0.retrain.phase.has 5 = false ∧ train0.retrain.queue.head? = some 5 ∧ train0.fieldOf (Reg.memCh 5) 2 0 < 3) ∧
    (∀ ph ∈ [0, 3], let s := slice0 ph 0
      s.bit Reg.memRetrainStat 9 = true ∧ s.fieldOf Reg.memRetrainStat 8 0 = 5 ∧ s.retrain.phase.getD 5 0 = ph) ∧
    (∀ bad ∈ [1, 2], let s := slice0 0 bad
      let s1 := (s.setBit Reg.memRetrainStat 9 false).trace 4 1 (5 / 2) (bytesOf 4 5 ++ bytesOf 4 0 ++ bytesOf 4 (b2n false))
      (s1.addSat (Reg.memCh 5) 35 32 1).fieldOf (Reg.memCh 5) 35 32 = bad + 1) ∧
    coh0.fieldOf (Reg.memCh 383) 2 0 < 3 ∧ coh0.channelHeld 383 = false ∧ (slice0 0 0).fieldOf (Reg.memCh 5) 2 0 < 3 ∧ (slice0 0 0).channelHeld 5 = true := by
  decide +kernel

/-- A function queue of the physical function with one started FW command. -/
def queue0 : Queue :=
  { ctx := 0, fn := 0, group := 0, slot := 0, log2 := 4, ring := 0, reply := 0, vector := 0, prio := 0, fence := 0, fetch := 0, tail := 0, ordinal := 0, st := .running,
    grade := 0, dead := false, cmds := [(0, ⟨0x080, 0, [], .started, 0, 0, none, none⟩)], signals := [], subs := [] }
/-- A parcel that is down; an open FW command at the head of a function queue. -/
def down0 : State :=
  { coh0 with
    parcels := [(0, { ships := [0], sites := [], grans := [], eases := [], down := true })]
    queues := [(2, queue0)] }

theorem witness_DomainAndDeviceErrors :
    (let s (ease : Bool) : State := { coh0 with dir := [(cdpa / 128, { owned with ease := ease })] }
     (s true).dir.get? (cdpa / 128) = some { owned with ease := true } ∧ (s false).parcels.has owned.parcel = true) ∧
    (coh0.reservedOwner 0x07 (coh0.hbmTop - 2 ^ 33 + platOff 0 0) = some 0 ∧ coh0.shipAtRouter 0 = some 0 ∧ coh0.parcelOfShip 0 = some 0) ∧
    (let s : State := { coh0 with regs := [(Reg.memCap, 384), (Reg.cadPEntries 0, BitVec.ofNat 64 (4 * 2 ^ 32))] }
     s.reservedOwner 0x06 (s.rsv (cadOff 0)) = some 0 ∧ s.parcels.has 0 = true) ∧
    coh0.errorAt 0x05 0 0 ≠ (0, 0, 0) ∧
    (let x : Parcel := { ships := [0], sites := [], grans := [], eases := [], down := true }
     down0.parcels.get? 0 = some x ∧ x.down = true ∧ ∀ t ∈ x.ships, (down0.ship t).test = none) ∧
    (∃ x, down0.queues.get? 2 = some x ∧ x.ctx = 0 ∧ ∃ c, x.cmds.get? 0 = some c ∧ fwOpcode c.opcode = true ∧ c.open_ = true) ∧ (ready coh0).driverRow = true := by
  refine ⟨by decide +kernel, by decide +kernel, by decide +kernel, by decide +kernel, by decide +kernel, ⟨_, rfl, rfl, _, rfl, by decide +kernel⟩, by decide +kernel⟩

end Sys2Proof.Tests
end

