-- ==== Sys2Proof/Tests/Queues.lean ====
section
/-! SUPPORT. Commands on queues: tests and states that meet the hypotheses of the statements. -/

namespace Sys2Proof.Tests

set_option Elab.async false
open Sys2Proof Sys2Proof.Machine

/-! ### Commands on queues -/

/-- A command packet: opcode, context handle 5 of generation 2, and parameters at byte offsets. -/
def pkt (op : Nat) (l : List (Nat × Nat)) : Nat := op + (5 + 2 * 4096) * 2 ^ 32 + (l.map (fun e => e.2 * 2 ^ (8 * e.1))).sum
def cmd0 (op : Nat) (st : CmdSt) (l : List (Nat × Nat)) : Cmd := ⟨pkt op l, 1, [], st, 0, 0, none, none⟩
/-- A queue with one command; context 0 makes it a function queue. -/
def cq (ctx : Nat) (c : Cmd) : Queue := { queue0 with ctx := ctx, cmds := [(0, c)] }
def cxt : Context := { ctx0 with fn := 0 }
def fence0 : FenceObj := ⟨1, 5, 0, 0x8000, 0x8000, 2 ^ 30 + 0x8000⟩
/-- Parcel 0 with townships 0 to 3, site 0, granules 1 and 2 and easement 3; its live context 5 and fence 3; the memory of `mem0`. -/
def cmdB : State :=
  { mem0 with
    launches := [], threads := [], ctxs := [(5, cxt)], fences := [(3, fence0)]
    parcels := [(0, { ships := [0, 1, 2, 3], sites := [0], grans := [1, 2], eases := [(8, 3)], down := false })] }
def onQ (s : State) (x : Queue) : State := { s with queues := [(2, x)] }
/-- `cmdB` with one started command on context queue 2. -/
def started (op : Nat) (l : List (Nat × Nat)) : State := onQ cmdB (cq 8197 (cmd0 op .started l))
def serving (op : Nat) (d : List Nat) (l : List (Nat × Nat)) : State := onQ cmdB (cq 8197 (cmd0 op (.serving d) l))

theorem witness_PacketsAreFetchedStartedAndAnswered :
    (let x : Queue := { queue0 with cmds := [], tail := 1 }
     let s : State := (onQ cmdB x).modFn 0 (fun f => { f with bme := true })
     s.queues.get? 2 = some x ∧ x.ctx = 0 ∧ x.dead = false ∧ x.fetch ≠ x.tail ∧ x.cmds.has x.fetch = false ∧ s.hostOpen x.fn = true) ∧
    (∀ op ∈ [0x080, 0x900], let x := cq 0 (cmd0 op .fetched [])
     let s := onQ cmdB x
     s.queues.get? 2 = some x ∧ x.next? = some (0, cmd0 op .fetched []) ∧ x.st = .running ∧ s.mayStart x (cmd0 op .fetched []) = true ∧ x.ctx = 0 ∧
     s.startCheck x (cmd0 op .fetched []) = (if op = 0x080 then none else some ⟨0x10, 0x900, 0⟩) ∧
     s.recordLost (ctxOff ((cmd0 op .fetched []).context % 4096)) = false ∧ s.recordLost (queueOff 2) = false) ∧
    (let c := cmd0 0x001 (.done ⟨0, 0, 0⟩) []
     (onQ cmdB (cq 0 c)).queues.get? 2 = some (cq 0 c) ∧ (cq 0 c).cmds.get? 0 = some c ∧ (onQ cmdB (cq 0 c)).degraded = false ∧ c.signalled = false ∧
     c.interrupts = false) := by decide +kernel

/-- An unassigned opcode, a reserved header bit, a context queue's opcode, and a PF-only opcode on a VF's queue. -/
theorem witness_UnknownAndMisplacedPacketsAreAnswered :
    ∀ e ∈ [(0x900, 0, 0), (0x080, 2 ^ 15, 0), (0x080, 2 ^ 52, 0), (0x040, 0, 0), (0x080, 0, 1)],
      let c : Cmd := ⟨pkt e.1 [] + e.2.1, 1, [], .fetched, 0, 0, none, none⟩
      let x : Queue := { cq 0 c with fn := e.2.2 }
      let s := onQ cmdB x
      s.queues.get? 2 = some x ∧ x.next? = some (0, c) ∧ x.cmds.get? 0 = some c ∧ c.st = .fetched ∧ x.st = .running ∧ s.mayStart x c = true ∧ x.ctx = 0 ∧
      c.opcode = e.1 ∧ (opcodeKind c.opcode).1 = (if e.1 = 0x900 then 0 else if e.1 = 0x040 then 2 else 3) ∧ c.pkt.testBit 15 = (e.2.1 == 2 ^ 15) ∧
      (fld c.pkt 55 52 ≠ 0 ↔ e.2.1 = 2 ^ 52) ∧ (e.2.2 = 1 → (opcodeKind c.opcode).2 = true ∧ fld c.pkt 63 52 = 0) := by decide +kernel

theorem witness_ContextAndFenceCommands :
    ((started 0x001 []).runs 2 0 0x001 (cq 8197 (cmd0 0x001 .started [])) (cmd0 0x001 .started []) ∧ packetCheck (pkt 0x001 []) [] [] [] = none) ∧
    (∀ op ∈ [0x002, 0x003], let l := [(8, 3 + 2 ^ 20), (16, 9)]
      let s := started op l
      s.named (cmd0 op .started l) 5 cxt ∧ s.fenceOf (pb (pkt op l) 11 8) = some (3, fence0) ∧ s.rsvLost (fenceOff (pb (pkt op l) 11 8 % 2 ^ 20)) = false ∧ fence0.parcel = cxt.parcel ∧
      packetCheck (pkt op l) [(8, 11), (16, 23)] [] [] = none ∧ s.runs 2 0 op (cq 8197 (cmd0 op .started l)) (cmd0 op .started l) ∧ s.poisoned fence0.word = false) ∧
    (let l := [(8, 3 + 2 ^ 20)]
     let s := started 0x035 l
     s.named (cmd0 0x035 .started l) 5 cxt ∧ s.runs 2 0 0x035 (cq 8197 (cmd0 0x035 .started l)) (cmd0 0x035 .started l) ∧
     s.fenceOf (pb (pkt 0x035 l) 11 8) = some (3, fence0) ∧ s.rsvLost (fenceOff (pb (pkt 0x035 l) 11 8 % 2 ^ 20)) = false ∧ packetCheck (pkt 0x035 l) [(8, 11)] [] [] = none ∧ fence0.ctx = 5) ∧
    (let d := [fence0.word, 0x8000, 0x8000]
     let l := [(8, 3 + 2 ^ 20)]
     let s := serving 0x003 d l
     s.named (cmd0 0x003 (.serving d) l) 5 cxt ∧ s.serves 2 0 0x003 (cq 8197 (cmd0 0x003 (.serving d) l)) (cmd0 0x003 (.serving d) l) d ∧
     s.poisoned fence0.word = false ∧ pb (pkt 0x003 l) 23 16 ≤ s.cohRead fence0.word 8) ∧
    (let l := [(8, 0x8000), (16, 6)]
     let s := started 0x034 l
     s.named (cmd0 0x034 .started l) 5 cxt ∧ s.runs 2 0 0x034 (cq 8197 (cmd0 0x034 .started l)) (cmd0 0x034 .started l) ∧
     packetCheck (pkt 0x034 l) [(8, 23)] [(pvaHigh (pkt 0x034 l) 8, 8)] [(pb (pkt 0x034 l) 15 8 % 16 != 0, 8)] = none ∧
     s.fenceWord cxt none (pb (pkt 0x034 l) 15 8) 4 = .ok (2 ^ 30 + 0x8000) ∧ s.fences.length < 2 ^ 20) := by decide +kernel

/-- FENCE_CREATE writes INITIAL at the word and zero flags after it (R426). -/
theorem test_fence_create :
    let s := started 0x034 [(8, 0x8000), (16, 6)]
    let u := after s (exec (.fenceCreate 2 0) s)
    (u.mem.readN (2 ^ 30 + 0x8000) 8, u.mem.readN (2 ^ 30 + 0x8008) 8, (u.cmd? 2 0).map (fun c => c.st)) = (6, 0, some (.done ⟨0, 0, 2 ^ 20⟩)) := by decide +kernel

theorem witness_QueueAndGroupCommands :
    (let s := started 0x011 []
     s.runs 2 0 0x011 (cq 8197 (cmd0 0x011 .started [])) (cmd0 0x011 .started []) ∧ (cq 8197 (cmd0 0x011 .started [])).fn = 0 ∧
     packetCheck (pkt 0x011 []) [] [] [] = none ∧ s.groups.length < 4096) ∧
    (let l := [(8, 7)]
     let s : State := { started 0x012 l with groups := [(7, ⟨0, 7⟩)] }
     s.runs 2 0 0x012 (cq 8197 (cmd0 0x012 .started l)) (cmd0 0x012 .started l) ∧ packetCheck (pkt 0x012 l) [(8, 9)] [] [] = none ∧
     s.groups.get? (pb (pkt 0x012 l) 9 8) = some ⟨0, 7⟩ ∧ (∀ e ∈ s.queues, e.2.group ≠ pb (pkt 0x012 l) 9 8)) ∧
    (let l := [(8, 63), (16, 0x1000), (24, 0x2000), (40, 15)]
     let p := pkt 0x010 l
     let s : State := { started 0x010 l with regs := [(Reg.glbVfCfg 63, BitVec.ofNat 64 (0x10 + 2 ^ 48))] }
     s.runs 2 0 0x010 (cq 8197 (cmd0 0x010 .started l)) (cmd0 0x010 .started l) ∧ reservedByte p [(8, 8), (16, 41)] = none ∧ pb p 8 8 = 63 ∧
     pb p 23 16 % 4096 = 0 ∧ pb p 31 24 % 4096 = 0 ∧ pb p 39 32 = 0 ∧ pb p 40 40 = 15 ∧ s.vfBound 63 = true ∧ (∀ e ∈ s.queues, e.2.ctx = 0 → e.2.fn ≠ 63) ∧
     s.vfGroups 63 ≠ 0 ∧ s.groups.length < 4096 ∧ s.queues.length < 16384) ∧
    (let l := [(8, 7), (10, 15), (11, 4), (12, 0xFFFF), (14, 3), (16, 0x1000), (24, 0x2000)]
     let p := pkt 0x013 l
     let s : State := { started 0x013 l with groups := [(7, ⟨0, 0⟩)] }
     s.runs 2 0 0x013 (cq 8197 (cmd0 0x013 .started l)) (cmd0 0x013 .started l) ∧ s.named (cmd0 0x013 .started l) 5 cxt ∧
     reservedByte p [(8, 14), (16, 35)] = none ∧ pvaHigh p 16 = false ∧ pvaHigh p 24 = false ∧ pb p 9 8 < 4096 ∧ pb p 10 10 < 16 ∧ 4 ≤ pb p 11 11 ∧
     pb p 11 11 ≤ 15 ∧ pb p 13 12 = 0xFFFF ∧ pb p 14 14 < 4 ∧ pb p 23 16 % 4096 = 0 ∧ pb p 31 24 % 4096 = 0 ∧ pb p 35 32 = 0 ∧
     s.groups.get? (pb p 9 8) = some ⟨0, 0⟩ ∧ pb p 10 10 ≠ 0 ∧ s.queueAt (pb p 9 8) (pb p 10 10) = none ∧ s.queues.length < 16384) ∧
    (let l := [(8, 3)]
     let y : Queue := { queue0 with ctx := 8197, st := .stopped }
     let s : State := { started 0x014 l with queues := [(2, cq 8197 (cmd0 0x014 .started l)), (3, y)] }
     s.runs 2 0 0x014 (cq 8197 (cmd0 0x014 .started l)) (cmd0 0x014 .started l) ∧
     packetCheck (pkt 0x014 l) [(8, 9)] [] [(decide (16383 < pb (pkt 0x014 l) 9 8), 8)] = none ∧ s.queues.get? (pb (pkt 0x014 l) 9 8) = some y ∧ y.fn = 0 ∧
     y.ctx ≠ 0 ∧ y.st = .stopped) := by
  repeat' apply And.intro
  all_goals decide +kernel

/-- A memory object of parcel 0 in granule 0 with two host references. -/
def obj0 : MemObj := { gen := 1, parcel := 0, base := 0, size := 0x10000, host := 2, dev := 0, fence := 0, value := 0, wset := none }
def cxtH : Context := { cxt with holds := [(4, 2)] }
def objS (op : Nat) (l : List (Nat × Nat)) : State := { started op l with objs := [(4, obj0)], ctxs := [(5, cxtH)] }

theorem witness_ContextAndMemoryCommands :
    (let l := [(8, 0), (12, 77), (16, 0x10000), (24, 0x1000)]
     let p := pkt 0x020 l
     let s := started 0x020 l
     s.runs 2 0 0x020 (cq 8197 (cmd0 0x020 .started l)) (cmd0 0x020 .started l) ∧ reservedByte p [(8, 8), (12, 40)] = none ∧ fld p 119 116 = 0 ∧ pb p 15 15 = 0 ∧
     pvaHigh p 32 = false ∧ pb p 23 16 % 65536 = 0 ∧ pb p 31 24 % 4096 = 0 ∧ pb p 39 32 = 0 ∧ pb p 23 16 < 2 ^ 48 ∧ s.confidential = false ∧ s.ctxs.length < 4096 ∧
     s.parcels.has (pb p 8 8) = true ∧ (∀ e ∈ s.ctxs, e.2.fn = 0 → e.2.pasid ≠ fld p 115 96)) ∧
    (let s := started 0x022 []
     s.named (cmd0 0x022 .started []) 5 cxt ∧ s.runs 2 0 0x022 (cq 8197 (cmd0 0x022 .started [])) (cmd0 0x022 .started []) ∧ packetCheck (pkt 0x022 []) [] [] [] = none ∧
     ((s.dropTlb 5).sendXinv 5 cxt).invalidated 5 (s.openIds (fun a => a.ctx % 4096 == 5)) = true) ∧
    (let s := serving 0x022 [5] []
     s.named (cmd0 0x022 (.serving [5]) []) 5 cxt ∧ s.serves 2 0 0x022 (cq 8197 (cmd0 0x022 (.serving [5]) [])) (cmd0 0x022 (.serving [5]) []) [5] ∧
     s.invalidated 5 [] = true) ∧
    (let s0 := started 0x022 []
     let s : State := { s0 with regs := (Reg.siteStat 0, 4) :: s0.regs }
     ((s.dropTlb 5).sendXinv 5 cxt).invalidated 5 (s.openIds (fun a => a.ctx % 4096 == 5)) = false) ∧
    (let l := [(8, 0), (16, 0x1000), (32, 9)]
     let p := pkt 0x030 l
     let s := started 0x030 l
     s.runs 2 0 0x030 (cq 8197 (cmd0 0x030 .started l)) (cmd0 0x030 .started l) ∧ reservedByte p [(8, 27), (32, 39)] = none ∧ pb p 15 8 % 4096 = 0 ∧
     pb p 23 16 ≠ 0 ∧ pb p 23 16 % 4096 = 0 ∧ pb p 27 24 = 0 ∧ s.objs.length < 2 ^ 20 ∧ pb p 15 8 + pb p 23 16 ≤ 2 ^ 48 ∧
     (pb p 15 8 / 2 ^ 30 = 0 ∧ (pb p 15 8 + pb p 23 16 - 1) / 2 ^ 30 = 0 ∧ (s.platEntry 0 0 none).testBit 0 = true) ∧ cxt.holds.length < 16384) ∧
    (∀ op ∈ [0x031, 0x032], let l := [(8, 4 + 2 ^ 20), (12, 1)]
      let s := objS op l
      s.named (cmd0 op .started l) 5 cxtH ∧ s.objOf (pb (pkt op l) 11 8) 0 = some (4, obj0) ∧ s.rsvLost (objOff (pb (pkt op l) 11 8 % 2 ^ 20)) = false ∧ pb (pkt op l) 15 12 = 1 ∧ packetCheck (pkt op l) [(8, 15)] [] [] = none ∧
      cxtH.holds.has 4 = true ∧ cxtH.holds.getD 4 0 = 2 ∧ s.runs 2 0 op (cq 8197 (cmd0 op .started l)) (cmd0 op .started l)) ∧
    (let l := [(8, 4 + 2 ^ 20)]
     let s := objS 0x033 l
     s.named (cmd0 0x033 .started l) 5 cxtH ∧ s.objOf (pb (pkt 0x033 l) 11 8) 0 = some (4, obj0) ∧ s.rsvLost (objOff (pb (pkt 0x033 l) 11 8 % 2 ^ 20)) = false ∧ packetCheck (pkt 0x033 l) [(8, 11)] [] [] = none ∧
     s.runs 2 0 0x033 (cq 8197 (cmd0 0x033 .started l)) (cmd0 0x033 .started l)) := by
  repeat' apply And.intro
  all_goals decide +kernel

/-- An object that is a weight set of parcel 0. -/
def wobj (w : WeightSet) : MemObj := { obj0 with host := 1, wset := some w }
def wsetS (op : Nat) (l : List (Nat × Nat)) (w : WeightSet) : State :=
  { started op l with
    objs := [(4, wobj w)], eases := [(3, { size := 1, map := [], wset := 4 + 2 ^ 20 })]
    regs := (Reg.cmdWpoolCfg, BitVec.ofNat 64 (0x5 + 4 * 2 ^ 16)) :: (started op l).regs }
def wAbsent : WeightSet := { wset0 with resident := false, bays := [] }

theorem witness_WeightSetCommands :
    (let l := [(8, 3 * 2 ^ 50), (16, 0x10000), (24, 3), (26, 1)]
     let p := pkt 0x060 l
     let e : Easement := { size := 1, map := [], wset := 0 }
     let s : State := { started 0x060 l with eases := [(3, e)] }
     s.runs 2 0 0x060 (cq 8197 (cmd0 0x060 .started l)) (cmd0 0x060 .started l) ∧ s.named (cmd0 0x060 .started l) 5 cxt ∧ reservedByte p [(8, 26)] = none ∧
     pvaHigh p 8 = false ∧ pb p 15 8 % 65536 = 0 ∧ inHost (pb p 15 8) = true ∧ pb p 23 16 ≠ 0 ∧ pb p 23 16 % 65536 = 0 ∧ pb p 25 24 = 3 ∧ pb p 26 26 < 2 ∧
     (s.parcels.get? 0).map (fun pc => pc.eases) = some [(8, 3)] ∧ s.eases.get? 3 = some e ∧ pb p 23 16 ≤ e.size * 2 ^ 30 ∧ s.objs.length < 2 ^ 20 ∧
     cxt.holds.length < 16384) ∧
    (∀ op ∈ [0x061, 0x062, 0x063, 0x064], let l := [(8, 4 + 2 ^ 20)]
      let w : WeightSet := { wset0 with pins := if op = 0x063 then 1 else 0 }
      let s := wsetS op l w
      s.named (cmd0 op .started l) 5 cxt ∧ packetCheck (pkt op l) [(8, 11)] [] [] = none ∧ s.objOf (pb (pkt op l) 11 8) 0 = some (4, wobj w) ∧
      (wobj w).wset = some w ∧ s.runs 2 0 op (cq 8197 (cmd0 op .started l)) (cmd0 op .started l) ∧ w.resident = true ∧ w.loading = false ∧
      (op = 0x063 → w.pins ≠ 0) ∧ (op = 0x064 → w.pins = 0) ∧ (wobj w).dev = 0 ∧ s.rsvLost (objOff (pb (pkt op l) 11 8 % 2 ^ 20)) = false) ∧
    (let l := [(8, 4 + 2 ^ 20)]
     let s := wsetS 0x061 l wAbsent
     s.objOf (pb (pkt 0x061 l) 11 8) 0 = some (4, wobj wAbsent) ∧ wAbsent.resident = false ∧ wAbsent.loading = false ∧ s.rsvLost (objOff (pb (pkt 0x061 l) 11 8 % 2 ^ 20)) = false ∧ ((s.touchSets [4]).loadSet 4).toOption.isSome = true) ∧
    (let w : WeightSet := { wset0 with loading := true, resident := false, sealed := false }
     (wsetS 0x061 [] w).wset? 4 = some w ∧ w.loading = true ∧ w.sealed = false ∧ (wsetS 0x061 [] w).sourceWaits w = false ∧ (wsetS 0x061 [] w).linesHeld (inGranules w.bays) = false ∧
     ({ wsetS 0x061 [] w with dir := [(2 ^ 23, owned)] } : State).linesHeld (inGranules w.bays) = true ∧
     ({ wsetS 0x061 [] w with dir := [(2 ^ 23, owned)] } : State).sourceWaits w = false) := by
  repeat' apply And.intro
  all_goals decide +kernel

theorem witness_LaunchesCopiesAndWork :
    (∀ gt ∈ [0, 1], let l := [(8, 0x1000), (24, gt), (26, 1), (27, 1), (28, 1)]
      let s := started 0x040 l
      let c := cmd0 0x040 .started l
      s.runs 2 0 0x040 (cq 8197 c) c ∧ s.named c 5 cxt ∧ s.launchCheck (s.req 2 0 (cq 8197 c) c) cxt c = .ok (none, none) ∧ c.early = none ∧ c.refs = [] ∧
      (∀ r ∈ s.launchReads (s.req 2 0 (cq 8197 c) c) cxt c, s.engineHeld cxt r.1 r.2 = false) ∧
      pb c.pkt 25 24 * pb c.pkt 26 26 * pb c.pkt 27 27 * pb c.pkt 28 28 = gt) ∧
    (∀ n ∈ [0, 2 ^ 40], let l := [(8, 0x8000), (16, 2 ^ 45), (24, n)]
      let s := started 0x041 l
      s.runs 2 0 0x041 (cq 8197 (cmd0 0x041 .started l)) (cmd0 0x041 .started l) ∧ reservedByte (pkt 0x041 l) [(8, 39)] = none ∧ pvaHigh (pkt 0x041 l) 8 = false ∧
      pvaHigh (pkt 0x041 l) 16 = false ∧ pb (pkt 0x041 l) 31 24 = n ∧ overlaps (pb (pkt 0x041 l) 15 8) (pb (pkt 0x041 l) 23 16) (pb (pkt 0x041 l) 31 24) = false) ∧
    (∀ n ∈ [0, 2 ^ 40], let l := [(8, 0x8000), (16, n), (24, 7)]
      let s := started 0x042 l
      s.runs 2 0 0x042 (cq 8197 (cmd0 0x042 .started l)) (cmd0 0x042 .started l) ∧ reservedByte (pkt 0x042 l) [(8, 35)] = none ∧ pvaHigh (pkt 0x042 l) 8 = false ∧
      pb (pkt 0x042 l) 23 16 = n) ∧
    (let l := [(9, 2)]
     let p := pkt 0x043 l
     let s0 := started 0x043 l
     let s : State := ({ s0 with regs := (Reg.siteStat 0, 4) :: s0.regs } : State).modSite 0 (fun x => { x with sb := [(8, 0x20)] })
     s.runs 2 0 0x043 (cq 8197 (cmd0 0x043 .started l)) (cmd0 0x043 .started l) ∧ s.named (cmd0 0x043 .started l) 5 cxt ∧ reservedByte p [(8, 9), (12, 63)] = none ∧
     pb p 8 8 = 0 ∧ pb p 9 9 = 2 ∧ s.parcelOfSite 0 = some 0 ∧ pb p 9 9 < fld ((s.site 0).sb.getD 8 0).toNat 9 3 ∧ s.fieldOf (Reg.siteStat 0) 2 0 = 4) ∧
    (∀ n ∈ [16, 8192], let l := [(8, 0x8000), (16, n), (24, 7)]
      let c := cmd0 0x042 (.serving [0]) l
      let s := serving 0x042 [0] l
      s.serves 2 0 0x042 (cq 8197 c) c [0] ∧ s.named c 5 cxt ∧ (cq 8197 c).st ≠ .stopped ∧ s.linkHeld cxt (pb c.pkt 15 8 + 0) = false ∧ c.poison = 0 ∧
      0 < pb c.pkt 23 16 ∧ pb c.pkt 23 16 = n) ∧
    (let l := [(8, 0x8000), (16, 16), (24, 7)]
     let s := serving 0x042 [0] l
     let piece (s : State) : Option State := (s.fillRuns cxt (cq 8197 (cmd0 0x042 (.serving [0]) [(8, 0x8000), (16, 16), (24, 7)])).prio 7 3 0x8000 16).toOption.map (fun s1 =>
       (s1.countRuns cxt (s.copyShip 0 0) true 3 0x8000 16).modCmd 2 0 (fun c => { c with poison := satAdd 32 c.poison 0 }))
     (piece s).any (fun u => !u.writesOpen 0) = true ∧
     (piece { s with hostWait := [.write 0 none 0 [] none] }).any (fun u => u.writesOpen 0) = true) ∧
    (let c := cmd0 0x043 (.serving [0, 2, 0, 1]) [(9, 2)]
     let s := (serving 0x043 [0, 2, 0, 1] [(9, 2)]).modSite 0 (fun x => { x with sb := [(8, 0x20), (0x200 + 8 * 2, 4)] })
     s.serves 2 0 0x043 (cq 8197 c) c [0, 2, 0, 1] ∧ s.named c 5 cxt ∧ s.parcelOfSite 0 = some cxt.parcel ∧ (s.site 0).atEngine 2 < s.engDepth 0 2 ∧ (s.site 0).works.length < 4096 ∧
     s.workAhead 2 0 2 1 = false) := by
  repeat' apply And.intro
  all_goals decide +kernel

theorem witness_StopsResumesAndRestores :
    (∀ op ∈ [0x015, 0x016], let l := [(10, 3)]
      let y : Queue := { queue0 with ctx := 8197 }
      let s : State := { started op l with queues := [(2, cq 0 (cmd0 op .started l)), (3, y)] }
      pb (pkt op l) 8 8 = 0 ∧ pb (pkt op l) 11 10 = 3 ∧ s.queues.get? 3 = some y ∧ y.ctx ≠ 0 ∧ y.fn = 0 ∧ reservedByte (pkt op l) [(8, 12)] = none ∧ pb (pkt op l) 9 9 = 0 ∧
      s.runs 2 0 op (cq 0 (cmd0 op .started l)) (cmd0 op .started l) ∧ y.st ≠ .stopping ∧ ∀ e ∈ s.launches, e.2.st ≠ .saved) ∧
    (let y : Queue := { queue0 with ctx := 8197, st := .stopping, cmds := [] }
     let c := cmd0 0x015 (.serving [0, 0, 3]) [(10, 3)]
     let s : State := { cmdB with queues := [(2, cq 0 c), (3, y)] }
     s.serves 2 0 0x015 (cq 0 c) c [0, 0, 3] ∧ s.stopReady 3 = true ∧ s.slicing = false ∧
     s.launches.filter (fun e => [3].contains e.2.queue && e.2.st == .stopping) = [] ∧ ∀ e ∈ s.launches, e.2.queue = 3 → s.parcelHalted e.2.parcel = false) ∧
    (let l : Launch := { launch0 with st := .restoring }
     let s : State := { cmdB with launches := [(0, l)] }
     s.launches.get? 0 = some l ∧ l.st = .restoring ∧ s.mayPlace 0 l = true ∧ (s.fits l).isSome = true ∧ s.slicing = false ∧ s.frameLost l = none ∧
     let h : State := s.setField (Reg.memCh 0) 2 0 2
     h.launches.get? 0 = some l ∧ h.mayPlace 0 l = true ∧ (h.fits l).isSome = true ∧ h.slicing = true) ∧
    (let y : Queue := { queue0 with ctx := 8197, st := .stopping, cmds := [] }
     let c := cmd0 0x015 (.serving [0, 0, 3]) [(10, 3)]
     let s : State := { cmdB with queues := [(2, cq 0 c), (3, y)], launches := [(0, { launch0 with st := .stopping })] }
     let h : State := s.setField (Reg.memCh 0) 2 0 2
     s.serves 2 0 0x015 (cq 0 c) c [0, 0, 3] ∧ s.stopReady 3 = true ∧ s.slicing = false ∧ h.serves 2 0 0x015 (cq 0 c) c [0, 0, 3] ∧
     h.stopReady 3 = true ∧ h.slicing = true ∧ h.launches.filter (fun e => [3].contains e.2.queue && e.2.st == .stopping) ≠ []) ∧
    (let s : State := ({ cmdB with accs := [(4, acc0)] } : State).modShip 0 (fun x => { x with returns := [(1, ⟨4, 0, false, none, false⟩)] })
     (s.ship 0).returns.get? 1 = some ⟨4, 0, false, none, false⟩ ∧ s.accs.get? 4 = some acc0 ∧ acc0.st = .done) := by decide +kernel

end Sys2Proof.Tests
end

