-- ==== Sys2Proof/Tests/Parcels.lean ====
section
/-! SUPPORT. The cadastre, parcels, easements, keys and sharing: tests and states that meet the hypotheses. -/

namespace Sys2Proof.Tests

set_option Elab.async false
open Sys2Proof Sys2Proof.Machine

/-! ### The cadastre -/

def pcl0 : Parcel := { ships := [0, 1], sites := [0], grans := [1], eases := [], down := false }
/-- Parcel 0 of 16 healthy channels, pages of 32 KiB, 64 frames, 64 entries and 4 sequence numbers; `cxt` is its context 5. -/
def cadB : State :=
  { State.reset with
    regs := [(Reg.memCap, 16), (Reg.cadPFrames 0, 64), (Reg.cadPEntries 0, BitVec.ofNat 64 (64 * 2 ^ 32)), (Reg.cadPSeqs 0, BitVec.ofNat 64 (4 * 2 ^ 32)),
      (platKey 0 0, 9)]
    parcels := [(0, pcl0)], ctxs := [(5, cxt)]
    mem := (Memory.empty.writeN (2 ^ 30) 8 0x1001).writeN (2 ^ 30 + 0x1000) 8 0xF }
def seq0 : Seq := ⟨.running, 1, 10, 0, 0, 64, 8, 12, 8, 1, 0, 77, 8197⟩
def cadQ (op : Nat) (l : List (Nat × Nat)) : State := onQ { cadB with seqs := [(2, seq0)], cad := [(0, ⟨2, some 5, 0⟩), (1, ⟨2, none, 0⟩)] } (cq 8197 (cmd0 op .started l))

theorem witness_SequencesAndSteps :
    (let l := [(8, 129), (12, 20), (16, 8), (20, 1), (21, 10), (24, 0)]
     let c := cmd0 0x050 .started l
     let s := cadQ 0x050 l
     let p := c.pkt
     s.runs 2 0 0x050 (cq 8197 c) c ∧ s.named c 5 cxt ∧ reservedByte p [(8, 21), (24, 27)] = none ∧ pb p 11 8 = 129 ∧ pb p 15 12 = 20 ∧ pb p 21 21 = 10 ∧
     2 ^ 10 ≤ s.pageSize 0 ∧ s.tpp 0 10 = 128 ∧ s.freeSeq 0 = some 0 ∧ s.entryRun 0 2 = some 2 ∧
     (∀ off ∈ seqOff 0 :: (upTo 2).map (fun k => cadOff (2 + k)), s.rsvLost off = false) ∧ 1 + s.growthFloor 0 ≤ (s.freeFrames 0).length) ∧
    (let l := [(8, 2)]
     let c := cmd0 0x051 .started l
     let s := cadQ 0x051 l
     s.named c 5 cxt ∧ s.runs 2 0 0x051 (cq 8197 c) c ∧ (∀ off ∈ s.retireReads (fld c.pkt 77 64), s.rsvLost off = false) ∧ packetCheck c.pkt [(8, 9)] [(fld c.pkt 79 78 != 0, 9)] [] = none ∧
     s.seqs.get? (fld c.pkt 77 64) = some seq0 ∧ seq0.parcel = cxt.parcel) ∧
    (∀ b ∈ [0, 1], let l := [(8, b), (12, 4), (16, 0x8000), (24, 8)]
      let c := cmd0 0x052 .started l
      let s := cadQ 0x052 l
      let a := (s.stepSeqs 0 b).foldl (stepSeq 0 (pb c.pkt 15 12)) ⟨s, [], 0, 0, []⟩
      let s1 := { a.s with batches := a.s.batches.set (batchKey 0 b) ⟨true, (a.s.batch 0 b).steps⟩ }
      s.named c 5 cxt ∧ s.runs 2 0 0x052 (cq 8197 c) c ∧ reservedByte c.pkt [(8, 8), (12, 27)] = none ∧ pvaHigh c.pkt 16 = false ∧ pb c.pkt 23 16 % 16 = 0 ∧
      pb c.pkt 27 24 = 8 ∧ pb c.pkt 8 8 = b ∧ (s.batch 0 b).open_ = false ∧ (∀ off ∈ s.stepReads 0 b, s.rsvLost off = false) ∧ a.slots.length = b ∧ (s1.engineWrite cxt (pb c.pkt 23 16) a.slots.flatten).toOption.isSome = true) ∧
    (let l := [(8, 1)]
     let c := cmd0 0x053 .started l
     let s : State := { cadQ 0x053 l with batches := [(batchKey 0 1, ⟨true, 4⟩)] }
     s.named c 5 cxt ∧ s.runs 2 0 0x053 (cq 8197 c) c ∧ packetCheck c.pkt [(8, 8)] [] [] = none ∧ (s.batch 0 (pb c.pkt 8 8)).open_ = true) ∧
    (let l := [(8, 1)]
     let c := cmd0 0x053 (.serving [4]) l
     let s : State := { cadQ 0x053 l with batches := [(batchKey 0 1, ⟨true, 4⟩)], queues := [(2, cq 8197 c)] }
     s.named c 5 cxt ∧ s.serves 2 0 0x053 (cq 8197 c) c [4] ∧ (s.batch 0 (pb c.pkt 8 8)).open_ = true ∧ s.specPending 0 = false ∧
     ∀ e ∈ s.seqs, ∀ off ∈ (if e.2.st = .leaving then s.seqReads e.1 else [seqOff e.1]), s.rsvLost off = false) := by
  repeat' apply And.intro
  all_goals decide +kernel

/-- STEP_CLOSURE makes the 12 provisional tokens final and counts the step (R194). -/
theorem test_step_closure :
    let s : State := { cadQ 0x053 [] with batches := [(batchKey 0 1, ⟨true, 4⟩)], queues := [(2, cq 8197 (cmd0 0x053 (.serving [4]) [(8, 1)]))] }
    let u := after s (exec (.stepClosure 2 0) s)
    ((u.seqs.get? 2).map (fun x => x.tokens), (u.batch 0 1).open_, (u.batch 0 1).steps) = (some 12, false, 5) := by decide +kernel

def gath0 : GatherDesc := { count := 1, ring := 0x4000, chunks := 2, units := 8, ctrl := 0x3000, items := [(0, 2 + 2 ^ 14 + 2 ^ 15 + 8 * 2 ^ 64 + 4 * 2 ^ 96)] }
def gathS (item : Nat) : State :=
  { cadB with seqs := [(2, seq0)], launches := [(0, { launch0 with gather := some { gath0 with items := [(0, item)] } })] }
def stream0 : Stream :=
  { launch := 0, id := 1, seq := 2, first := 0, rows := 2, chunk := 0, len := 4, off := 0, page := 0, frames := [5], cbase := 0, run := 2, shift := 10,
    size := 2 ^ 15, pool := 0, status := 1, ended := false }

theorem witness_GatherStreamsAndRetirement :
    (∀ item ∈ [0, 2 + 2 ^ 14 + 2 ^ 15 + 2 * 2 ^ 32 + 4 * 2 ^ 64 + 2 ^ 96], let g : GatherDesc := { gath0 with items := [(0, item)] }
      let l : Launch := { launch0 with gather := some g }
      let s := gathS item
      s.launchOn 0 = some (0, l) ∧ l.gather = some g ∧ (s.ship 0).streams.has 0 = false ∧ 0 < l.gs ∧ l.st = .placed ∧
      g.items.getD (l.gridSection 0 0) 0 = item ∧
      (s.streamBound l.parcel item).1 = (if item = 0 then 0 else 4) ∧ ((s.streamBound l.parcel item).2.2.isSome = true ↔ item ≠ 0)) ∧
    (let l : Launch := { launch0 with gather := some gath0 }
     let s : State := ({ gathS 0 with launches := [(0, l)] } : State).modShip 0 (fun h => { h with streams := [(0, stream0)] })
     s.launchOn 0 = some (0, l) ∧ l.gather = some gath0 ∧ s.stream? 0 0 = some stream0 ∧ stream0.ended = false ∧ stream0.launch = 0 ∧
     (s.sect 0).gathering = false ∧ stream0.chunk - min (s.spm.readN (spKey 0 (gath0.ctrl + 4)) 4) stream0.chunk < gath0.chunks ∧
     (∀ j ∈ (upTo (gath0.units / stream0.len)).filter (fun j => decide (j < stream0.rows)), s.rowHeld 0 l stream0 j = false) ∧
     (let s1 := ((upTo (gath0.units / stream0.len)).filter (fun j => decide (j < stream0.rows))).foldl (fun s j =>
        s.gatherRow 0 0 l gath0 j (gath0.ring + j * stream0.len * 64)) s
      (s1.stream? 0 0).isNone = false)) ∧
    (∀ st ∈ [0, 4], let s0 := onQ cadB (cq 8197 (cmd0 0x021 .started []))
      let s : State := { s0 with regs := (Reg.siteStat 0, BitVec.ofNat 64 st) :: s0.regs }
      s.runs 2 0 0x021 (cq 8197 (cmd0 0x021 .started [])) (cmd0 0x021 .started []) ∧ s.named (cmd0 0x021 .started []) 5 cxt ∧ packetCheck (pkt 0x021 []) [] [] [] = none ∧
      ((((s.retireStop 5 cxt).dropTlb 5).sendXinv 5 cxt).ctxs.get? 5).map (fun z => z.xinv) = some (if st = 0 then 0 else 1)) := by
  repeat' apply And.intro
  all_goals decide +kernel

/-! ### Parcels -/

def fq (op : Nat) (st : CmdSt) (l : List (Nat × Nat)) : Queue := cq 0 (cmd0 op st l)
def parS (op : Nat) (l : List (Nat × Nat)) : State := onQ { cadB with ctxs := [] } (fq op .started l)

theorem witness_ParcelsAreMadeResizedAndDestroyed :
    (∀ hbm ∈ [0, 2], let l := [(8, 15), (9, 2), (10, hbm), (16, 2 ^ 255)]
      let c := cmd0 0x070 .started l
      let s := parS 0x070 l
      s.parcelBusy = false ∧ s.haltedFor 2 0 0x070 = false ∧ s.runs 2 0 0x070 (fq 0x070 .started l) c ∧ reservedByte c.pkt [(8, 11), (16, 47)] = none ∧
      pb c.pkt 8 8 = 15 ∧ pb c.pkt 11 10 = hbm ∧ s.confidential = false ∧ s.parcels.has 15 = false ∧ (∀ t ∈ bitsOf 256 (pb c.pkt 47 16), s.shipFree t = true) ∧
      (∀ n ∈ bitsOf 8 (pb c.pkt 9 9), s.parcelOfSite n = none) ∧ hbm ≤ s.freeGrans.length) ∧
    (let l := [(8, 15), (10, 1), (16, 2 ^ 255)]
     let c := cmd0 0x070 (.serving [0xF020, 15, 2]) l
     (onQ cadB (cq 0 c)).serves 2 0 0x070 (cq 0 c) c [0xF020, 15, 2] ∧ (onQ cadB (cq 0 c)).linesHeld (inGranules [2]) = false ∧
     ({ onQ cadB (cq 0 c) with dir := [(2 ^ 24, owned)] } : State).linesHeld (inGranules [2]) = true ∧
     (onQ cadB (cq 0 c)).holdBusy (bitsOf 256 (pb c.pkt 47 16)) (bitsOf 8 (pb c.pkt 9 9)) [2] = none ∧
     (let k := cmd0 0x070 (.serving [0xF020, 15, 2]) [(8, 15), (10, 1), (16, 1)]
      (onQ cadB (cq 0 k)).serves 2 0 0x070 (cq 0 k) k [0xF020, 15, 2] ∧ (onQ cadB (cq 0 k)).linesHeld (inGranules [2]) = false ∧
      ((onQ cadB (cq 0 k)).holdBusy (bitsOf 256 (pb k.pkt 47 16)) (bitsOf 8 (pb k.pkt 9 9)) [2]).isSome = true)) ∧
    (let c := cmd0 0x071 (.serving [0xF021, 0, 0, 0, 0, 1, 2]) [(8, 0)]
     (onQ cadB (cq 0 c)).serves 2 0 0x071 (cq 0 c) c (0xF021 :: 0 :: 0 :: [0, 0, 1, 2]) ∧
     (onQ cadB (cq 0 c)).linesHeld (inGranules (resizeOf [0, 0, 1, 2]).add) = false) ∧
    (let l := [(8, 0), (9, 1), (10, 2), (16, 3)]
     let c := cmd0 0x071 .started l
     let s := parS 0x071 l
     s.parcelBusy = false ∧ s.haltedFor 2 0 0x071 = false ∧ s.runs 2 0 0x071 (fq 0x071 .started l) c ∧ reservedByte c.pkt [(8, 11), (16, 47)] = none ∧
     pb c.pkt 8 8 = 0 ∧ pb c.pkt 11 10 ≤ 768 ∧ s.parcels.get? 0 = some pcl0 ∧
     (s.resizeCheck 0 pcl0 (bitsOf 256 (pb c.pkt 47 16)) (bitsOf 8 (pb c.pkt 9 9)) (pb c.pkt 11 10)).toOption.isSome = true) ∧
    (let l := [(8, 0)]
     let c := cmd0 0x072 .started l
     let s := parS 0x072 l
     s.parcelBusy = false ∧ s.haltedFor 2 0 0x072 = false ∧ s.runs 2 0 0x072 (fq 0x072 .started l) c ∧ reservedByte c.pkt [(8, 8)] = none ∧ pb c.pkt 8 8 = 0 ∧
     s.parcels.get? 0 = some pcl0 ∧ (∀ e ∈ s.ctxs, e.2.parcel ≠ 0) ∧ (∀ n ∈ upTo 64, s.vfBound n = false)) ∧
    (let s : State := cadB.modShip 1 (fun h => { h with leaving := true })
     s.parcelOfShip 1 = some 0 ∧ (s.ship 1).leaving = true ∧ (s.ship 1).image = none ∧ 1 ∉ s.busyShips ∧ (∀ e ∈ (s.ship 1).returns, e.2.answer ≠ none) ∧
     (s.ship 1).test = none ∧ s.shipQuiet 1 = true) := by
  repeat' apply And.intro
  all_goals decide +kernel

theorem witness_PlatsEasementsAndRoutes :
    (∀ op ∈ [0, 1], let l := [(9, op), (16, 2 ^ 18 - 1), (20, 1), (24, 1)]
      let c := cmd0 0x073 .started l
      let s := parS 0x073 l
      let new := (upTo 1).map (fun j => (2 ^ 18 - 1 + j, if op = 0 then 0 else platMap (if op = 1 then 0 else 2) (1 + j)))
      s.parcelBusy = false ∧ s.haltedFor 2 0 0x073 = false ∧ s.runs 2 0 0x073 (fq 0x073 .started l) c ∧ reservedByte c.pkt [(8, 9), (16, 27)] = none ∧
      pb c.pkt 19 16 = 2 ^ 18 - 1 ∧ pb c.pkt 27 24 = 1 ∧ pb c.pkt 9 9 = op ∧ pb c.pkt 23 20 = 1 ∧ s.confidential = false ∧ s.parcels.has 0 = true ∧
      (∀ e ∈ new, s.platBad 0 e.2 = none) ∧ (∀ e ∈ new, fld (s.platEntry 0 e.1 none) 2 1 ≠ 1) ∧ s.poolBusy 0 (2 ^ 18 - 1) 1 = false ∧ s.platHeld 0 = false) ∧
    (let l := [(9, 7), (16, 8)]
     let c := cmd0 0x075 .started l
     let z : Easement := ⟨1, [], 0⟩
     let s : State := { parS 0x075 l with eases := [(7, z)] }
     s.parcelBusy = false ∧ s.haltedFor 2 0 0x075 = false ∧ s.runs 2 0 0x075 (fq 0x075 .started l) c ∧ s.confidential = false ∧ s.parcels.get? 0 = some pcl0 ∧
     s.eases.get? (pb c.pkt 9 9) = some z ∧ s.platHeld 0 = false ∧ reservedByte c.pkt [(8, 9), (16, 19)] = none ∧ pb c.pkt 19 16 + z.size ≤ 2 ^ 18 ∧ (∀ m ∈ pcl0.eases, m.2 ≠ 7) ∧
     (s.platEntry 0 (8 + 0) none).testBit 0 = false) ∧
    (let l := [(9, 7)]
     let c := cmd0 0x076 .started l
     let y : Parcel := { pcl0 with eases := [(8, 7)] }
     let s : State := { parS 0x076 l with eases := [(7, ⟨1, [], 0⟩)], parcels := [(0, y)] }
     s.haltedFor 2 0 0x076 = false ∧ s.runs 2 0 0x076 (fq 0x076 .started l) c ∧ s.parcels.get? 0 = some y ∧ y.eases.find? (fun z => z.2 == 7) = some (8, 7) ∧
     reservedByte c.pkt [(8, 9)] = none ∧ s.platHeld 0 = false) ∧
    (let l := [(9, 7)]
     let c := cmd0 0x077 .started l
     let s : State := { parS 0x077 l with eases := [(7, ⟨1, [], 0⟩)] }
     s.parcelBusy = false ∧ s.runs 2 0 0x077 (fq 0x077 .started l) c ∧ reservedByte c.pkt [(9, 9)] = none ∧ s.eases.get? (pb c.pkt 9 9) = some ⟨1, [], 0⟩ ∧
     s.easeParcels 7 = []) ∧
    (let l := [(8, 0)]
     let s := parS 0x079 l
     s.runs 2 0 0x079 (fq 0x079 .started l) (cmd0 0x079 .started l) ∧ (fq 0x079 .started l).fn = 0 ∧ s.confidential = false ∧ s.parcels.has 0 = true ∧
     (s.commitOf (erouteCommit 0)).pending.isSome = false) := by
  repeat' apply And.intro
  all_goals decide +kernel

theorem witness_EasementsAreCreatedInOrder :
    ∀ n ∈ [0, 256], let l := [(8, 1024)]
      let c := cmd0 0x074 .started l
      let s : State := { parS 0x074 l with eases := (upTo n).map (fun e => (e, ⟨1, [], 0⟩)) }
      s.parcelBusy = false ∧ s.runs 2 0 0x074 (fq 0x074 .started l) c ∧ reservedByte c.pkt [(8, 9)] = none ∧ pb c.pkt 9 8 = 1024 ∧ s.confidential = false ∧
      s.eases.length = n := by decide +kernel

/-! ### Shares and array tests -/

theorem witness_SharesAndTheirMisses :
    (∀ v ∈ [0, 1], let l := [(8, 15), (16, 256), (18, 256), (26, v), (28, v)]
      let c := cmd0 0x078 .started l
      let s : State := { parS 0x078 l with parcels := [(15, pcl0)] }
      s.parcelBusy = false ∧ s.haltedFor 2 0 0x078 = false ∧ s.runs 2 0 0x078 (fq 0x078 .started l) c ∧ reservedByte c.pkt [(8, 9), (16, 55)] = none ∧
      pb c.pkt 8 8 = 15 ∧ pb c.pkt 9 9 = 0 ∧ s.parcels.has 15 = true ∧
      (let w (k o : Nat) : Nat := pb c.pkt (16 + 10 * k + o + 1) (16 + 10 * k + o)
       (∀ k ∈ upTo 4, w k 0 ≤ 256 ∧ w k 2 ≤ w k 0 ∧ w k 4 ≤ 256 ∧ w k 6 ≤ w k 4 ∧ w k 8 ≤ 0x3FF) ∧
       (let r := ((upTo 4).map (fun k =>
          [(Reg.shrMCfg (4 * 15 + k), w k 0 + w k 2 * 2 ^ 16 + w k 4 * 2 ^ 32 + w k 6 * 2 ^ 48), (Reg.shrMSlack (4 * 15 + k), w k 8)])).flatten
        let s1 := s.putActive ((Reg.shrPFlags 15, 0) :: r)
        (256 < s1.slotSum ↔ v = 1) ∧ s1.waySum 15 ≤ 256)) ∧ s.shareBusy 15 = false ∧ (s.commitOf (Reg.shrPCommit 15)).pending.isSome = false) ∧
    ({ cadB with regs := [(Reg.shrMApplied 63, 4)] } : State).fieldOf (Reg.shrMApplied 63) 8 0 = 4 := by
  repeat' apply And.intro
  all_goals decide +kernel

theorem witness_SharesWaysOversubscribed :
    let w (k : Nat) : Nat := if k ≤ 1 then 256 else 0
    let r := ((upTo 4).map (fun k => [(Reg.shrMCfg (4 * 15 + k), w k * 2 ^ 32 + w k * 2 ^ 48), (Reg.shrMSlack (4 * 15 + k), 0)])).flatten
    let s1 := ({ cadB with parcels := [(15, pcl0)] } : State).putActive ((Reg.shrPFlags 15, 0) :: r)
    s1.slotSum ≤ 256 ∧ 256 < s1.waySum 15 := by decide +kernel

/-- A request of master 63 that waits at its home with slack left. -/
def slow0 : Msg := { creq .rdS false with tag := 15, prio := 3, hdr := ⟨0, 4, false, 0⟩ }
theorem witness_MissesReportOnceUntilCleared :
    (({ State.reset with waitq := [(slow0.dpa / 128, [slow0])] } : State).waitq.getD (slow0.dpa / 128) []).contains slow0 = true ∧ slow0.tag < 16 ∧
    0 < slow0.hdr.slack ∧ slow0.hdr.slack ≠ 0x3FF ∧ State.reset.bit Reg.trnCtrl 0 = false ∧ State.reset.bit Reg.shrMissMask 63 = false ∧ State.reset.bit Reg.shrGlobal 15 = false := by decide +kernel

theorem witness_ArrayTestsOfTownships :
    (∀ m ∈ [0, 2 ^ 255], let l := [(8, m)]
      let c := cmd0 0x080 .started l
      let s := parS 0x080 l
      s.runs 2 0 0x080 (fq 0x080 .started l) c ∧ reservedByte c.pkt [(8, 39)] = none ∧ s.confidential = false ∧
      (∀ t ∈ bitsOf 256 (pb c.pkt 39 8), (s.ship t).absent = false ∧ s.bit (Reg.nocCoord t) 12 = false) ∧ (bitsOf 256 (pb c.pkt 39 8) = [] ↔ m = 0)) ∧
    (let c := cmd0 0x080 (.serving [0xF030, 1, 0, 255]) [(8, 2 ^ 255)]
     (onQ cadB (cq 0 c)).serves 2 0 0x080 (cq 0 c) c [0xF030, 1, 0, 255]) ∧
    (let s := cadB.modShip 255 (fun x => { x with test := some ⟨2, 5, 272, [(65, 84)]⟩ })
     (s.ship 255).test = some ⟨2, 5, 272, [(65, 84)]⟩ ∧ (⟨2, 5, 272, [(65, 84)]⟩ : TestSt).at_ none < 273 ∧ (⟨2, 5, 272, [(65, 84)]⟩ : TestSt).at_ (some 65) < 85) ∧
    (let y : TestSt := ⟨2, 0, 273, (upTo 66).map (fun i => (i, 85))⟩
     let c := cmd0 0x080 (.serving [0xF030, 0, 1, 255]) [(8, 2 ^ 255)]
     let s : State := (onQ cadB (cq 0 c)).modShip 255 (fun x => { x with test := some y })
     (s.ship 255).test = some y ∧ 273 ≤ y.cache ∧ (∀ i ∈ upTo 66, 85 ≤ y.sects.getD i 0) ∧ s.queues = [(2, cq 0 c)] ∧ (cq 0 c).cmds = [(0, c)] ∧
     c.opcode = 0x080 ∧ c.st = .serving [0xF030, 0, 1, 255] ∧ (∀ e ∈ (cadB.modShip 255 (fun x => { x with test := some y })).queues, e.2.cmds = [])) := by
  repeat' apply And.intro
  all_goals decide +kernel

/-! ### Keys, confidential mode and evidence -/

/-- A state whose fuses all read 0. -/
def fuse0 (s : State) : State := { s with fuses := (upTo 60).map (fun k => (k, 0)) }
/-- A key blob of epoch 9 for the unit of identity 0, with and without REQUIRE_CONF. -/
def blob0 (conf : Bool) : Nat := 9 * 2 ^ 32 + (if conf then 2 ^ 16 else 0)

/-- Whether a tag verifies is a free value: a blob falls under one of the two clauses. -/
theorem witness_KeysOfSealedSets :
    (let l := [(8, 7), (16, 8)]
     let c := cmd0 0x090 .started l
     let s : State := { (fuse0 (parS 0x090 l)).modFn 0 (fun f => { f with bme := true }) with eases := [(7, ⟨1, [], 0⟩)] }
     s.runs 2 0 0x090 (fq 0x090 .started l) c ∧ s.hostOpen (fq 0x090 .started l).fn = true ∧ reservedByte c.pkt [(8, 8), (16, 23)] = none ∧ pb c.pkt 23 16 % 8 = 0 ∧ s.eases.has (pb c.pkt 8 8) = true ∧
     (parS 0x090 l).eases.has (pb c.pkt 8 8) = false ∧ pb (blob0 true) 39 8 = s.identity ∧ pb (2 ^ 64) 39 8 ≠ s.identity ∧ (blob0 true).testBit 16 = true ∧
     (blob0 false).testBit 16 = false ∧ s.confidential = false ∧ pb (blob0 false) 7 4 = 9 ∧
     ({ s with keys := [(7, ⟨some ⟨9, false, 1⟩, none⟩)] } : State).keys.getD 7 ⟨none, none⟩ = ⟨some ⟨9, false, 1⟩, none⟩ ∧
     ({ s with keys := [(7, ⟨some ⟨8, false, 1⟩, none⟩)] } : State).keys.getD 7 ⟨none, none⟩ = ⟨some ⟨8, false, 1⟩, none⟩) ∧
    (let l := [(8, 7), (9, 1)]
     let c := cmd0 0x091 .started l
     let s : State := { parS 0x091 l with keys := [(7, ⟨none, some ⟨9, false, 1⟩⟩)] }
     s.runs 2 0 0x091 (fq 0x091 .started l) c ∧ reservedByte c.pkt [(8, 9)] = none ∧ pb c.pkt 9 9 ≤ 1 ∧ s.keySlot (pb c.pkt 8 8) (pb c.pkt 9 9) ≠ none ∧
     s.inFlight (pb c.pkt 8 8) = false) := by
  repeat' apply And.intro
  all_goals decide +kernel

/-- One parcel that holds every township and site, four healthy channels, and VF 3 bound to it. -/
def confS (lc : Nat) (st : CmdSt) (op : Nat) : State :=
  onQ { State.reset with
    regs := [(Reg.memCap, 4), (Reg.lcsStatus, BitVec.ofNat 64 lc), (Reg.glbVfCfg 3, 0x10)]
    parcels := [(0, { ships := upTo 256, sites := upTo 8, grans := [], eases := [], down := false })] } (fq op st [(9, 3)])

theorem witness_ConfidentialModeIsEnteredAndLeft :
    (∀ lc ∈ [0, 1, 2, 3, 4], let c := cmd0 0x092 .started [(9, 3)]
      let s := confS lc .started 0x092
      s.runs 2 0 0x092 (fq 0x092 .started [(9, 3)]) c ∧ reservedByte c.pkt [(8, 9)] = none ∧ pb c.pkt 8 8 = 0 ∧ pb c.pkt 9 9 = 3 ∧ s.fieldOf Reg.lcsStatus 2 0 = lc) ∧
    (confS 1 .started 0x092).confBad 0 3 = none ∧ (confS 1 .started 0x092).confBad 0 4 = some 4 ∧
    (let c := cmd0 0x092 (.serving [0xF040, 0, 3]) [(9, 3)]
     let s := confS 1 (.serving [0xF040, 0, 3]) 0x092
     let y : Parcel := { ships := upTo 256, sites := upTo 8, grans := [], eases := [], down := false }
     s.serves 2 0 0x092 (fq 0x092 (.serving [0xF040, 0, 3]) [(9, 3)]) c [0xF040, 0, 3] ∧ s.parcels.get? 0 = some y ∧ ∀ n ∈ y.sites, s.flushing n = false) ∧
    (∀ on ∈ [0, 1], let s0 := onQ State.reset (fq 0x093 .started [])
      let s : State := { s0 with regs := [(Reg.secStatus, BitVec.ofNat 64 on)] }
      s.runs 2 0 0x093 (fq 0x093 .started []) (cmd0 0x093 .started []) ∧ packetCheck (pkt 0x093 []) [] [] [] = none ∧ s.confidential = (on == 1)) ∧
    (let s : State := ({ State.reset with regs := [(Reg.secStatus, BitVec.ofNat 64 (1 + 3 * 256))] } : State).modFn 3 (fun f => { f with tdi := 3 })
     s.confidential = true ∧ (s.fn s.tenant).tdi = 3 ∧ s.leave = 0) := by
  repeat' apply And.intro
  all_goals decide +kernel

/-- An enrolment envelope in state PRODUCTION (1) for the owner whose key digest is 0. -/
def env0 : Nat := 2 + 2 ^ 16 + 176 * 2 ^ 32 + 2 * 2 ^ 512 + 2 ^ 528 + 2 ^ 536
def lcS (conf : Nat) : State :=
  { (fuse0 (onQ State.reset (fq 0x0A1 .started [(16, 3616)]))).modFn 0 (fun f => { f with bme := true }) with
    regs := [(Reg.lcsStatus, 1), (Reg.lcsNonceCtrl, 2), (Reg.secStatus, BitVec.ofNat 64 conf)] }

/-- Whether a signature verifies is a free value; an envelope whose two signatures verify passes every check. -/
theorem lc_passes (s : State) (v : Nat) (h : ∀ k d e, Config.verify k d e = true)
    (a : s.confidential = false) (b : s.fieldOf Reg.lcsStatus 2 0 = 1) (c : pb v 66 66 = 1) (d : pb v 65 64 = 2) (e : pb v 67 67 = 1)
    (f : pb v 55 8 = pb v 231 184) (g : pb v 103 72 = s.identity) (i : pb v 135 104 = s.nonce) (j : s.enrolled = false)
    (k : (upTo 18).any (fun k => let w := fld (pb v 231 184) (64 * (k % 6) + 63) (64 * (k % 6)); (s.fuseW (6 + k) ||| w) != w) = false) :
    s.lcCheck v 1 = none := by
  simp only [State.lcCheck, a, b, c, d, e, f, g, i, j, k, h]
  simp

/-- The state in which the checks are made: the envelope's reads sent and the nonce spent. -/
def lcS1 (conf : Nat) : State := ((lcS conf).hostAsk 0 none 0 3616 noAcc).setBit Reg.lcsNonceCtrl 1 false

theorem witness_lc_passes (h : ∀ k d e, Config.verify k d e = true) : (lcS1 0).lcCheck env0 1 = none :=
  by apply lc_passes (lcS1 0) env0 h <;> decide +kernel

theorem witness_EvidenceLifeCycleAndTheGate :
    (1 ≤ 6 ∧ ({ State.reset with lastSig := some 4 } : State).lastSig = some 4) ∧
    (let c := cmd0 0x0A1 .started [(16, 3616)]
     (lcS 0).runs 2 0 0x0A1 (fq 0x0A1 .started [(16, 3616)]) c ∧ (lcS 0).hostOpen 0 = true ∧ reservedByte c.pkt [(8, 15), (16, 19)] = none ∧ pb c.pkt 15 8 % 8 = 0 ∧ pb c.pkt 19 16 = 3616 ∧
     envelopeBad 0 = some 0 ∧ envelopeBad env0 = none ∧ pb env0 65 64 = 2 ∧ (lcS1 1).lcCheck env0 1 = some ⟨0x60, 0x30, 0⟩) ∧
    (let c := cmd0 0x0A0 .started []
     let s := onQ State.reset (fq 0x0A0 .started [])
     s.runs 2 0 0x0A0 (fq 0x0A0 .started []) c ∧ reservedByte c.pkt [(8, 47)] = none ∧ pb c.pkt 15 8 % 8 = 0 ∧ s.confidential = false ∧ s.parcels = [] ∧
     cadB.parcels ≠ []) ∧
    (cadB.confidential = false ∧ cadB.parcels.has 0 = true ∧ cadB.platBad 0 (1 + 8) = none ∧ cadB.platHeld 0 = false) ∧
    ({ State.reset with regs := [(Reg.glbStatus, 1)] } : State).served (.fn 0) Reg.lcsNonceCtrl = true := by
  repeat' apply And.intro
  all_goals decide +kernel

end Sys2Proof.Tests
end

