-- ==== Sys2Proof/Tests/Links.lean ====
section
/-! SUPPORT. Functions, interfaces, registers and management: tests and states that meet the hypotheses. -/

namespace Sys2Proof.Tests

set_option Elab.async false
open Sys2Proof Sys2Proof.Machine

/-! ### The host link -/

/-- A hub that is READY, with 16 healthy channels. -/
def up0 : State := { State.reset with regs := [(Reg.memCap, 16), (Reg.glbStatus, 1)] }
def dbQ : Queue := { queue0 with group := 1, slot := 2, fetch := 4, tail := 5, subs := [(5, 0)], cmds := [] }
def dbS : State := { up0 with groups := [(1, ⟨0, 7⟩)], queues := [(2, dbQ)] }

/-- The failure of a translation. -/
def barFault (x : Except Xfault Xlat) : Option Xfault := match x with | .error f => some f | .ok _ => none
/-- VF 1 bound to parcel 0, whose plat entries lie on failed channels. -/
def vfFail : State :=
  ({ up0 with regs := (Reg.glbVfCfg 1, 0x10) :: (upTo 16).map (fun c => (Reg.memCh c, 3)) ++ up0.regs, parcels := [(0, pcl0)] } : State).modFn 0
    (fun f => { f with vfEnable := true, numVfs := 1 })

theorem witness_DoorbellsAndBarAccesses :
    badSize 4 8 false = true ∧ badSize 8 8 false = false ∧ badSize 0 4 true = true ∧
    (dbS.barOpen 0 false = true ∧ dbS.bit Reg.glbStatus 0 = true ∧ State.reset.barOpen 0 false = true ∧ State.reset.bit Reg.glbStatus 0 = false ∧
     (dbS.fn 0).flr = false ∧ (dbS.fn 0).tdi ≠ 3 ∧ dbS.doorbellOf 0 7 3 = none ∧ dbS.doorbellOf 0 7 2 = some 2 ∧ dbS.queues.get? 2 = some dbQ ∧
     ((dbS.modFn 0 (fun f => { f with flr := true })).fn 0).flr = true) ∧
    ((6 + 2 ^ 32 - dbQ.fetch) % 2 ^ 32 < 2 ^ 31 ∧ (∀ e ∈ dbQ.subs, (e.1 + 2 ^ 32 - dbQ.fetch) % 2 ^ 32 < (6 + 2 ^ 32 - dbQ.fetch) % 2 ^ 32) ∧
     2 ^ 31 ≤ (3 + 2 ^ 32 - dbQ.fetch) % 2 ^ 32 ∧ 6 ≠ dbQ.tail ∧ 3 ≠ dbQ.tail) ∧
    (up0.barOpen 1 false = false ∧
     (∀ write ∈ [true, false], let x : Xlat := ⟨0x10000, 0x10000, false, false, none, false⟩
       (up0.bar4 0 0x10000 write).toOption = some x ∧ x.window = none ∧ up0.spanHeld x.dpa 4 = false ∧ up0.spanPoisoned x.dpa 4 = false ∧
       (let s : State := { up0 with poison := [(1, 0)] }
        (s.bar4 0 0x10000 write).toOption = some x ∧ s.spanHeld x.dpa 4 = false ∧ s.spanPoisoned x.dpa 4 = true) ∧
       (let s := up0.setField (Reg.memCh (up0.channelOf x.dpa)) 2 0 2
        (s.bar4 0 0x10000 write).toOption = some x ∧ s.barOpen 0 false = true ∧ s.bit Reg.glbStatus 0 = true ∧ s.spanHeld x.dpa 4 = true)) ∧
     (∀ write ∈ [true, false], (barFault (up0.bar4 0 (2 ^ 45) write)).any (fun f => f.code == 0x07) = true ∧
       (barFault (vfFail.bar4 1 0 write)).any (fun f => f.code == 0x0C) = true) ∧
     vfFail.barOpen 1 false = true ∧ vfFail.bit Reg.glbStatus 0 = true ∧ up0.confidential = false) := by
  repeat' apply And.intro
  all_goals decide +kernel

/-- A doorbell that a VF writes during its reset is counted as discarded (R382, Table 14-8). -/
theorem test_doorbell_dropped :
    let s := dbS.modFn 0 (fun f => { f with flr := true })
    (after s (exec (.doorbell 0 7 2 6 false) s)).fieldOf Reg.glbStatus 47 32 = 1 := by decide +kernel

/-- An access of thread 0 to the host window, in a context of function 0. -/
def accH (st : AccState) : Acc := { acc0 with st := st, parts := [⟨0x5000, 0, 4, .host, none⟩] }
def hostS (st : AccState) : State :=
  ({ State.reset with accs := [(4, accH st)], ctxs := [(5, cxt)] } : State).modFn 0 (fun f => { f with atsReq := [(3, ⟨9, 5⟩)] })

theorem witness_TranslationsAndHostReads :
    (∀ l ∈ [0, 4096], let s : State := { hostS .ats with atc := (upTo l).map (fun k => ⟨0, 9, 6 + k, 0, true, true⟩) }
      (s.fn 0).atsReq.get? 3 = some ⟨9, 5⟩ ∧ (s.atc.filter (fun x => !(x.fn == 0 && x.pasid == 9 && x.page == 5))).length = l) ∧
    ({ State.reset with invals := (upTo 32).map (fun k => ⟨0, k, 9, 5, 1, [4]⟩) } : State).invals.length = 32 ∧
    ((hostS .ats).invals = [] ∧ (hostS .ats).hostOut = [] ∧
     let s : State := { hostS .host with hostOut := [(4, ⟨0, 9, 5, true⟩)] }
     s.invals = [] ∧ s.hostOut = [(4, ⟨0, 9, 5, true⟩)]) ∧
    (∀ st ∈ [AccState.host, .ats], (hostS st).accs.get? 4 = some (accH st) ∧ (accH st).part? = some ⟨0x5000, 0, 4, .host, none⟩ ∧ (accH st).st = st) ∧
    (∀ off ∈ [true, false], let s : State := ({ hostS .host with hostOut := [(4, ⟨0, 9, 5, true⟩)] } : State).modFn 0 (fun f => { f with ctoOff := off })
      s.accs.get? 4 = some (accH .host) ∧ s.hostOut.get? 4 = some ⟨0, 9, 5, true⟩ ∧ (s.fn 0).ctoOff = off) ∧
    (dbS.queues.get? 2 = some dbQ ∧ dbQ.dead = false ∧ dbQ.fetch ≠ dbQ.tail ∧ (dbS.fn dbQ.fn).ctoOff = false ∧
     ((dbS.modFn 0 (fun f => { f with ctoOff := true })).fn dbQ.fn).ctoOff = true) ∧
    (let c := cmd0 0x041 (.serving [0]) [(8, 3 * 2 ^ 50)]
     let s := onQ { cmdB with regs := [] } (cq 8197 c)
     s.queues.get? 2 = some (cq 8197 c) ∧ (s.fn (cq 8197 c).fn).ctoOff = false ∧ s.cmd? 2 0 = some c ∧ c.hostSource = some (3 * 2 ^ 50, 6) ∧ s.ctxs.get? (c.context % 4096) = some cxt ∧ cxt.st = .live) := by
  repeat' apply And.intro
  all_goals decide +kernel

theorem witness_FunctionsAreReset :
    (State.reset.ctxs = [] ∧ (State.reset.fn 63).flr = false ∧ State.reset.confidential = false) ∧
    (let s := State.reset.modFn 63 (fun f => { f with flr := true })
     (s.fn 63).flr = true ∧ s.ctxs = []) ∧
    (let c : Context := { cxt with fn := 63, xinv := 1 }
     let s := ({ State.reset with ctxs := [(5, c)] } : State).modFn 63 (fun f => { f with flr := true })
     (s.fn 63).flr = true ∧ s.ctxs.get? 5 = some c ∧ c.fn = 63 ∧ c.xinv ≠ 0) ∧
    ({ State.reset with regs := [(Reg.secStatus, 1)] } : State).confidential = true ∧ State.reset.pcieHeld = true ∧
    (let s : State := { State.reset with pcieHeld := false, regs := [(Reg.glbLink, 0x216)] }
     s.pcieHeld = false ∧ s.fieldOf Reg.glbLink 3 0 ≠ 0 ∧ s.fnPresent 1 = false ∧ s.fnPresent 0 = true ∧ (s.fn 0).retry = false) := by
  repeat' apply And.intro
  all_goals decide +kernel

/-- A trained link. -/
def linkS : State := { State.reset with pcieHeld := false, regs := [(Reg.glbLink, 0x216)] }

theorem witness_InterfacesAreLockedAndRun :
    (let s : State := { State.reset with regs := [(Reg.secStatus, BitVec.ofNat 64 (1 + 3 * 256))] }
     s.confidential = true ∧ 3 = s.tenant ∧ (s.fn 3).tdi = 0) ∧
    (∀ k ∈ [1, 2, 3], ((State.reset.modFn 3 (fun f => { f with tdi := k })).fn 3).tdi = k) ∧
    (∀ sets ∈ [0, 2], let s : State := { State.reset with ide := [(4, ⟨sets, []⟩)], doe := ⟨[], [], some 2, false⟩ }
      s.doe.kind = some 2 ∧ ((s.ide.getD 4 ⟨0, []⟩).sets.testBit 1 = (sets == 2))) ∧ State.reset.doe.kind ≠ some 2 ∧
    (linkS.pcieHeld = false ∧ linkS.fieldOf Reg.glbLink 3 0 ≠ 0 ∧ (linkS.fn 0).retry = false ∧ linkS.doe.obj.length ≤ 16384 ∧
     (let s := linkS.modFn 0 (fun f => { f with vfEnable := true, numVfs := 1 })
      s.pcieHeld = false ∧ s.fieldOf Reg.glbLink 3 0 ≠ 0 ∧ (s.fn 0).retry = false ∧ s.fnPresent 1 = true) ∧
     ({ linkS with doe := ⟨[1, 3, 2], [], none, false⟩ } : State).doe.obj = [1, 3, 2] ∧
     (∀ h ∈ [0x10001, 0x20001], let s : State := { linkS with doe := ⟨[h, 3, 2], [], none, false⟩ }
       s.doe.obj = h :: 3 :: [2] ∧ 3 % 2 ^ 18 = s.doe.obj.length ∧ s.doe.obj.length ≤ 16384) ∧
     4 % 2 ^ 18 ≠ ({ linkS with doe := ⟨[1, 4, 2], [], none, false⟩ } : State).doe.obj.length) := by
  decide +kernel

/-- DOE Discovery of index 1 names CMA/SPDM and the index after it (R392). -/
theorem test_doe_discovery :
    let s : State := { linkS with doe := ⟨[1, 3, 1], [], none, false⟩ }
    (after s (exec (.configurationRequest 0 (.doe .go)) s)).doe.resp = [1, 3, 1 + 2 ^ 16 + 2 * 2 ^ 24] := by decide +kernel

/-! ### Registers -/

/-- A CAD_P_CTRL shadow word, and its COMMIT with and without a captured set. -/
theorem witness_RegisterWritesFollowTheAccessCodes :
    (∃ r ix, regAt? Reg.memRetrainCtrl = some (r, ix) ∧ r.owner.is (.fn 0) = true ∧ r.owner.is .datum = false ∧ r.commit = false ∧
      r.name ∉ [.pwrTrvCfg, .siteCtrl, .lcsNonceCtrl, .memCh, .cohAtomCtrl, .dspPredCtrl, .glbBootCtrl, .trnCtrl, .glbDirtyCtrl, .rasPoisonClear]) ∧
    (∀ size ∈ [4, 8], Reg.memRetrainCtrl % size = 0) ∧ Reg.memRetrainCtrl - Reg.memRetrainCtrl % 8 = Reg.memRetrainCtrl ∧
    up0.barOpen 0 false = true ∧ up0.served (.fn 0) Reg.memRetrainCtrl = true ∧ msixAt 0 Reg.memRetrainCtrl = none ∧ badSize 4 8 false = true ∧
    (∀ p ∈ [Party.fn 0, .fieldCores, .datum], RegOwner.any.is p = true ∧ up0.barOpen p.fnOf false = true ∧ up0.served p Reg.memRetrainCtrl = true ∧
      up0.viewHeld p Reg.memRetrainCtrl = false) ∧
    (let s : State := up0.setField (Reg.memCh (up0.channelOf (up0.rsv (seqOff 0)))) 2 0 2
     s.barOpen 0 false = true ∧ s.served (.fn 0) (Reg.cadSeqView 0) = true ∧ (regAt? (Reg.cadSeqView 0)).isSome = true ∧ s.viewHeld (.fn 0) (Reg.cadSeqView 0) = true) := by
  refine ⟨?_, by decide +kernel⟩
  · have h : (regAt? Reg.memRetrainCtrl).all (fun x => x.1.owner.is (.fn 0) && !x.1.owner.is .datum && !x.1.commit &&
      !([.pwrTrvCfg, .siteCtrl, .lcsNonceCtrl, .memCh, .cohAtomCtrl, .dspPredCtrl, .glbBootCtrl, .trnCtrl, .glbDirtyCtrl, .rasPoisonClear].contains x.1.name)) &&
      (regAt? Reg.memRetrainCtrl).isSome = true := by decide +kernel
    revert h
    cases regAt? Reg.memRetrainCtrl with
    | none => intro h; simp at h
    | some x => intro h; exact ⟨x.1, x.2, rfl, by simp_all⟩

/-- A write of 4 bytes to MEM_RETRAIN_CTRL by the PF changes its half only (R9, R10). -/
theorem test_register_half :
    let u := after up0 (exec (.registerWrite (.fn 0) (Reg.memRetrainCtrl + 4) 4 (BitVec.ofNat 64 (7 + 2 ^ 32)) false) up0)
    (u.fieldOf Reg.memRetrainCtrl 31 0, u.fieldOf Reg.memRetrainCtrl 39 32) = (up0.fieldOf Reg.memRetrainCtrl 31 0, 7) := by decide +kernel

/-- A write to DSP_EROUTE_SEL by the PF changes EXPERT and not PARCEL, which is the field cores' (table of the register). -/
theorem test_eroute_sel :
    let u := after up0 (exec (.registerWrite (.fn 0) Reg.dspErouteSel 8 (BitVec.ofNat 64 (5 + 77 * 2 ^ 16)) false) up0)
    (u.fieldOf Reg.dspErouteSel 3 0, u.fieldOf Reg.dspErouteSel 27 16) = (0, 77) := by decide +kernel

/-- The staged group of CMD_WPOOL_CFG with a captured set, and the same with one that asks for more bays than there are. -/
def stagedS (n : Nat) : State := { up0 with commits := [(Reg.cmdWpoolCommit, { Commit.empty with pending := some [(Reg.cmdWpoolCfg, BitVec.ofNat 64 (n * 2 ^ 16))] })] }

theorem witness_StagedSetsAreCapturedAndApplied :
    ((regAt? Reg.cmdWpoolCommit).map (fun x => (x.1.commit, x.1.owner.is (.fn 0), x.1.name, x.2)) = some (true, true, .cmdWpoolCommit, [])) ∧
    up0.served (.fn 0) Reg.cmdWpoolCommit = true ∧ (up0.commitOf Reg.cmdWpoolCommit).pending = none ∧
    (stagedS 0).commitOf Reg.cmdWpoolCommit ≠ up0.commitOf Reg.cmdWpoolCommit ∧
    groupKey .cmdWpoolCommit 0 Reg.cmdWpoolCommit = Reg.cmdWpoolCommit ∧
    (∀ n ∈ [0, 500], let cap : Tbl W64 := [(Reg.cmdWpoolCfg, BitVec.ofNat 64 (n * 2 ^ 16))]
      ((stagedS n).commitOf Reg.cmdWpoolCommit).pending = some cap ∧ ((stagedS n).commitOf Reg.cmdWpoolCommit).made = none ∧ ((stagedS n).commitOf Reg.cmdWpoolCommit).discard = false ∧
      ((stagedS n).reason .cmdWpoolCommit 0 cap).isNone = (n == 0) ∧ (stagedS n).admitted .cmdWpoolCommit 0 = false) ∧
    (cnet (tmsg .wb)).admitted .nocBearCommit (Node.agent 0).ep = true := by
  repeat' apply And.intro
  all_goals decide +kernel

/-! ### Management and start-up -/

theorem witness_ManagementDebugAndFirmware :
    State.reset.confidential = false ∧ State.reset.fieldOf Reg.mgtI3c 6 0 = 0 ∧ ({ State.reset with regs := [(Reg.mgtI3c, 5)] } : State).fieldOf Reg.mgtI3c 6 0 ≠ 0 ∧
    State.reset.driverRow = false ∧ up0.driverRow = true ∧ up0.confidential = false ∧ up0.hostBusy 0 = false ∧
    State.reset.scrapped = false ∧ (State.reset.sensor 16).isSome = true ∧ State.reset.sensor 99 = none ∧ State.reset.fwu.active = false ∧
    (let s : State := { State.reset with fwu := ⟨true, [1, 3], []⟩ }
     s.fwu.active = true ∧ 3 ∈ s.fwu.offered) ∧
    (let s : State := { State.reset with regs := [(Reg.lcsStatus, 1), (Reg.mgtDbgStat, 3)] }
     s.bit Reg.secStatus 1 = false ∧ s.debugOpen = true ∧ s.bit Reg.mgtDbgStat 0 = true ∧ s.bit (Reg.nocCoord 255) 12 = false ∧
     ((s.modShip 255 (fun x => { x with halted := true })).ship 255).halted = true) ∧
    ({ State.reset with regs := [(Reg.secStatus, 2)] } : State).debugOpen = false ∧ ({ State.reset with regs := [(Reg.secStatus, 2)] } : State).bit Reg.secStatus 1 = true := by
  decide +kernel

def facts0 : BootFacts :=
  { recA := true, recB := true, fw0 := true, fw1 := true, pll := true, fabric := true, cols := [], saved := [], failed := [],
    pads := 0, digest := [], selfC := [], fw := 0, ms := 0 }
/-- Fuses that hold life-cycle state t in all five copies. -/
def fuseT (t : Nat) (v : Bool) : State := { fuse0 State.reset with fuses := (0, ((upTo 5).map (fun j => lcCode t * 2 ^ (10 * j))).sum) :: (upTo 60).map (fun k => (k + 1, 0)), vin48 := v }

theorem witness_StartUpRailsAndTheRecord :
    (∀ v ∈ [true, false], (fuseT 1 v).boot.step = 0 ∧ (fuseT 1 v).boot.dead = false ∧ ((fuseT 1 v).boot123 facts0).1 = true ∧ ((fuseT 1 v).boot123 facts0).2.vin48 = v) ∧
    ((fuseT 4 true).boot123 facts0).1 = false ∧
    (let s : State := { State.reset with boot := { State.reset.boot with step := 4, held := true, facts := some facts0 } }
     s.boot.step ≠ 0 ∧ s.boot.facts = some facts0 ∧ s.boot.held = true) ∧
    State.reset.boot.facts = none ∧ State.reset.boot.held = false ∧
    (let a : BmRec := { BmRec.factory with generation := 4 }
     let s : State := { State.reset with recDue := true, recA := some a, recB := some BmRec.factory }
     s.recDue = true ∧ s.recA = some a ∧ s.recB = some BmRec.factory ∧ BmRec.factory.generation < a.generation) ∧ (31 : W64).toNat % 32 ≠ 0 ∧ State.reset.scrapped = false := by
  repeat' apply And.intro
  all_goals decide +kernel

end Sys2Proof.Tests
end

