-- ==== Sys2Proof/Tests/Sites.lean ====
section
/-! SUPPORT. Power, the ring, sites and encodings: tests and states that meet the hypotheses. -/

namespace Sys2Proof.Tests

set_option Elab.async false
open Sys2Proof Sys2Proof.Machine

/-! ### Power and the ring -/

/-- One power sample of the hub, with the caps at 100 W. -/
def pwr0 (w : Nat) : State :=
  { State.reset with
    regs := [(Reg.pwrCapCfg, BitVec.ofNat 64 (100 + 1000 * 2 ^ 16))], power := ⟨[(w, [])], 0, [], 0, false⟩ }
def stack3 (w : Nat) : State := { pwr0 w with regs := (Reg.memStack 11, BitVec.ofNat 64 (3 * 2 ^ 8)) :: (pwr0 w).regs }

theorem witness_PowerCapsAndHeat :
    (∀ w ∈ [50, 98, 100, 102, 200], let s := pwr0 w
      let b := s.hubBudget
      let a := s.hubSum 10
      (105 * (b.1 * a.2) < 100 * (a.1 * b.2) ↔ w = 200) ∧ (b.1 * a.2 < a.1 * b.2 ↔ 100 < w) ∧ (100 * (a.1 * b.2) < 97 * (b.1 * a.2) ↔ w = 50) ∧
      s.anyStack3 = false) ∧
    (stack3 50).anyStack3 = true ∧
    (let b := (pwr0 200).hubBudget
     let a := (pwr0 200).hubSum 2
     12 * (b.1 * a.2) < 10 * (a.1 * b.2)) ∧
    (let b := (pwr0 100).hubBudget
     let a := (pwr0 100).hubSum 2
     10 * (a.1 * b.2) ≤ 12 * (b.1 * a.2)) ∧
    100 ≤ ({ State.reset with power := ⟨[], 100, [], 0, false⟩ } : State).power.floor ∧ State.reset.power.floor < 100 ∧
    500 ≤ (500 : BitVec 16).toInt ∧ (499 : BitVec 16).toInt < 500 ∧ (0x8000 : BitVec 16).toInt < 500 := by
  repeat' apply And.intro
  all_goals decide +kernel

/-- A frame of type k and origin 7 with HOPS 255, FREE 50 and BUDGET 500, and the same with a bad CRC. -/
def fr0 (k : Nat) : BitVec 128 := BitVec.ofNat 128 (frSeal (frNew k 7 9 (50 + 500 * 2 ^ 16) + 255 * 2 ^ 24))
def frBad (k : Nat) : BitVec 128 := fr0 k ^^^ 0x100000000000000000000000000000
/-- A joined station 3 that holds 40 tokens and wants n. -/
def ring0 (n : Nat) : State :=
  { State.reset with
    regs := [(Reg.pwrTrvCfg, BitVec.ofNat 64 (1 + 3 * 2 ^ 8 + n * 2 ^ 16)), (Reg.pwrTrvStat, BitVec.ofNat 64 (1 + 40 * 2 ^ 16)), (Reg.pwrEvent, 1),
      (Reg.pwrThermCfg, 0x10000), (Reg.glbStatus, 1)] }

theorem witness_PoolTokensAreTakenAndReturned :
    ∀ n ∈ [100, 10, 40], (ring0 n).bit Reg.pwrTrvStat 0 = true ∧ frByte (fr0 1).toNat 15 = frCrc (fr0 1).toNat ∧ frByte (fr0 1).toNat 1 = 1 ∧
      frByte (fr0 1).toNat 2 ≠ (ring0 n).fieldOf Reg.pwrTrvCfg 15 8 ∧ (ring0 n).fieldOf Reg.pwrTrvStat 31 16 = 40 ∧ (ring0 n).fieldOf Reg.pwrTrvCfg 31 16 = n := by
  decide +kernel

/-- H 40, WANT 100, FREE 50: the station takes 50 and FREE is 0 (R555). -/
theorem test_pool : (after (ring0 100) (exec (.pool (fr0 1)) (ring0 100))).fieldOf Reg.pwrTrvStat 31 16 = 90 := by decide +kernel

theorem witness_TheTraverseRing :
    (∀ k ∈ [1, 2, 3, 4, 9], (ring0 0).bit Reg.pwrTrvStat 0 = true ∧ frByte (frBad k).toNat 15 ≠ frCrc (frBad k).toNat ∧
      frByte (fr0 k).toNat 15 = frCrc (fr0 k).toNat ∧ frByte (fr0 k).toNat 1 = k ∧ frByte (fr0 k).toNat 2 = 7 ∧ (ring0 0).fieldOf Reg.pwrTrvCfg 15 8 = 3) ∧
    frByte (BitVec.ofNat 128 (frNew 3 7 0 3)).toNat 6 = 3 ∧
    frByte (BitVec.ofNat 128 (frNew 2 3 0 0)).toNat 2 = (ring0 0).fieldOf Reg.pwrTrvCfg 15 8 ∧
    ((ring0 0).bit Reg.pwrEvent 0 = true ∧ (ring0 0).bit Reg.pwrThermCfg 16 = true) ∧
    (let s : State := { ring0 0 with regs := (ring0 0).regs.set Reg.pwrTrvStat 0 }
     s.bit Reg.pwrTrvStat 0 = false ∧ s.bit Reg.glbStatus 0 = true ∧ s.bit Reg.pwrTrvCfg 0 = true) ∧
    ((1 : W64).toNat.testBit 0 = true ∧ (0 : W64).toNat.testBit 0 = false) ∧
    ({ ring0 0 with regs := (ring0 0).regs.set Reg.glbStatus 1 } : State).driverRow = true := by
  repeat' apply And.intro
  all_goals decide +kernel

/-! ### Sites -/

/-- Site 7 in a state, with what the hub knows of it. -/
def site0 (st : Nat) (f : SiteSt → SiteSt) : State := ({ State.reset with regs := [(Reg.siteStat 7, BitVec.ofNat 64 st)] } : State).modSite 7 f

theorem witness_SitesComeUpAndGoDown :
    (∀ st ∈ [1, 2, 3, 4, 5], (site0 st id).siteSt 7 = st) ∧
    (let s : State := { site0 2 (fun x => { x with rail := 650 }) with boot := { State.reset.boot with step := 10 } }
     s.siteSt 7 = 2 ∧ (s.site 7).rail ≠ 0 ∧ s.boot.step = 10) ∧ ((site0 3 id).site 7).stage = 0 ∧
    (let s : State := { site0 3 (fun x => { x with stage := 1, active := 0xFFF }) with boot := { State.reset.boot with step := 10 } }
     s.siteSt 7 = 3 ∧ (s.site 7).stage = 1 ∧ s.boot.step = 10 ∧ (s.site 7).retried = false ∧ 0xFFF &&& (s.site 7).active = (s.site 7).active ∧ (s.site 7).active ≠ 0 ∧
     (0xFFFFFF : Nat) = (s.site 7).active + (0xFFF &&& (s.site 7).active) * 2 ^ 12 ∧ (0xFFFFFF : Nat) < 2 ^ 24) ∧
    (∀ e ∈ [(15, 64), (16, 64)], let s := site0 3 (fun x => { x with stage := 2, sb := [(0x18, BitVec.ofNat 64 (e.1 * 0x01010101)), (0x20, BitVec.ofNat 64 (e.2 * 0x000100010001))] })
      s.siteSt 7 = 3 ∧ (s.site 7).stage = 2 ∧
      (let h := (upTo 5).map (fun c => fld (s.sbRead 7 0x18) (8 * c + 7) (8 * c))
       let d := (upTo 4).map (fun c => fld (s.sbRead 7 0x20) (16 * c + 15) (16 * c)) ++ [0]
       (upTo 5).all (fun c => decide (minH.getD c 0 ≤ h.getD c 0) && decide (minD.getD c 0 ≤ d.getD c 0)) = (e.1 == 16))) ∧
    (((site0 4 (fun x => { x with owed := [(0, 0, 0, 0)] })).site 7).owed ≠ [] ∧ ((site0 4 id).site 7).owed = [] ∧ ((site0 4 id).site 7).cancels = [] ∧
     ((site0 4 id).site 7).xinv = []) ∧ 
    (site0 4 id).siteSt 7 = 4 ∧ (site0 3 (fun x => { x with rail := 650 })).rising 7 = true ∧
    (let s := site0 4 (fun x => { x with rail := 650 })
     (s.site 7).rail ≠ 0 ∧ s.overPower 7 = false ∧
     ({ s with power := ⟨List.replicate 10 (100, List.replicate 8 40), 0, [], 0, false⟩ } : State).overPower 7 = true) ∧
    ((site0 4 id).site 7).rail = 0 ∧ (0x10000 : Nat).testBit 16 = true ∧ (0xFFFF : Nat).testBit 16 = false := by
  repeat' apply And.intro
  all_goals decide +kernel

def tx0 (code : Nat) : TxMsg := ⟨code, 6, 0, 2, 0, [5]⟩

theorem witness_FlitsMessagesAndFlushes :
    (let s := site0 4 (fun x => { x with rxSeq := 3 })
     s.siteSt 7 = 4 ∧ (s.site 7).rxHold = [] ∧ (s.site 7).rxSeq < 5 ∧ 2 < (s.site 7).rxSeq ∧ (s.site 7).tx = []) ∧
    (fld (2 ^ 120) 127 120 ≠ 0 ∧ fld (2 ^ 120 - 1) 127 120 = 0) ∧
    (∀ c ∈ [0x28, 0x2E, 0x2D, 0x2A], let s := site0 4 (fun x => { x with tx := [tx0 c], credH := [1, 1, 0, 0, 0], credD := [2, 0, 0, 0, 0] })
      s.siteSt 7 = 4 ∧ (s.site 7).tx = [tx0 c] ∧ (s.site 7).credit (tx0 c).cls (tx0 c).data.length = true ∧ (tx0 c).code = c ∧ (s.site 7).credit 1 0 = true) ∧
    (∀ st ∈ [0x00, 0xF0, 0x77], let s := site0 4 (fun x => { x with rxq := [(0x29, 6, [st, 1, 2])], works := [(6, ⟨2, 0, 5, 1, false, []⟩)] })
      s.siteSt 7 = 4 ∧ (0x29, 6, [st, 1, 2]) ∈ (s.site 7).rxq ∧ (s.site 7).works.get? 6 = some ⟨2, 0, 5, 1, false, []⟩) ∧
    (∀ who ∈ [255, 256], (0x2B, 6, [who]) ∈ ((site0 4 (fun x => { x with rxq := [(0x2B, 6, [who])] })).site 7).rxq) ∧
    (let s := site0 4 (fun x => { x with rxq := [(0x2C, 6, [5, 1, 0])] })
     (0x2C, 6, [5, 1, 0]) ∈ (s.site 7).rxq ∧ s.ctxs.get? 5 = none) ∧
    (∀ e ∈ [(0, 1), (1, 1), (0, 0xC00000000), (0, 0x4000)],
      let s0 := site0 4 (fun x => { x with rxq := [(0x2C, 6, [5, e.2, 1])] })
      let s : State := { s0 with
        mem := mem0.mem, ctxs := [(5, { ctx0 with parcel := e.1 })]
        regs := s0.regs ++ [(Reg.memCap, 384), (platKey 0 0, 9)]
        parcels := [(0, { ships := [], sites := [7], grans := [1], eases := [], down := false }), (1, { ships := [], sites := [], grans := [], eases := [], down := false })] }
      let u := s.modSite 7 (fun x => { x with rxq := x.rxq.erase (0x2C, 6, [5, e.2, 1]) })
      s.siteSt 7 = 4 ∧ (0x2C, 6, [5, e.2, 1]) ∈ (s.site 7).rxq ∧ u.ctxs.get? 5 = some { ctx0 with parcel := e.1 } ∧ (u.parcelOfSite 7 = some e.1 ↔ e.1 = 0) ∧
      (inHost (e.2 * 65536) = true ↔ 0xC00000000 ≤ e.2) ∧
      (e.2 < 2 ^ 20 → ((u.translateFresh { ctx0 with parcel := e.1 } none (e.2 * 65536) 1).toOption.isSome = true ↔ e = (0, 1)))) ∧
    (0x2F, 6, [5]) ∈ ((site0 4 (fun x => { x with rxq := [(0x2F, 6, [5])] })).site 7).rxq ∧
    (let s := site0 4 (fun x => { x with ask := true })
     (s.site 7).ask = true ∧ (s.site 7).works = []) ∧
    (let s := site0 4 (fun x => { x with flush := true })
     (s.site 7).flush = true ∧ s.parcelOfSite 7 = none ∧ (s.sbRead 7 0x38).testBit 0 = false) ∧
    (let s := site0 4 (fun x => { x with drop := true, sb := [(0x30, 2)] })
     (s.site 7).drop = true ∧ (s.sbRead 7 0x30).testBit 1 = true) ∧
    ((site0 4 (fun x => { x with meas := true })).site 7).meas = true := by
  repeat' apply And.intro
  all_goals decide +kernel

/-! ### Encodings -/

/-- `add s4, s1, s2` and `vmac` of form 0, with their words. -/
theorem witness_ThreadWordsDecodeToWhatTheyEncode :
    (Instr.add 0 fA).wf = true ∧ encodeThread (.add 0 fA) = some (encA 1 0 fA, 0) ∧ decodeThread 0 (encA 1 0 fA) 0 = some (.add 0 fA) ∧ (4194303 : Nat) < 2 ^ 22 := by
  decide +kernel

/-- Words written out from Tables 03-2 and 03-3: major in [31:26], d in [25:22], a in [21:18], b in [17:14], and function and modifier, the
immediate, or kind and immediate below: `add s4, s1, s2`, `addi s4, s1, -1`, `ld` of a signed word into s6 from pair 4 plus 8. -/
theorem test_words :
    decodeThread 9 (BitVec.ofNat 32 (0x01 * 2 ^ 26 + 4 * 2 ^ 22 + 1 * 2 ^ 18 + 2 * 2 ^ 14)) 0 = some (.add 9 ⟨4, 1, 2, 0⟩) ∧
    decodeThread 9 (BitVec.ofNat 32 (0x02 * 2 ^ 26 + 4 * 2 ^ 22 + 1 * 2 ^ 18 + 0x3FFF)) 0 = some (.addi 9 ⟨4, 1, 0, 0x3FFF⟩) ∧
    decodeThread 9 (BitVec.ofNat 32 (0x10 * 2 ^ 26 + 6 * 2 ^ 22 + 4 * 2 ^ 18 + 4 * 2 ^ 14 + 8)) 0 = some (.ld 9 ⟨6, 4, 4, 8⟩) := by decide +kernel

/-- A thread at PVA 0x8000, where memory holds a word of an unassigned major opcode. -/
def badWord : State := { issue0 with mem := mem0.mem.writeN (2 ^ 30 + 0x8000) 4 0xFC000000 }

theorem witness_EncodingFaultsReportTheLowestCode :
    run0.canIssue 0 = true ∧ run0.macFree 0 = true ∧
    ((⟨4, 1, 2, 1⟩ : FmtA).md ≠ 0 ∧ 4 ≤ (⟨4, 1, 2, 1⟩ : FmtA).d.toNat ∧ (⟨3, 1, 2, 1⟩ : FmtA).d.toNat < 4) ∧
    (fld (⟨4, 1, 0, 0x3000⟩ : FmtI).imm.toNat 13 12 = 3 ∧ fld (⟨4, 1, 1, 0⟩ : FmtI).imm.toNat 13 12 ≠ 3 ∧ (⟨4, 1, 1, 0⟩ : FmtI).b ≠ 0 ∧ 6 ≤ (⟨0, 1, 6, 0⟩ : FmtI).b.toNat ∧
     (⟨4, 1, 5, 0⟩ : FmtI).b.toNat < 6 ∧ 4 ≤ (⟨4, 1, 5, 0⟩ : FmtI).d.toNat) ∧
    (7 ≤ (⟨4, 1, 7, 0⟩ : FmtM).kind.toNat ∧ (⟨4, 1, 6, 0⟩ : FmtM).kind.toNat < 7 ∧ (⟨4, 1, 6, 0⟩ : FmtM).a.toNat % 2 = 1) ∧
    macForm ⟨0, 0, 0, 0, 0x300⟩ = 3 ∧ run0.threads.get? 0 = some th0 ∧ isExtended (major 0xFC000000) = false ∧ decodeThread 0 0xFC000000 0 = none ∧
    badWord.threads.get? 0 = some thPc ∧ badWord.wordHeld thPc 0 thPc.pc.toNat = false ∧ badWord.fetchWord thPc 0 thPc.pc.toNat = (.ok (0xFC000000, false, 0x8000), fetch1 badWord) := by
  refine ⟨?_, ?_, ?_, ?_, ?_, ?_, ?_, ?_,
    ?_, ?_, ?_, fetch_at badWord _ (by decide +kernel) (by decide +kernel) (by decide +kernel) (by decide +kernel) (by decide +kernel)
      (by decide +kernel) (by decide +kernel)⟩ <;> decide +kernel

end Sys2Proof.Tests
end

