-- ==== Sys2Proof/Tests/Slice0.lean ====
section
/-! SUPPORT. One ill-formed command for each check of well-formedness, and a test of the step. -/

namespace Sys2Proof.Tests

set_option Elab.async false
open Sys2Proof Sys2Proof.Machine

/-! ### Well-formedness -/

/-- One ill-formed command for each check, and the same check passed at the end of its range. -/
theorem test_ill_formed :
    (Instr.add 0x400000 fA).wf = false ∧ (Instr.nop 16384 0).wf = false ∧ (Instr.townshipSleep 256).wf = false ∧ (Instr.threadIssue 0 64 0).wf = false ∧
    (Instr.scratchpadBankArbitration 0 0 17).wf = false ∧ (Instr.flush 8).wf = false ∧ (Instr.busMasterEnable 64 true).wf = false ∧
    (Instr.sliceStart 384).wf = false ∧ (Instr.selfRefreshEntry 192).wf = false ∧ (Instr.refreshStepChange 12 0).wf = false ∧
    (Instr.poisonClear 0x1000000).wf = false ∧ (Instr.recoveryEnd 16).wf = false ∧ (Instr.slackExpired { hmsg .rdS with tag := 17 }).wf = false ∧ (Instr.throttleExpiry 256).wf = false ∧
    (Instr.ideKm 5 0 .prog).wf = false ∧ (Instr.done 0 4096 0 0 0).wf = false ∧ (Instr.commitApplied 0x4000000 0).wf = false ∧
    (Instr.registerWrite (.fn 64) 0 8 0 false).wf = false ∧ (Instr.cmp 0 6 fA).wf = false ∧ (Instr.gnorm 0 2 zA).wf = false ∧ (Instr.rdsr 0 7 zA).wf = false ∧
    (Instr.doorbell 0 4096 0 0 false).wf = false ∧ (Instr.xlate 0 0 0 0x1000000000 0).wf = false := by decide +kernel

theorem test_ill_formed_messages :
    (Instr.rds { hmsg .rdS with src := .agent 288 }).wf = false ∧ (Instr.rds { hmsg .rdS with dst := .home 384 }).wf = false ∧
    (Instr.rds { hmsg .rdS with req := .hub 15 }).wf = false ∧ (Instr.rds { hmsg .rdS with tag := 17 }).wf = false ∧
    (Instr.rds { hmsg .rdS with txid := 4096 }).wf = false ∧ (Instr.tcopy { tok0 .tcopy with expert := 4096 }).wf = false ∧
    (Instr.wake (.tok { tok0 .tcopy with dst := .agent 288 })).wf = false := by decide +kernel

theorem test_well_formed :
    (Instr.add 0x3FFFFF fA).wf = true ∧ (Instr.nop 16383 0).wf = true ∧ (Instr.townshipSleep 255).wf = true ∧ (Instr.cmp 0 11 fA).wf = true ∧
    (Instr.rds (hmsg .rdS)).wf = true ∧ (Instr.tcopy (tok0 .tcopy)).wf = true := by decide +kernel

/-! ### The step -/

/-- The front command is taken and run; an empty queue leaves the state as it is. -/
theorem test_step :
    step { State.reset with pending := [.vaux33Loss, .snap] } = exec .vaux33Loss { State.reset with pending := [.snap] } ∧
    step State.reset = .next State.reset := ⟨rfl, rfl⟩

end Sys2Proof.Tests
end

section
/-! PROOFS. Register accesses: who may write what, which registers act on a write, and what a read clears (R9, R10, R15, R377,
R378, R306). -/

namespace Sys2Proof.Machine

/-! ### The writer of a register -/

/-- No register is a VF's. -/
@[simp] theorem RegOwner.is_vf (o : RegOwner) (n : Nat) : o.is (.fn (n + 1)) = false := by cases o <;> rfl

theorem RegOwner.ne_vf_of_is {o : RegOwner} {p : Party} (h : o.is p = true) (n : Nat) : p ≠ .fn (n + 1) := by
  rintro rfl
  simp at h

/-! ### Accesses that BAR0 takes (R378) -/

theorem badSize_aligned {off size : Nat} (hsize : size = 4 ∨ size = 8) (halign : off % size = 0) : badSize off size false = false := by
  obtain rfl | rfl := hsize <;> simp [badSize, halign]

variable {s : State} {p : Party} {off size : Nat} {tee : Bool}

/-- A write of a size and alignment that R378 accepts reaches the registers. -/
theorem execRegisterWrite_taken (v : W64) (hopen : s.barOpen p.fnOf tee = true) (hsize : badSize off size false = false) :
    execRegisterWrite p off size v tee s = .next (s.write p off size v.toNat) := by
  simp [execRegisterWrite, hopen, hsize]

theorem execRegisterWrite_bad (v : W64) (hopen : s.barOpen p.fnOf tee = true) (hsize : badSize off size false = true) :
    execRegisterWrite p off size v tee s = .next (s.badAccess off true) := by
  simp [execRegisterWrite, hopen, hsize]

theorem execRcRead_bad (hopen : s.barOpen p.fnOf tee = true) (hsize : badSize off size false = true) :
    execRcRead p off size tee false s = .next (s.badAccess off false) := by
  simp [execRcRead, hopen, hsize]

/-- A read of a table whose channel is in a slice waits (R306). -/
theorem execRcRead_held (hopen : s.barOpen p.fnOf tee = true) (hsize : badSize off size false = false)
    (hheld : s.viewHeld p (off - off % 8) = true) :
    execRcRead p off size tee false s = .next { s with hostHeld := s.hostHeld ++ [.rcRead p off size tee false] } := by
  simp [execRcRead, hopen, hsize, hheld]

theorem execRcRead_taken (hopen : s.barOpen p.fnOf tee = true) (hsize : badSize off size false = false)
    (hheld : s.viewHeld p (off - off % 8) = false) :
    execRcRead p off size tee false s = .next ((s.readClear p (off - off % 8) (accMask off size)).emit
      (.regValue off (accRead off size (s.readWord p (off - off % 8))))) := by
  simp [execRcRead, hopen, hsize, hheld]

theorem execRcRead_doorbell (off size : Nat) (hopen : s.barOpen p.fnOf tee = true) :
    execRcRead p off size tee true s = .next (s.emit (.regValue off (accRead off size (s.doorbellRead p.fnOf (off - off % 8))))) := by
  simp [execRcRead, hopen]

/-- A write by another party than a VF to a served offset outside the MSI-X table goes to the word that holds the offset. -/
theorem State.write_block (v : Nat) (hserved : s.served p off = true) (hmsix : p ≠ .fn 0 ∨ msixAt 0 off = none)
    (hvf : ∀ n, p ≠ .fn (n + 1)) :
    s.write p off size v = s.blockWrite p (off - off % 8) (accMask off size) (accValue off size v) := by
  match p with
  | .fn 0 => simp [State.write, hserved, hmsix.resolve_left (fun h => h rfl)]
  | .fn (n + 1) => exact absurd rfl (hvf n)
  | .fieldCores => simp [State.write, hserved]
  | .datum => simp [State.write, hserved]

variable {r : RegSpec} {ix : List Nat}

/-- A party writes nothing of a register that is another's (R9, R15). -/
theorem State.blockWrite_other (mask x : Nat) (hreg : regAt? off = some (r, ix)) (howner : r.owner.is p = false) :
    s.blockWrite p off mask x = s := by
  simp [State.blockWrite, hreg, howner]

theorem State.blockWrite_owner (mask x : Nat) (hreg : regAt? off = some (r, ix)) (howner : r.owner.is p = true)
    (hcommit : r.commit = false) :
    s.blockWrite p off mask x = s.regWrite r ix off (mask &&& (2 ^ 64 - 1 - barred r.name p)) x := by
  simp [State.blockWrite, hreg, howner, hcommit]

/-- A read of a served register by a party that reads block registers clears the RC bits that it returns. -/
theorem State.readClear_served (mask : Nat) (hreg : regAt? off = some (r, ix)) (hany : RegOwner.any.is p = true)
    (hserved : s.served p off = true) :
    s.readClear p off mask = if r.rc &&& mask = 0 then s
      else s.setReg off (BitVec.ofNat 64 ((s.reg off).toNat &&& (2 ^ 64 - 1 - (r.rc &&& mask)))) := by
  simp [State.readClear, hreg, hany, hserved]

/-! ### Registers without a write effect of their own -/

/-- The registers one of whose fields acts when it is written, and PWR_TRV_CFG, whose write is a meaning of its own. -/
def actingRegs : List RegName :=
  [.pwrTrvCfg, .siteCtrl, .lcsNonceCtrl, .memCh, .cohAtomCtrl, .dspPredCtrl, .glbBootCtrl, .trnCtrl, .glbDirtyCtrl, .rasPoisonClear]

theorem State.triggers_plain {n : RegName} (h : n ∉ actingRegs) (ix : List Nat) (v : Nat) : s.triggers n ix v = s := by
  unfold State.triggers
  split <;> simp_all [actingRegs]

/-- Trace keeps its count where TRN_CTRL stays as it is. -/
theorem State.traceEdge_kept {t : State} (h : t.reg Reg.trnCtrl = s.reg Reg.trnCtrl) : s.traceEdge t = t := by
  have kept : t.bit Reg.trnCtrl 0 = s.bit Reg.trnCtrl 0 := by simp only [State.bit, h]
  simp [State.traceEdge, kept]

theorem regAt?_trnCtrl : (regAt? Reg.trnCtrl).map (fun x => x.1.name) = some .trnCtrl := by decide +kernel

theorem ne_trnCtrl_of_plain (hreg : regAt? off = some (r, ix)) (h : r.name ∉ actingRegs) : off ≠ Reg.trnCtrl := by
  rintro rfl
  have named : r.name = .trnCtrl := by simpa [hreg] using regAt?_trnCtrl
  exact h (by simp [named, actingRegs])

/-- The word of a register after a write of `x` to the bits of `mask`: RW bits that are not locked take effect, W1C bits written with 1
clear (Table 00-4). -/
def State.rwWord (s : State) (r : RegSpec) (ix : List Nat) (off mask x : Nat) : Nat :=
  maskPut (s.reg off).toNat ((r.rw &&& mask) &&& (2 ^ 64 - 1 - s.lockedBits r.name ix)) x &&& (2 ^ 64 - 1 - (x &&& (r.w1c &&& mask)))

/-- The shadow word of a register after such a write: over the word staged, or else the active one, the RWS bits. -/
def State.rwsWord (s : State) (r : RegSpec) (off mask x : Nat) : W64 :=
  BitVec.ofNat 64 (maskPut (match s.shadow.get? (s.keyOf r.name off) with | some y => y.toNat | none => s.active (s.keyOf r.name off)) (r.rws &&& mask) x)

/-- A word put at an offset, where it differs from the old one, and a shadow word at a key, where the register has RWS bits. -/
def State.putWords (s : State) (off w rws k : Nat) (y : W64) : State :=
  { s with
    regs := if w = (s.reg off).toNat then s.regs else s.regs.set off (BitVec.ofNat 64 w)
    shadow := if rws = 0 then s.shadow else s.shadow.set k y }

/-- The same, as the model writes it: first the word, then the shadow. -/
theorem State.putWords_eq (s : State) (off w rws k : Nat) (y : W64) (s1 : State)
    (h : s1 = if w = (s.reg off).toNat then s else s.setReg off (BitVec.ofNat 64 w)) :
    (if rws = 0 then s1 else { s1 with shadow := s1.shadow.set k y }) = s.putWords off w rws k y := by
  subst h
  unfold State.putWords
  split_ifs <;> rfl

theorem State.putWords_reg_ne (w rws k : Nat) (y : W64) {at_ : Nat} (h : at_ ≠ off) : (s.putWords off w rws k y).reg at_ = s.reg at_ := by
  unfold State.putWords State.reg
  split_ifs <;> simp [Tbl.getD_set_ne _ _ _ h]

/-- A write of a register without an effect of its own changes its word and its shadow word, and nothing else. -/
theorem State.regWrite_plain (mask x : Nat) (hreg : regAt? off = some (r, ix)) (h : r.name ∉ actingRegs) :
    s.regWrite r ix off mask x = s.putWords off (s.rwWord r ix off mask x) r.rws (s.keyOf r.name off) (s.rwsWord r off mask x) := by
  have not_traverse : r.name ≠ .pwrTrvCfg := fun e => h (by simp [e, actingRegs])
  have trace_kept := State.traceEdge_kept (State.putWords_reg_ne (s := s) (s.rwWord r ix off mask x) r.rws (s.keyOf r.name off)
    (s.rwsWord r off mask x) (ne_trnCtrl_of_plain hreg h).symm)
  rw [← trace_kept, ← State.putWords_eq _ _ _ _ _ _ _ rfl]
  simp only [State.regWrite, if_neg not_traverse, State.triggers_plain h]
  rfl

end Sys2Proof.Machine

open Sys2Proof Sys2Proof.Machine

/-- Settles O50, from the route of an access to its register and the one description of what a plain write changes. -/
theorem registerWritesFollowTheAccessCodes : Obligations.RegisterWritesFollowTheAccessCodes := by
  refine ⟨?_, ?_, ?_, ?_⟩
  · intro s p off size v tee r ix hopen hsize halign hserved hmsix hreg
    have taken := execRegisterWrite_taken v hopen (badSize_aligned hsize halign)
    constructor
    · intro howner hcommit hplain
      have written := State.regWrite_plain (s := s) (accMask off size &&& (2 ^ 64 - 1 - barred r.name p)) (accValue off size v.toNat) hreg hplain
      rw [← State.blockWrite_owner _ _ hreg howner hcommit, ← State.write_block _ hserved hmsix (RegOwner.ne_vf_of_is howner)] at written
      exact taken.trans (congrArg _ written)
    · intro howner hvf
      exact taken.trans (congrArg _ ((State.write_block _ hserved hmsix hvf).trans (State.blockWrite_other _ _ hreg howner)))
  · intro s p off size tee r ix hany hopen hsize halign hserved hreg
    have size_ok := badSize_aligned hsize halign
    constructor
    · exact execRcRead_held hopen size_ok
    · intro hheld
      have cleared := State.readClear_served (s := s) (accMask off size) hreg hany hserved
      exact cleared ▸ execRcRead_taken hopen size_ok hheld
  · intro s p off size v tee hopen hbad
    exact ⟨execRegisterWrite_bad v hopen hbad, execRcRead_bad hopen hbad⟩
  · intro s p off size tee hopen
    exact execRcRead_doorbell off size hopen
end

section
/-! PROOFS. Array tests: townships taken for a test, the end of a block, and the end of a township's test (R17, R226 to R232). -/

namespace Sys2Proof.Machine

variable {s : State}

/-! ### A township read after an update -/

@[simp] theorem State.ship_modShip (s : State) (t : Nat) (f : Township → Township) : (s.modShip t f).ship t = f (s.ship t) := by
  simp [State.ship, State.modShip]

@[simp] theorem State.ship_setBit (s : State) (off i : Nat) (b : Bool) (t : Nat) : (s.setBit off i b).ship t = s.ship t := rfl

/-! ### ARRAY_TEST -/

/-- A started ARRAY_TEST of present townships is answered at once where it names none, and else takes those that are free. -/
theorem execArrayTest_starts {q i : Nat} {x : Queue} {c : Cmd} (hruns : s.runs q i 0x080 x c)
    (hreserved : reservedByte c.pkt [(8, 39)] = none) (hconf : s.confidential = false)
    (hpresent : ∀ t ∈ bitsOf 256 (pb c.pkt 39 8), (s.ship t).absent = false ∧ s.bit (Reg.nocCoord t) 12 = false) :
    execArrayTest q i s = .next (if (bitsOf 256 (pb c.pkt 39 8)).isEmpty then s.answer q i okAnswer
      else s.takeTests (s.req q i x c) (bitsOf 256 (pb c.pkt 39 8)) (bitsOf 256 (pb c.pkt 39 8))
        (((bitsOf 256 (pb c.pkt 39 8)).filterMap s.parcelOfShip).eraseDups.flatMap s.running)) := by
  have none_absent : (bitsOf 256 (pb c.pkt 39 8)).find? (fun t => (s.ship t).absent || s.bit (Reg.nocCoord t) 12) = none := by
    simpa using hpresent
  unfold execArrayTest
  rw [serving_runs hruns, serve_runs hruns]
  simp only [reply_req, packetCheck_none hreserved (rfl : firstBad [] = none) (rfl : firstBad [] = none), hconf,
    Bool.false_eq_true, if_false, none_absent]

/-- An ARRAY_TEST that still wants townships takes those that have become free. -/
theorem execArrayTest_continues {q i n k : Nat} {l : List Nat} {x : Queue} {c : Cmd}
    (hserves : s.serves q i 0x080 x c (0xF030 :: n :: k :: l)) (hn : n ≠ 0) :
    execArrayTest q i s = .next (s.takeTests (s.req q i x c) (l.take n) ((l.drop n).take k) (l.drop (n + k))) := by
  unfold execArrayTest
  rw [serving_serves hserves]
  simp only [List.getD_cons_succ, List.getD_cons_zero, List.drop_succ_cons, List.drop_zero, if_neg hn]
  exact congrArg _ (serve_keepServing _ _ rfl rfl)

/-! ### The end of a block -/

/-- A block that is under test ends: its side counts it, and where it found failing columns or its comparison failed, they are dealt with. -/
theorem execArrayTestBlock_ends {t : Nat} {y : TestSt} {b : Option Nat} (cols : List Nat) (bad : Bool)
    (htest : (s.ship t).test = some y) (hcache : b = none → y.at_ b < 273) (hsect : ∀ i, b = some i → i < 66 ∧ y.at_ b < 85) :
    execArrayTestBlock t b (y.at_ b) cols bad s = .next
      (if cols.isEmpty && !bad then (s.modShip t (fun x => { x with test := some (y.next b) })).setField (Reg.rasArrStat t) 24 16 (y.next b).left
      else ((s.modShip t (fun x => { x with test := some (y.next b) })).setField (Reg.rasArrStat t) 24 16 (y.next b).left).blockFails t b (y.at_ b)
        cols.eraseDups bad) := by
  cases b with
  | none =>
    have under_test : ¬ cacheSteps ≤ y.at_ none := Nat.not_le.mpr (hcache rfl)
    simp [execArrayTestBlock, htest, under_test]
  | some i =>
    have section_exists : ¬ 66 ≤ i := Nat.not_le.mpr (hsect i rfl).1
    have under_test : ¬ sectSteps ≤ y.at_ (some i) := Nat.not_le.mpr (hsect i rfl).2
    simp [execArrayTestBlock, htest, section_exists, under_test]

/-- The array of the block that a side tests. -/
def blockArray (b : Option Nat) (k : Nat) : ArrayId := b.elim (cacheArray k) (fun i => sectArray i k)

/-- The state once a block's failing columns are counted and the spares that are left have taken theirs. -/
def State.sparesAssigned (s : State) (t : Nat) (b : Option Nat) (k : Nat) (cols : List Nat) (bad : Bool) : State :=
  let a := blockArray b k
  { (((s.addSat (Reg.rasArrStat t) 63 48 (cols.length + b2n bad)).addSat (Reg.rasArrStat t) 47 32
      (min cols.length (s.sparesLeft (s.physOf t) a))).repair (s.physOf t) a cols) with recDue := true }

/-- A failing block is mended by its spares; where a failure is left, its township is withdrawn and it is invalidated or cleared. -/
theorem State.blockFails_eq (s : State) (t : Nat) (b : Option Nat) (k : Nat) (cols : List Nat) (bad : Bool) :
    s.blockFails t b k cols bad =
      if min cols.length (s.sparesLeft (s.physOf t) (blockArray b k)) = cols.length ∧ bad = false then s.sparesAssigned t b k cols bad
      else b.elim (((s.sparesAssigned t b k cols bad).withdraw t (arrayUnit (s.physOf t) (blockArray b k))).dropBlock t k)
        (fun i => ((s.sparesAssigned t b k cols bad).withdraw t (arrayUnit (s.physOf t) (blockArray b k))).zeroBlock t i k) := by
  have mended : (decide (min cols.length (s.sparesLeft (s.physOf t) (blockArray b k)) = cols.length) && !bad) = true ↔
      min cols.length (s.sparesLeft (s.physOf t) (blockArray b k)) = cols.length ∧ bad = false := by
    rw [Bool.and_eq_true, decide_eq_true_eq, Bool.not_eq_true']
  rw [← if_congr mended rfl rfl]
  cases b <;> rfl

/-! ### The end of a township's test -/

theorem TestSt.finished_of {y : TestSt} (hcache : 273 ≤ y.cache) (hsects : ∀ i, i < 66 → 85 ≤ y.sects.getD i 0) : y.finished = true := by
  have cache_done : cacheSteps ≤ y.cache := hcache
  have sects_done : ∀ i < 66, sectSteps ≤ y.sects.getD i 0 := hsects
  simpa [TestSt.finished, upTo, cache_done] using sects_done

/-- A township that has left its test. -/
def State.endTest (s : State) (t : Nat) : State :=
  (s.modShip t (fun x => { x with test := none })).setBit (Reg.rasArrStat t) 0 false

/-- With no command outstanding, the end of a test answers none. -/
theorem execArrayTestEnd_idle {t : Nat} {y : TestSt} (htest : (s.ship t).test = some y) (hfinished : y.finished = true)
    (hidle : ∀ e ∈ s.queues, e.2.cmds = []) : execArrayTestEnd t s = .next (s.endTest t) := by
  simp only [execArrayTestEnd, htest, hfinished]
  refine congrArg _ ?_
  refine (List.foldl_ext _ (fun u _ => u) _ fun u e he => ?_).trans (List.foldl_fixed _)
  simp [hidle e he]

/-- The end of the last township of the one command that waits answers that command. -/
theorem execArrayTestEnd_last {t q i : Nat} {y : TestSt} {x : Queue} {c : Cmd} (htest : (s.ship t).test = some y) (hfinished : y.finished = true)
    (hqueues : s.queues = [(q, x)]) (hcmds : x.cmds = [(i, c)]) (hop : c.opcode = 0x080) (hst : c.st = .serving [0xF030, 0, 1, t]) :
    execArrayTestEnd t s = .next ((s.endTest t).answer q i ((s.endTest t).testAnswer [t])) := by
  have waits : (s.endTest t).queues = [(q, x)] := hqueues
  simp only [State.endTest] at waits
  simp [execArrayTestEnd, htest, hfinished, waits, hcmds, hst, hop, State.endTest]

end Sys2Proof.Machine

open Sys2Proof Sys2Proof.Machine

/-- Settles O42, from the start and the continuation of ARRAY_TEST, the end of a block and the end of a township's test. -/
theorem arrayTestsOfTownships : Obligations.ArrayTestsOfTownships := by
  refine ⟨fun s q i x c => ⟨?_, ?_⟩, ?_, ?_, ?_⟩
  · intro hruns hreserved hconf ts hpresent
    have started := execArrayTest_starts hruns hreserved hconf hpresent
    exact ⟨fun none_named => started.trans (congrArg _ (if_pos (List.isEmpty_iff.mpr none_named))),
      fun some_named => started.trans (congrArg _ (if_neg (mt List.isEmpty_iff.mp some_named)))⟩
  · exact fun n k l hserves hn => execArrayTest_continues hserves hn
  · intro s t y b cols bad htest hcache hsect s1
    have ended := execArrayTestBlock_ends cols bad htest hcache hsect
    constructor
    · rintro rfl rfl
      exact ended
    · intro failed
      exact ended.trans (congrArg _ (if_neg (by simpa [or_iff_not_imp_left] using failed)))
  · intro s t b k cols bad phys a n s1
    have failing := s.blockFails_eq t b k cols bad
    constructor
    · intro mended held
      exact failing.trans (if_pos ⟨mended, held⟩)
    · intro left
      have withdrawn := failing.trans (if_neg (not_and_or.mpr (left.imp_right ne_false_of_eq_true)))
      exact ⟨by rintro rfl; exact withdrawn, by rintro i rfl; exact withdrawn⟩
  · intro s t y htest hcache hsects s1
    have finished := TestSt.finished_of hcache hsects
    exact ⟨execArrayTestEnd_idle htest finished, fun q i x c => execArrayTestEnd_last htest finished⟩
end

section
/-! PROOFS. Staged sets: a COMMIT register named by its owner, the capture and the drop of a shadow set, and the end of the validation of
a captured set (R11 to R14, R464). -/

namespace Sys2Proof.Machine

variable {s : State}

/-! ### The COMMIT state of a group -/

@[simp] theorem State.commitOf_setCommit (s : State) (k : Nat) (c : Commit) : (s.setCommit k c).commitOf k = c := by
  simp [State.commitOf, State.setCommit]

@[simp] theorem State.setCommit_setCommit (s : State) (k : Nat) (c d : Commit) : (s.setCommit k c).setCommit k d = s.setCommit k d := by
  simp [State.setCommit]

/-! ### APPLY and DISCARD (R14) -/

variable {r : RegName} {i key : Nat}

theorem State.applyBit_idle (h : (s.commitOf key).pending = none) :
    s.applyBit r i key = s.setCommit key { s.commitOf key with pending := some (s.capture r i) } := by
  simp [State.applyBit, h]

theorem State.applyBit_pending (h : (s.commitOf key).pending ≠ none) : s.applyBit r i key = s := by
  simp [State.applyBit, Option.isSome_iff_ne_none.mpr h]

theorem State.discardBit_idle (h : (s.commitOf key).pending = none) : s.discardBit r i key = s.discardSet r i := by
  simp [State.discardBit, h]

theorem State.discardBit_pending (h : (s.commitOf key).pending ≠ none) :
    s.discardBit r i key = s.setCommit key { s.commitOf key with discard := true } := by
  simp [State.discardBit, Option.isSome_iff_ne_none.mpr h]

/-- A COMMIT register written by its owner reaches its group (R13, R15). -/
theorem State.onCommit_owner {p : Party} {off : Nat} {r : RegSpec} {ix : List Nat} (f : RegName → Nat → Nat → State)
    (hreg : regAt? off = some (r, ix)) (hcommit : r.commit = true) (howner : r.owner.is p = true) (hserved : s.served p off = true) :
    s.onCommit p off f = f r.name (s.groupNo r.name ix) (groupKey r.name (s.groupNo r.name ix) off) := by
  simp [State.onCommit, hreg, hcommit, howner, hserved]

/-! ### The end of a validation (R11, R12) -/

/-- A rejected set is dropped, with its reason, and the registers stay. -/
theorem State.commitDone_rejected {cap : Tbl W64} {k : Nat} (hmade : (s.commitOf key).made = none) (hreason : s.reason r i cap = some k)
    (hdiscard : (s.commitOf key).discard = false) :
    s.commitDone r i key cap =
      s.setCommit key { s.commitOf key with rejected := true, reason := k, pending := none, discard := false } := by
  simp [State.commitDone, hmade, hreason, State.endCommit, hdiscard]

/-- A set waits while the active one has admitted requests open. -/
theorem State.commitDone_waits {cap : Tbl W64} (hmade : (s.commitOf key).made = none) (hreason : s.reason r i cap = none)
    (hopen : s.admitted r i = true) : s.commitDone r i key cap = s := by
  simp [State.commitDone, hmade, hreason, hopen]

/-- Any set but a plat's is applied at one instant. -/
theorem State.commitDone_applies {cap : Tbl W64} (hmade : (s.commitOf key).made = none) (hreason : s.reason r i cap = none)
    (hopen : s.admitted r i = false) (hplat : r ≠ .prcPlatCommit) :
    s.commitDone r i key cap =
      (((({ s.putActive (s.capWords r i cap) with shadow := s.shadow.keep (fun k v => cap.get? k != some v) } : State).applied key).afterApply
        r).endCommit r i key) := by
  simp [State.commitDone, hmade, hreason, hopen, hplat]

/-- What follows the end of a validation: the EROUTE_SET commands of the parcel learn the outcome of their set. -/
def State.toldErouteSet (s : State) (r : RegName) (i key : Nat) (u : State) : State :=
  if r = .dspErouteCommit then u.erouteEnd i (s.outcome u key) else u

/-- A validation ends on the pending set of the group that a COMMIT register and a parcel or interface name. -/
theorem execCommitApplied_pending {off group : Nat} {r : RegSpec} {ix : List Nat} {cap : Tbl W64} (hreg : regAt? off = some (r, ix))
    (hcommit : r.commit = true) (hgroup : (if groupKey r.name group off = off then ix.headD 0 else group) = i)
    (hkey : groupKey r.name i off = key) (hpending : (s.commitOf key).pending = some cap) :
    execCommitApplied off group s = .next (s.toldErouteSet r.name i key (s.commitDone r.name i key cap)) := by
  simp only [execCommitApplied, hreg, hcommit, if_true, hgroup, hkey, hpending, State.toldErouteSet]

end Sys2Proof.Machine

open Sys2Proof Sys2Proof.Machine

/-- Settles O51, from the effect of each bit on its group and the three ends of a validation. -/
theorem stagedSetsAreCapturedAndApplied : Obligations.StagedSetsAreCapturedAndApplied := by
  constructor
  · intro s p off r ix hreg hcommit howner hserved i key c
    have reached (f : RegName → Nat → Nat → State) : s.onCommit p off f = f r.name i key :=
      State.onCommit_owner f hreg hcommit howner hserved
    refine ⟨fun idle => ?_, fun pending => ?_, fun idle => ?_, fun pending => ?_, ?_⟩
    · exact congrArg _ ((reached _).trans (State.applyBit_idle idle))
    · exact congrArg _ ((reached _).trans (State.applyBit_pending pending))
    · exact congrArg _ ((reached _).trans (State.discardBit_idle idle))
    · exact congrArg _ ((reached _).trans (State.discardBit_pending pending))
    · exact congrArg _ (reached _)
  · intro s off group r ix cap hreg hcommit i key c told hpending hmade
    have ended {u : State} (done : s.commitDone r.name i key cap = u) : exec (.commitApplied off group) s = .next (told u) :=
      done ▸ execCommitApplied_pending hreg hcommit rfl rfl hpending
    refine ⟨fun k hreason hdiscard => ?_, fun hreason hopen => ?_, fun hreason hopen hplat => ?_⟩
    · exact ended (State.commitDone_rejected hmade hreason hdiscard)
    · exact ended (State.commitDone_waits hmade hreason hopen)
    · exact ended (State.commitDone_applies hmade hreason hopen hplat)
end

section
/-! PROOFS. Control flow: encoding checks that find nothing, jumps, the end of a thread, and the special registers (R40, R93, R129). -/

namespace Sys2Proof.Machine

variable {s : State} {t : Nat} {th : Thread}

/-! ### Encoding checks that find nothing -/

@[simp] theorem firstCode_nil : firstCode [] = none := rfl

@[simp] theorem firstCode_pass (c : Nat) (l : List (Bool × Nat)) : firstCode ((false, c) :: l) = firstCode l := by
  simp [firstCode]

/-- A reserved field of zero passes (R83). -/
@[simp] theorem nz_zero (n : Nat) : nz (0#n) = false := by simp [nz]

/-- An even pair field passes (R75). -/
theorem badP_even {x : BitVec 4} (h : x.toNat % 2 = 0) : badP x = false := by simp [badP, h]

/-! ### The program counter -/

theorem State.modThread_resident (ht : s.threads.get? t = some th) (f : Thread → Thread) : s.modThread t f = s.setThread t (f th) := by
  simp [State.modThread, ht]

theorem State.advance_resident (ht : s.threads.get? t = some th) (n : Nat) : s.advance t n = s.jumped t th (th.pc + BitVec.ofNat 52 n) :=
  State.modThread_resident ht _

/-- A program counter among the writes moves the thread, and the log of a speculative one takes nothing for it. -/
theorem Thread.write?_withPc (th : Thread) (e : Eff) (pc : BitVec 52) :
    th.write? { e with pc := some pc } = (th.write? e).map (fun x => { x with pc := pc }) := by
  have same_log (log : List SpecItem) : th.logged log { e with pc := some pc } = th.logged log e := rfl
  unfold Thread.write?
  split
  · rfl
  · rw [same_log]
    split_ifs <;> rfl

/-- A register instruction that jumps makes its writes and goes on at its target. -/
theorem regInstr_jumps {u : Uses} (h : s.canRun t th u) (n : Nat) (e : Thread → Eff) (pc : Thread → BitVec 52) :
    regInstr t n none u (fun x => { e x with pc := some (pc x) }) s = s.wroteAt t th (e th) (pc th) := by
  have not_waiting := State.canIssue_wait h.1 h.2.1
  rw [regInstr, issue_run h]
  simp only [State.writeRegs_write? h.2.1, Thread.write?_withPc, State.wroteAt]
  cases written : th.write? (e th) with
  | none => simp [State.waits]
  | some x => simp [State.waits, Thread.write?_wait written, not_waiting]

/-! ### Jumps, nop and end -/

theorem execBr_runs {f : FmtI} (h : s.canRun t th [.p (f.d.toNat % 4)]) (ha : f.a = 0) (hb : f.b = 0) :
    execBr t f s = .next (s.jumped t th (if f.d.getLsbD 3 = true ∨ th.pred (f.d.toNat % 4) ≠ f.d.getLsbD 2
      then th.pc + BitVec.ofInt 52 (f.imm.toInt * 4) else th.pc + 4#52)) := by
  have encoded : firstCode [(nz f.a || nz f.b, 0x12)] = none := by simp [ha, hb]
  rw [execBr, encoded, issue_run h]
  simp only [State.modThread_resident h.2.1, State.advance_resident h.2.1, Bool.or_eq_true, bne_iff_ne]
  split_ifs <;> rfl

theorem execJal_runs {f : FmtE} (h : s.canRun t th (usesPair f.d.toNat)) (hd : f.d.toNat % 2 = 0) (ha : f.a = 0) (hb : f.b = 0) (hi : f.imm = 0) :
    execJal t f s = .next (s.wroteAt t th (Eff.pr f.d.toNat (th.pc + 8#52).toNat) (th.pc + BitVec.ofInt 52 (f.ext.toInt * 4))) := by
  have encoded : firstCode [(badP f.d, 0x11), (nz f.a || nz f.b || nz f.imm, 0x12)] = none := by simp [badP_even hd, ha, hb, hi]
  rw [execJal, encoded]
  exact congrArg _ (regInstr_jumps h 8 (fun x => Eff.pr f.d.toNat (x.pc + 8#52).toNat) (fun x => x.pc + BitVec.ofInt 52 (f.ext.toInt * 4)))

theorem execJr_runs {f : FmtA} (h : s.canRun t th (usesPair f.a.toNat)) (ha : f.a.toNat % 2 = 0) (hd : f.d = 0) (hb : f.b = 0) (hm : f.md = 0)
    (haligned : th.pr f.a.toNat % 2 ^ 52 % 4 = 0) :
    execJr t f s = .next (s.jumped t th (BitVec.ofNat 52 (th.pr f.a.toNat % 2 ^ 52))) := by
  have encoded : firstCode [(badP f.a, 0x11), (nz f.d || nz f.b || nz f.md, 0x12)] = none := by simp [badP_even ha, hd, hb, hm]
  rw [execJr, encoded, issue_run h]
  exact congrArg _ ((if_neg (not_not_intro haligned)).trans (State.modThread_resident h.2.1 _))

section
variable {f : FmtA} (h : s.canRun t th []) (hd : f.d = 0) (ha : f.a = 0) (hb : f.b = 0) (hm : f.md = 0)
include h hd ha hb hm

theorem execNopInstruction_runs : execNopInstruction t f s = .next (s.jumped t th (th.pc + 4#52)) := by
  have encoded : firstCode [(nz f.d || nz f.a || nz f.b || nz f.md, 0x12)] = none := by simp [hd, ha, hb, hm]
  rw [execNopInstruction, encoded, issue_run h]
  exact congrArg _ (State.advance_resident h.2.1 4)

/-- A thread that is not speculative and has no scratchpad access in progress ends, and with it every layer of an origin thread. -/
theorem execEndThread_ends (hspec : th.spec = none) (hpad : s.padBusy t = false) :
    execEndThread t f s = .next (({ s with threads := s.threads.erase t }).endLayers th.launch t 256) := by
  have encoded : firstCode [(nz f.d || nz f.a || nz f.b || nz f.md, 0x12)] = none := by simp [hd, ha, hb, hm]
  rw [execEndThread, encoded, issue_run h]
  simp [hspec, hpad]

end

/-! ### Special registers -/

/-- Steps that pass on a core leave a thread as able to issue as it was. -/
theorem State.tickCore_canRun {u : Uses} (h : s.canRun t th u) (k : Nat) : (s.tickCore k).canRun t th u := h

theorem execRdsr_reads {r : BitVec 6} {f : FmtA} (h : s.canRun t th [.s f.d.toNat]) (hr : r.toNat < 7) (ha : f.a = 0) (hb : f.b = 0) (hm : f.md = 0) :
    execRdsr t r f s = .next (let u := if r.toNat < 2 then s.tickCore (coreOf t) else s
      u.wrote t th (Eff.sc f.d.toNat (u.special t th r.toNat)) 4) := by
  have encoded : firstCode [(decide (7 ≤ r.toNat), 0x10), (nz f.a || nz f.b || nz f.md, 0x12)] = none := by
    simp [Nat.not_le.mpr hr, ha, hb, hm]
  have read (u : State) (hu : u.canRun t th [.s f.d.toNat]) := regInstr_ready hu 4 (fun x => Eff.sc f.d.toNat (u.special t x r.toNat)) rfl
  simp only [execRdsr, encoded, h.1, Bool.true_and, decide_eq_true_eq]
  split_ifs
  · exact congrArg _ (read _ (State.tickCore_canRun h _))
  · exact congrArg _ (read _ h)

theorem execWrsr_writes {f : FmtA} (h : s.canRun t th [.s f.a.toNat]) (hd : f.d = 0) (hb : f.b = 0) (hm : f.md = 0) :
    execWrsr t f s = .next (s.wrote t th { Eff.none with g := some (th.sr f.a.toNat) } 4) := by
  have encoded : firstCode [(nz f.d || nz f.b || nz f.md, 0x12)] = none := by simp [hd, hb, hm]
  exact congrArg _ (regInstr_ok h encoded 4 _ rfl)

end Sys2Proof.Machine

open Sys2Proof Sys2Proof.Machine

/-- Settles O9, from the run of each instruction on a thread that can issue. -/
theorem controlFlowInstructions : Obligations.ControlFlowInstructions := by
  refine ⟨?_, ?_, ?_, ?_, ?_, ?_⟩
  · intro s t th f h ha hb
    exact execBr_runs h ha hb
  · intro s t th f h hd ha hb hi
    exact execJal_runs h hd ha hb hi
  · intro s t th f h ha hd hb hm haligned
    exact execJr_runs h ha hd hb hm haligned
  · intro s t th f h hd ha hb hm
    exact ⟨execNopInstruction_runs h hd ha hb hm, execEndThread_ends h hd ha hb hm⟩
  · intro s t th r f h hr ha hb hm
    exact execRdsr_reads h hr ha hb hm
  · intro s t th f h hd hb hm
    exact execWrsr_writes h hd hb hm
end

section
/-! PROOFS. Launches: the placement of one that fits, the mark of one that starves, and the end of one of which nothing is left (R40, R155,
R430 to R432). -/

namespace Sys2Proof.Machine

variable {s : State} {id : Nat} {l : Launch} {ts : List Nat}

/-! ### Placement (R430 to R432) -/

/-- A launch that holds the townships it was given; words written from here on are new to its fetches (R41). -/
def Launch.placedOn (l : Launch) (ts : List Nat) (start : Nat) : Launch := { l with st := .placed, ships := ts, start := start }

/-- The sections of a launch's grid on its townships. -/
def Launch.gridSects (l : Launch) (ts : List Nat) : List Nat := (ts.map (fun t => (upTo l.gs).map (fun x => t * 64 + x))).flatten

/-- A section as a launch finds it: empty but for the last winner of each bank, and its gather control block zeroed. -/
def Launch.clearSect (l : Launch) (s : State) (k : Nat) : State :=
  { s with
    spm := match l.gather with | some g => s.spm.writeN (spKey k g.ctrl) 64 0 | none => s.spm
    sections := s.sections.set k { SectionSt.empty with won := (s.sect k).won } }

/-- A thread at its start at every rank of a launch's grid. -/
def State.startGrid (s : State) (id : Nat) (l : Launch) : State :=
  (upTo l.size).foldl (fun s r => s.setThread (l.threadAt r) (startThread id l (l.threadAt r))) s

/-- A waiting launch that may be placed and fits takes its townships, clears its sections, starts its threads and is traced. -/
theorem execLaunchPlaced_fits (hl : s.launches.get? id = some l) (hwaiting : l.st = .waiting) (hmay : s.mayPlace id l = true)
    (hfits : s.fits l = some ts) :
    execLaunchPlaced id s = .next ((((l.gridSects ts).foldl l.clearSect (s.setLaunch id (l.placedOn ts s.code.length))).startGrid id
      (l.placedOn ts s.code.length)).trace 1 0 (ts.headD 0) (l.placedOn ts s.code.length).traceBytes) := by
  have given : (if l.st = .waiting && s.mayPlace id l then s.fits l else none) = some ts := by simp [hwaiting, hmay, hfits]
  simp only [execLaunchPlaced, hl, given]
  rfl

theorem execStarve_first (hl : s.launches.get? id = some l) (hwaiting : l.st = .waiting) (hfirst : s.aheadOf id l = []) :
    execStarve id s = .next (s.setLaunch id { l with starved := true }) := by
  simp [execStarve, hl, hwaiting, hfirst]

/-! ### The end of a launch (R40, R155) -/

/-- What a launch answers its command: OK, or DATA_LOSS with its count of poisoned reads. -/
def Launch.answer (l : Launch) : Answer := if l.poisoned = 0 then ⟨0, 0, l.result⟩ else ⟨0x50, l.poisoned, l.result⟩

/-- A placed launch of which nothing is left ends, and is traced. -/
theorem execLaunchComplete_over (hl : s.launches.get? id = some l) (hplaced : l.st = .placed) (hthreads : ∀ e ∈ s.threads, e.2.launch ≠ id)
    (haccs : ∀ e ∈ s.accs, e.2.launch = id → e.2.st = .done) (hreqs : ∀ e ∈ s.sections, e.2.reqs = []) (htoks : s.toks = [])
    (hsignal : s.signalDue id l = false) :
    execLaunchComplete id s = .next (((s.clearDispatch l).endLaunch id l.answer).trace 2 0 (l.ships.headD 0) l.traceBytes) := by
  have no_thread : s.threads.any (fun e => e.2.launch == id) = false := by simpa using hthreads
  have no_access : s.accs.any (fun e => e.2.launch == id && e.2.st != .done) = false := by simpa using haccs
  have no_request : s.sections.any (fun e => l.ships.contains (e.1 / 64) && e.2.reqs.any (fun r => 3 ≤ r.rank)) = false := by
    rw [List.any_eq_false]
    intro e he
    simp [hreqs e he]
  simp only [execLaunchComplete, hl, hplaced, no_thread, no_access, no_request, htoks, hsignal]
  rfl

end Sys2Proof.Machine

open Sys2Proof Sys2Proof.Machine

/-- Settles O15, from the placement of a launch that fits, the mark of the first that waits, and the end of one of which nothing is left. -/
theorem launchPlacementAndEnd : Obligations.LaunchPlacementAndEnd := by
  refine ⟨?_, ?_, ?_⟩
  · intro s id l ts hl hwaiting hmay hfits l2 secs s2
    exact execLaunchPlaced_fits hl hwaiting hmay hfits
  · intro s id l hl hwaiting hfirst
    exact execStarve_first hl hwaiting hfirst
  · intro s id l hl hplaced hthreads haccs hreqs htoks hsignal
    exact execLaunchComplete_over hl hplaced hthreads haccs hreqs htoks hsignal
end

section
/-! PROOFS. The words of thread instructions: what a decoded word encodes to, and what an encoded instruction decodes to (R80, R81). -/

namespace Sys2Proof.Machine

variable {t : Nat} {w x : W32} {i : Instr}

/-! ### A word rebuilt from its major opcode and its fields -/

section
variable {m : Nat} (h : major w = m)
include h

theorem extractLsb'_major : w.extractLsb' 26 6 = BitVec.ofNat 6 m := by
  rw [← h, major, BitVec.ofNat_toNat, BitVec.setWidth_eq]

theorem encA_of_major : encA (BitVec.ofNat 6 m) (func w) (wordA w) = w := extractLsb'_major h ▸ encA_wordA w
theorem encI_of_major : encI (BitVec.ofNat 6 m) (wordI w) = w := extractLsb'_major h ▸ encImm_word w
theorem encM_of_major : encM (BitVec.ofNat 6 m) (wordM w) = w := extractLsb'_major h ▸ encImm_word w
theorem encE_of_major (x : W32) : encE (BitVec.ofNat 6 m) (wordE w x) = w := extractLsb'_major h ▸ encImm_word w

end

/-! ### From words to the instruction and back -/

/-- Words spell an instruction of a thread: it encodes to them, and it is well formed where the thread is one of the hub. -/
def Spells (t : Nat) (w x : W32) (i : Instr) : Prop := encodeThread i = some (w, x) ∧ threadOf i = t ∧ (wfThread t = true → i.wf = true)

section
variable {n : Nat} {f : FmtA}

theorem decodeA01_spells (h : decodeA01 t n f = some i) : Spells t (encA 0x01 (BitVec.ofNat 6 n) f) 0 i := by
  unfold decodeA01 at h
  split at h <;> cases h <;> exact ⟨rfl, rfl, id⟩

theorem decodeA08_spells (h : decodeA08 t n f = some i) : Spells t (encA 0x08 (BitVec.ofNat 6 n) f) 0 i := by
  unfold decodeA08 at h
  split at h <;> cases h <;> exact ⟨rfl, rfl, id⟩

theorem decodeA0B_spells (h : decodeA0B t n f = some i) : Spells t (encA 0x0B (BitVec.ofNat 6 n) f) 0 i := by
  unfold decodeA0B at h
  split at h <;> cases h <;> exact ⟨rfl, rfl, id⟩

theorem decodeA22_spells (h : decodeA22 t n f = some i) : Spells t (encA 0x22 (BitVec.ofNat 6 n) f) 0 i := by
  unfold decodeA22 at h
  split at h <;> cases h <;> exact ⟨rfl, rfl, id⟩

theorem decodeA24_spells (h : decodeA24 t n f = some i) : Spells t (encA 0x24 (BitVec.ofNat 6 n) f) 0 i := by
  unfold decodeA24 at h
  split at h <;> cases h <;> exact ⟨rfl, rfl, id⟩

end

/-- A word of format A that spells what its fields do. -/
theorem spells_of_fields {m : Nat} (hm : major w = m) (h : Spells t (encA (BitVec.ofNat 6 m) (func w) (wordA w)) 0 i) : Spells t w 0 i :=
  encA_of_major hm ▸ h

theorem spells_of_func {m : Nat} (hm : major w = m) (h : Spells t (encA (BitVec.ofNat 6 m) (BitVec.ofNat 6 (func w).toNat) (wordA w)) 0 i) :
    Spells t w 0 i :=
  spells_of_fields hm (by rwa [BitVec.ofNat_toNat, BitVec.setWidth_eq] at h)

/-- A word of format A whose func must meet a condition. -/
theorem spells_of_guard {m : Nat} {p : Prop} [Decidable p] {c : Instr} (hm : major w = m)
    (h : (if p then some c else none) = some i) (hc : p → Spells t (encA (BitVec.ofNat 6 m) (func w) (wordA w)) 0 c) : Spells t w 0 i := by
  obtain ⟨hp, ⟨⟩⟩ := Option.ite_none_right_eq_some.mp h
  exact spells_of_fields hm (hc hp)

/-- A word of another format: what its fields spell, it spells. -/
theorem spells_of_word {v : W32} (hv : v = w) (h : Spells t v x i) : Spells t w x i := hv ▸ h

/-- The instruction that a word spells encodes to that word, and to the second word of an extended one. -/
theorem decodeThread_spells (h : decodeThread t w x = some i) : Spells t w (if isExtended (major w) then x else 0) i := by
  unfold decodeThread at h
  dsimp only at h
  split at h
  -- Format A with a table of funcs.
  case h_1 hm => rw [hm]; exact spells_of_func hm (decodeA01_spells h)
  case h_8 hm => rw [hm]; exact spells_of_func hm (decodeA08_spells h)
  case h_11 hm => rw [hm]; exact spells_of_func hm (decodeA0B_spells h)
  case h_27 hm => rw [hm]; exact spells_of_func hm (decodeA22_spells h)
  case h_29 hm => rw [hm]; exact spells_of_func hm (decodeA24_spells h)
  -- cmp and gnorm: the func is an operand.
  case h_9 hm => rw [hm]; exact spells_of_guard hm h (fun known => ⟨rfl, rfl, fun ht => Bool.and_eq_true_iff.mpr ⟨ht, known⟩⟩)
  case h_31 hm => rw [hm]; exact spells_of_guard hm h (fun low => ⟨rfl, rfl, fun ht => Bool.and_eq_true_iff.mpr ⟨ht, decide_eq_true low⟩⟩)
  -- sel, fence, bar, jr, end and nop: func 0 alone (log entry 106).
  case h_12 hm | h_35 hm | h_38 hm | h_42 hm | h_43 hm | h_44 hm =>
    rw [hm]
    exact spells_of_guard hm h (fun zero => by rw [zero]; exact ⟨rfl, rfl, id⟩)
  -- rdsr and wrsr share a major opcode.
  case h_45 hm =>
    rw [hm]
    split_ifs at h with low wrsr
    · cases h
      exact spells_of_fields hm ⟨rfl, rfl, fun ht => Bool.and_eq_true_iff.mpr ⟨ht, decide_eq_true low⟩⟩
    · cases h
      exact spells_of_fields hm (by rw [wrsr]; exact ⟨rfl, rfl, id⟩)
  -- Formats I, M and E: the major opcode alone.
  case h_2 hm | h_3 hm | h_4 hm | h_5 hm | h_6 hm | h_10 hm | h_39 hm | h_40 hm =>
    cases h
    rw [hm]
    exact spells_of_word (encI_of_major hm) ⟨rfl, rfl, id⟩
  case h_13 hm | h_14 hm | h_15 hm | h_16 hm | h_17 hm | h_18 hm | h_19 hm | h_20 hm =>
    cases h
    rw [hm]
    exact spells_of_word (encM_of_major hm) ⟨rfl, rfl, id⟩
  case h_7 hm | h_21 hm | h_22 hm | h_23 hm | h_24 hm | h_25 hm | h_26 hm | h_28 hm | h_30 hm | h_32 hm | h_33 hm | h_34 hm | h_36 hm | h_37 hm | h_41 hm =>
    cases h
    rw [hm]
    exact spells_of_word (encE_of_major hm x) ⟨rfl, rfl, id⟩
  case h_46 => cases h

/-- A well-formed instruction is the one that its words spell: only those that a func or a special register selects need to be well formed. -/
theorem decodeThread_encodeThread (hwf : i.wf = true) (h : encodeThread i = some (w, x)) : decodeThread (threadOf i) w x = some i := by
  unfold encodeThread at h
  split at h <;> cases h
  -- cmp, gnorm and rdsr carry an operand in func.
  case h_35 t cond f =>
    have known : knownCond cond.toNat = true := (Bool.and_eq_true_iff.mp hwf).2
    simp [decodeThread, threadOf, known]
  case h_77 t fn f =>
    have low : fn.toNat < 2 := of_decide_eq_true (Bool.and_eq_true_iff.mp hwf).2
    simp [decodeThread, threadOf, low]
  case h_91 t sr f =>
    have low : sr.toNat < 7 := of_decide_eq_true (Bool.and_eq_true_iff.mp hwf).2
    simp [decodeThread, threadOf, low]
  all_goals simp [decodeThread, threadOf, decodeA01, decodeA08, decodeA0B, decodeA22, decodeA24]

/-- Only an extended instruction has a second word. -/
theorem encodeThread_second (h : encodeThread i = some (w, x)) : x = 0 ∨ isExtended (major w) = true := by
  unfold encodeThread at h
  split at h <;> cases h <;> simp [isExtended]

end Sys2Proof.Machine

open Sys2Proof Sys2Proof.Machine

/-- Settles O59, from the two directions: what a decoded word encodes to, and what an encoded instruction decodes to. -/
theorem threadWordsDecodeToWhatTheyEncode : Obligations.ThreadWordsDecodeToWhatTheyEncode := by
  constructor
  · intro i w x hwf encoded
    exact ⟨decodeThread_encodeThread hwf encoded, fun short => (encodeThread_second encoded).resolve_right (by simp [short])⟩
  · intro t w x i decoded
    obtain ⟨encoded, thread, well_formed⟩ := decodeThread_spells decoded
    exact ⟨encoded, thread, fun ht => well_formed (decide_eq_true ht)⟩
end

section
/-! PROOFS. The scalar integer and predicate instructions: each operand form run once for every operation (R81, R96, Tables 03-4 and 03-5). -/

namespace Sys2Proof.Machine

variable {s : State} {t : Nat} {th : Thread}

/-! ### Operand forms -/

theorem scalarAB_runs {f : FmtA} (h : s.canRun t th [.s f.a.toNat, .s f.b.toNat, .s f.d.toNat]) (hm : f.md = 0) (op : W32 → W32 → W32) :
    scalarAB t f op s = s.wrote t th (Eff.sc f.d.toNat (op (th.sr f.a.toNat) (th.sr f.b.toNat))) 4 :=
  regInstr_ok h (by simp [hm]) 4 _ rfl

theorem scalarImm_runs {f : FmtI} (h : s.canRun t th [.s f.a.toNat, .s f.d.toNat]) (hb : f.b = 0) (op : W32 → BitVec 14 → W32) :
    scalarImm t f op s = s.wrote t th (Eff.sc f.d.toNat (op (th.sr f.a.toNat) f.imm)) 4 :=
  regInstr_ok h (by simp [hb]) 4 _ rfl

theorem execShi_runs {f : FmtI} (h : s.canRun t th [.s f.a.toNat, .s f.d.toNat]) (hb : f.b = 0) (hreserved : fld f.imm.toNat 11 5 = 0)
    {k : Nat} (hkind : fld f.imm.toNat 13 12 = k) (hk : k ≠ 3) :
    execShi t f s = .next (s.wrote t th (Eff.sc f.d.toNat (shiftOp k (fld f.imm.toNat 4 0) (th.sr f.a.toNat))) 4) := by
  subst hkind
  exact congrArg _ (regInstr_ok h (by simp [hb, hreserved, beq_false_of_ne hk]) 4 _ rfl)

theorem execMovi_runs {f : FmtE} (h : s.canRun t th [.s f.d.toNat]) (ha : f.a = 0) (hb : f.b = 0) (hi : f.imm = 0) :
    execMovi t f s = .next (s.wrote t th (Eff.sc f.d.toNat f.ext) 8) :=
  congrArg _ (regInstr_ok h (by simp [ha, hb, hi]) 8 _ rfl)

/-! ### Predicates -/

/-- A field that names a predicate or vector register passes (R82). -/
theorem badV_low {x : BitVec 4} (h : x.toNat < 4) : badV x = false := decide_eq_false (by omega)

/-- Whether a func is a condition does not depend on what is compared. -/
theorem cmpCond_isNone {c : Nat} {x y : W32} {r : Bool} (h : cmpCond c x y = some r) (x' y' : W32) : (cmpCond c x' y').isNone = false := by
  unfold cmpCond at h ⊢
  split at h
  case h_11 => cases h
  all_goals rfl

theorem execCmp_runs {c : BitVec 6} {f : FmtA} {r : Bool} (h : s.canRun t th [.s f.a.toNat, .s f.b.toNat, .p f.d.toNat]) (hd : f.d.toNat < 4)
    (hm : f.md = 0) (hr : cmpCond c.toNat (th.sr f.a.toNat) (th.sr f.b.toNat) = some r) :
    execCmp t c f s = .next (s.wrote t th (Eff.pd th f.d.toNat r) 4) := by
  have encoded : firstCode [((cmpCond c.toNat 0 0).isNone, 0x10), (badV f.d, 0x11), (nz f.md, 0x12)] = none := by
    simp [cmpCond_isNone hr, badV_low hd, hm]
  have run := regInstr_ok h encoded 4 (fun x => Eff.pd x f.d.toNat ((cmpCond c.toNat (x.sr f.a.toNat) (x.sr f.b.toNat)).getD false)) rfl
  rw [hr] at run
  exact congrArg _ run

theorem execCmpi_runs {f : FmtI} {r : Bool} (h : s.canRun t th [.s f.a.toNat, .p f.d.toNat]) (hd : f.d.toNat < 4) (hb : f.b.toNat < 6)
    (hr : cmpCond f.b.toNat (th.sr f.a.toNat) (f.imm.signExtend 32) = some r) :
    execCmpi t f s = .next (s.wrote t th (Eff.pd th f.d.toNat r) 4) := by
  have encoded : firstCode [(decide (6 ≤ f.b.toNat), 0x10), (badV f.d, 0x11)] = none := by
    simp [Nat.not_le.mpr hb, badV_low hd]
  have run := regInstr_ok h encoded 4 (fun x => Eff.pd x f.d.toNat ((cmpCond f.b.toNat (x.sr f.a.toNat) (f.imm.signExtend 32)).getD false)) rfl
  rw [hr] at run
  exact congrArg _ run

theorem predAB_runs {f : FmtA} (h : s.canRun t th [.p f.a.toNat, .p f.b.toNat, .p f.d.toNat]) (hd : f.d.toNat < 4) (ha : f.a.toNat < 4)
    (hb : f.b.toNat < 4) (hm : f.md = 0) (op : Bool → Bool → Bool) :
    predAB t f op s = s.wrote t th (Eff.pd th f.d.toNat (op (th.pred f.a.toNat) (th.pred f.b.toNat))) 4 :=
  regInstr_ok h (by simp [badV_low hd, badV_low ha, badV_low hb, hm]) 4 _ rfl

/-- Fewer registers named leave a thread as able to run. -/
theorem State.canRun_mono {u v : Uses} (h : s.canRun t th u) (hsub : v ⊆ u) : s.canRun t th v := by
  obtain ⟨issues, resident, free⟩ := h
  exact ⟨issues, resident, List.all_eq_true.mpr (fun r hr => List.all_eq_true.mp free r (hsub hr))⟩

theorem predA_runs {f : FmtA} {ua : Bool} (h : s.canRun t th [.p f.a.toNat, .p f.b.toNat, .p f.d.toNat]) (hd : f.d.toNat < 4) (ha : f.a.toNat < 4)
    (hunused : ua = false → f.a = 0) (hb : f.b = 0) (hm : f.md = 0) (op : Bool → Bool) :
    predA t f ua op s = s.wrote t th (Eff.pd th f.d.toNat (op (th.pred f.a.toNat))) 4 := by
  cases ua
  case false => exact regInstr_ok (State.canRun_mono h (by simp)) (by simp [badV_low hd, hunused, hb, hm]) 4 _ rfl
  case true => exact regInstr_ok (State.canRun_mono h (by simp)) (by simp [badV_low hd, badV_low ha, hb, hm]) 4 _ rfl

theorem execSel_runs {f : FmtA} (h : s.canRun t th [.s f.a.toNat, .s f.b.toNat, .s f.d.toNat, .p (fld f.md.toNat 1 0)])
    (hm : fld f.md.toNat 7 3 = 0) :
    execSel t f s = .next (s.wrote t th (Eff.sc f.d.toNat
      (if th.pred (fld f.md.toNat 1 0) != f.md.toNat.testBit 2 then th.sr f.a.toNat else th.sr f.b.toNat)) 4) :=
  congrArg _ (regInstr_ok h (by simp [hm]) 4 _ rfl)

end Sys2Proof.Machine

open Sys2Proof Sys2Proof.Machine

/-- Settles O3, from the run of each operand form. -/
theorem scalarIntegerInstructions : Obligations.ScalarIntegerInstructions := by
  refine ⟨?_, ?_, ?_⟩
  · intro s t th f h hm a b d
    have run (op : W32 → W32 → W32) : .next (scalarAB t f op s) = d (op a b) := congrArg _ (scalarAB_runs h hm op)
    exact ⟨run _, run _, run _, run _, run _, run _, run _, run _, run _, run _, run _, run _, run _, run _, run _⟩
  · intro s t th f h hb a d
    have run (op : W32 → BitVec 14 → W32) : .next (scalarImm t f op s) = d (op a f.imm) := congrArg _ (scalarImm_runs h hb op)
    exact ⟨run _, run _, run _, run _, fun hr hk => execShi_runs h hb hr hk (by decide), fun hr hk => execShi_runs h hb hr hk (by decide),
      fun hr hk => execShi_runs h hb hr hk (by decide)⟩
  · intro s t th f h ha hb hi
    exact execMovi_runs h ha hb hi

/-- Settles O4, from the runs of comparisons, of predicate logic and of sel. -/
theorem predicateInstructions : Obligations.PredicateInstructions := by
  refine ⟨?_, ?_, ?_, ?_⟩
  · intro s t th c f r h hd hm hr
    exact execCmp_runs h hd hm hr
  · intro s t th f r h hd hb hr
    exact execCmpi_runs h hd hb hr
  · intro s t th f h hd ha hb hm a b d
    have run (op : Bool → Bool → Bool) : .next (predAB t f op s) = d (op a b) := congrArg _ (predAB_runs h hd ha hb hm op)
    have run1 (ua : Bool) (hunused : ua = false → f.a = 0) (hb0 : f.b = 0) (op : Bool → Bool) : .next (predA t f ua op s) = d (op a) :=
      congrArg _ (predA_runs h hd ha hunused hb0 hm op)
    exact ⟨run _, run _, run _, run _, fun hb0 => run1 true nofun hb0 _, fun ha0 hb0 => ⟨run1 false (fun _ => ha0) hb0 _, run1 false (fun _ => ha0) hb0 _⟩⟩
  · intro s t th f h hm
    exact execSel_runs h hm
end

section
/-! PROOFS. Encoding faults: the lowest code that applies, and the fault that an instruction of it takes (R82, R83, R101, R102). -/

namespace Sys2Proof.Machine

variable {s : State} {t c : Nat}

/-! ### The code of a check that finds a fault -/

@[simp] theorem firstCode_found (c : Nat) (l : List (Bool × Nat)) : firstCode ((true, c) :: l) = some c := by
  simp [firstCode]

/-- A reserved field that is not zero is found (R83). -/
theorem nz_of_ne {n : Nat} {x : BitVec n} (h : x ≠ 0) : nz x = true := by
  simpa [nz, ← BitVec.toNat_inj] using h

/-- A field above 3 names no predicate or vector register (R82). -/
theorem badV_high {x : BitVec 4} (h : 4 ≤ x.toNat) : badV x = true := decide_eq_true h

/-- An odd field names no pair (R75). -/
theorem badP_odd {x : BitVec 4} (h : x.toNat % 2 = 1) : badP x = true := by simp [badP, h]

/-! ### The fault of an instruction that a check refuses -/

theorem State.canIssue_resident (h : s.canIssue t = true) : ∃ th, s.threads.get? t = some th := by
  unfold State.canIssue at h
  split at h
  · cases h
  · exact ⟨_, by assumption⟩

/-- The code of a check on fields is not that of an address out of range. -/
theorem issue_refused {code : Option Nat} (h : s.canIssue t = true) (hc : code = some c) (hrange : c ≠ 0x14) (u : Uses) (run : Thread → State → State) :
    issue t code u run s = s.encFault t c := by
  obtain ⟨th, resident⟩ := State.canIssue_resident h
  exact hc ▸ issue_code h resident c hrange u run

theorem regInstr_refused {code : Option Nat} (h : s.canIssue t = true) (hc : code = some c) (hrange : c ≠ 0x14) (n : Nat) (u : Uses) (e : Thread → Eff) :
    regInstr t n code u e s = s.encFault t c :=
  issue_refused h hc hrange u _

section
variable {f : FmtA} (h : s.canIssue t = true)
include h

theorem scalarAB_refused (hm : f.md ≠ 0) (op : W32 → W32 → W32) : scalarAB t f op s = s.encFault t 0x12 :=
  regInstr_refused h (by simp [nz_of_ne hm]) (by decide) _ _ _

theorem predAB_badRegister (hf : 4 ≤ f.d.toNat ∨ 4 ≤ f.a.toNat ∨ 4 ≤ f.b.toNat) (op : Bool → Bool → Bool) :
    predAB t f op s = s.encFault t 0x11 := by
  have bad : (badV f.d || badV f.a || badV f.b) = true := by
    simpa [badV, or_assoc] using hf
  exact regInstr_refused h (by simp [bad]) (by decide) _ _ _

theorem predAB_reserved (hd : f.d.toNat < 4) (ha : f.a.toNat < 4) (hb : f.b.toNat < 4) (hm : f.md ≠ 0) (op : Bool → Bool → Bool) :
    predAB t f op s = s.encFault t 0x12 :=
  regInstr_refused h (by simp [badV_low hd, badV_low ha, badV_low hb, nz_of_ne hm]) (by decide) _ _ _

end

section
variable {f : FmtI} (h : s.canIssue t = true)
include h

theorem scalarImm_refused (hb : f.b ≠ 0) (op : W32 → BitVec 14 → W32) : scalarImm t f op s = s.encFault t 0x12 :=
  regInstr_refused h (by simp [nz_of_ne hb]) (by decide) _ _ _

theorem execShi_illegal (hk : fld f.imm.toNat 13 12 = 3) : execShi t f s = .next (s.encFault t 0x10) :=
  congrArg _ (regInstr_refused h (by simp [hk]) (by decide) _ _ _)

theorem execShi_reserved (hk : fld f.imm.toNat 13 12 ≠ 3) (hr : f.b ≠ 0 ∨ fld f.imm.toNat 11 5 ≠ 0) : execShi t f s = .next (s.encFault t 0x12) := by
  have reserved : (nz f.b || fld f.imm.toNat 11 5 != 0) = true := by
    rcases hr with hb | hi
    · simp [nz_of_ne hb]
    · simp [hi]
  exact congrArg _ (regInstr_refused h (by simp [beq_false_of_ne hk, reserved]) (by decide) _ _ _)

theorem execCmpi_illegal (hb : 6 ≤ f.b.toNat) : execCmpi t f s = .next (s.encFault t 0x10) :=
  congrArg _ (regInstr_refused h (by simp [hb]) (by decide) _ _ _)

theorem execCmpi_badRegister (hb : f.b.toNat < 6) (hd : 4 ≤ f.d.toNat) : execCmpi t f s = .next (s.encFault t 0x11) :=
  congrArg _ (regInstr_refused h (by simp [Nat.not_le.mpr hb, badV_high hd]) (by decide) _ _ _)

end

theorem execLd_illegal {f : FmtM} (h : s.canIssue t = true) (hk : 7 ≤ f.kind.toNat) : execLd t f s = .next (s.encFault t 0x10) :=
  congrArg _ (issue_refused h (by simp [hk]) (by decide) _ _)

theorem execLd_badRegister {f : FmtM} (h : s.canIssue t = true) (hk : f.kind.toNat < 7)
    (hodd : f.a.toNat % 2 = 1 ∨ (f.kind.toNat = 5 ∧ f.d.toNat % 2 = 1)) : execLd t f s = .next (s.encFault t 0x11) := by
  have bad : (badP f.a || (f.kind.toNat == 5 && badP f.d)) = true := by
    rcases hodd with ha | ⟨hpair, hd⟩
    · simp [badP_odd ha]
    · simp [badP_odd hd, hpair]
  exact congrArg _ (issue_refused h (by simp [Nat.not_le.mpr hk, bad]) (by decide) _ _)

section
variable {f : FmtE} (h : s.canIssue t = true) (hfree : s.macFree t = true) (hform : macForm f = 3)
include h hfree hform

theorem execVmac_illegal : execVmac t f s = .next (s.encFault t 0x10) :=
  congrArg _ ((if_neg (by simp [hfree])).trans (issue_refused h (by simp [hform]) (by decide) _ _))

theorem execVmacc_illegal : execVmacc t f s = .next (s.encFault t 0x10) :=
  congrArg _ ((if_neg (by simp [hfree])).trans (issue_refused h (by simp [hform]) (by decide) _ _))

end

/-! ### A fetched word that spells nothing -/

theorem State.runNext_spells_nothing {s1 : State} {th : Thread} {w : W32} {bad : Bool} {ppa : Nat} (ht : s.threads.get? t = some th)
    (hheld : s.wordHeld th t th.pc.toNat = false) (hword : s.fetchWord th t th.pc.toNat = (.ok (w, bad, ppa), s1))
    (hshort : isExtended (major w) = false) (hnone : decodeThread t w 0 = none) :
    let s2 := (s1.modThread t (fun y => { y with fetched := some (th.pc.toNat, ppa) })).encFault t 0x10
    s.runNext t = (true, if bad then s2.poisonRead th.spec.isSome t th.launch else s2) := by
  simp [State.runNext, ht, hheld, hword, hshort, show decodeThread t w 0#32 = none from hnone]

theorem State.encFault_threadFault {th : Thread} (ht : s.threads.get? t = some th) (c : Nat) :
    ∃ ppa, s.encFault t c = s.threadFault t c 3 th.pc.toNat ppa := by
  simp only [State.encFault, State.encFaultAt, ht]
  exact ⟨_, rfl⟩

end Sys2Proof.Machine

open Sys2Proof Sys2Proof.Machine

/-- Settles O60, from the first check that finds a fault in each form. -/
theorem encodingFaultsReportTheLowestCode : Obligations.EncodingFaultsReportTheLowestCode := by
  refine ⟨?_, ?_, ?_, ?_, ?_, ?_⟩
  · intro s t f h fault
    refine ⟨fun hm => ?_, ?_⟩
    · have refused (op : W32 → W32 → W32) : .next (scalarAB t f op s) = fault 0x12 := congrArg _ (scalarAB_refused h hm op)
      simp only [List.forall_mem_cons, List.not_mem_nil, false_imp_iff, implies_true, and_true]
      exact ⟨refused _, refused _, refused _, refused _, refused _, refused _, refused _, refused _, refused _, refused _, refused _, refused _,
        refused _, refused _, refused _⟩
    · have refused (op : Bool → Bool → Bool) :
          (4 ≤ f.d.toNat ∨ 4 ≤ f.a.toNat ∨ 4 ≤ f.b.toNat → .next (predAB t f op s) = fault 0x11) ∧
          (f.d.toNat < 4 → f.a.toNat < 4 → f.b.toNat < 4 → f.md ≠ 0 → .next (predAB t f op s) = fault 0x12) :=
        ⟨fun hf => congrArg _ (predAB_badRegister h hf op), fun hd ha hb hm => congrArg _ (predAB_reserved h hd ha hb hm op)⟩
      simp only [List.forall_mem_cons, List.not_mem_nil, false_imp_iff, implies_true, and_true]
      exact ⟨refused _, refused _, refused _, refused _⟩
  · intro s t f h fault
    refine ⟨execShi_illegal h, execShi_reserved h, execCmpi_illegal h, execCmpi_badRegister h, fun hb => ?_⟩
    have refused (op : W32 → BitVec 14 → W32) : .next (scalarImm t f op s) = fault 0x12 := congrArg _ (scalarImm_refused h hb op)
    simp only [List.forall_mem_cons, List.not_mem_nil, false_imp_iff, implies_true, and_true]
    exact ⟨refused _, refused _, refused _, refused _⟩
  · intro s t f h fault
    exact ⟨execLd_illegal h, execLd_badRegister h⟩
  · intro s t f h hfree hform
    exact ⟨execVmac_illegal h hfree hform, execVmacc_illegal h hfree hform⟩
  · intro s s1 t th w bad ppa ht hheld hword hshort hnone
    exact State.runNext_spells_nothing ht hheld hword hshort hnone
  · intro s t c th ht
    exact State.encFault_threadFault ht c
end

section
/-! PROOFS. Accumulator instructions, vector moves and gate lists (R78, R98, R104, R116, R117, R123, R607, Tables 03-11 to 03-13). -/

namespace Sys2Proof.Machine

variable {s : State} {t : Nat} {th : Thread}

/-! ### Accumulators -/

/-- An element-by-element instruction of a thread with settled accumulators writes all 16. -/
theorem accMap_runs {u : Uses} {code : Option Nat} (h : s.canRun t th u) (hsettled : s.settledAcc t th) (hc : code = none) (g : Thread → Nat → W32) :
    accMap t code u g s = s.wrote t th (Eff.accs ((upTo 16).map (g th))) 4 :=
  accInstr_ok h hsettled hc 4 _ rfl

section
variable {f : FmtA} (h : s.canRun t th [.v f.a.toNat, .s f.a.toNat, .s f.d.toNat, .v f.d.toNat]) (hsettled : s.settledAcc t th)
  (hb : f.b = 0) (hm : f.md = 0)
include h hsettled hb hm

/-- One that reads accumulators alone. -/
theorem accMap_own (hd : f.d = 0) (ha : f.a = 0) (g : Thread → Nat → W32) :
    accMap t (firstCode [(resA f false false, 0x12)]) [] g s = s.wrote t th (Eff.accs ((upTo 16).map (g th))) 4 :=
  accMap_runs (State.canRun_mono h (by simp)) hsettled (by simp [resA, hd, ha, hb, hm]) g

/-- One that reads a vector too. -/
theorem accMap_vector (hd : f.d = 0) (ha : f.a.toNat < 4) (g : Thread → Nat → W32) :
    accMap t (firstCode [(badV f.a, 0x11), (resA f false true, 0x12)]) [.v f.a.toNat] g s = s.wrote t th (Eff.accs ((upTo 16).map (g th))) 4 :=
  accMap_runs (State.canRun_mono h (by simp)) hsettled (by simp [badV_low ha, resA, hd, hb, hm]) g

theorem execAscl_runs (hd : f.d = 0) :
    execAscl t f s = .next (s.wrote t th (Eff.accs ((upTo 16).map (fun j => f32Mul (th.acc j) (th.sr f.a.toNat)))) 4) :=
  congrArg _ (accMap_runs (State.canRun_mono h (by simp)) hsettled (by simp [resA, hd, hb, hm]) _)

theorem execAmovt_runs (ha : f.a = 0) (hd : f.d.toNat < 4) :
    execAmovt t f s = .next (s.wrote t th (Eff.vec f.d.toNat (VReg.write .fp32 (vdataOfWords th.acc))) 4) :=
  congrArg _ (accInstr_ok (State.canRun_mono h (by simp)) hsettled (by simp [badV_low hd, resA, ha, hb, hm]) 4 _ rfl)

/-- A reduction writes scalar d. -/
theorem accInstr_reduces (ha : f.a = 0) (g : Thread → W32) :
    accInstr t 4 (firstCode [(resA f true false, 0x12)]) [.s f.d.toNat] (fun x => Eff.sc f.d.toNat (g x)) s =
      s.wrote t th (Eff.sc f.d.toNat (g th)) 4 :=
  accInstr_ok (State.canRun_mono h (by simp)) hsettled (by simp [resA, ha, hb, hm]) 4 _ rfl

end

/-- The elements that acvt leaves in v(d), and the generator after its draws. -/
def acvtEff (f : FmtE) (fmt : ElemFmt) (th : Thread) : Eff :=
  let sto := f.ext.toNat.testBit 7 && !fmt.isInt
  let draws := genRun th.gen 16
  { Eff.vec f.d.toNat (VReg.write fmt ((upTo 16).foldl (fun d i => putElem fmt d (16 * fld f.ext.toNat 6 4 + i)
      (cvtElem fmt (f.ext.toNat.testBit 8) (fld f.ext.toNat 13 9) (if sto then (draws[i]?).map genDraw else none) (th.acc i)))
      (th.vr f.d.toNat).data)) with g := if sto then draws.getLast? else none }

theorem execAcvt_runs {f : FmtE} {fmt : ElemFmt} (h : s.canRun t th [.v f.d.toNat]) (hsettled : s.settledAcc t th) (hd : f.d.toNat < 4)
    (ha : f.a = 0) (hb : f.b = 0) (hi : f.imm = 0) (hreserved : fld f.ext.toNat 31 14 = 0) (hfmt : ElemFmt.ofCode? (fld f.ext.toNat 3 0) = some fmt)
    (hnone : fmt ≠ .none) (hfp32 : fmt ≠ .fp32) (hq : 16 * fld f.ext.toNat 6 4 < fmt.count) :
    execAcvt t f s = .next (s.wrote t th (acvtEff f fmt th) 8) := by
  have encoded : firstCode [(badV f.d, 0x11), (nz f.a || nz f.b || nz f.imm || fld f.ext.toNat 31 14 != 0, 0x12),
      (fmt == .none || fmt == .fp32 || cvtBadQ fmt (fld f.ext.toNat 6 4), 0x13)] = none := by
    simp [badV_low hd, ha, hb, hi, hreserved, beq_false_of_ne hnone, beq_false_of_ne hfp32, cvtBadQ, Nat.not_le.mpr hq]
  simp only [execAcvt, hfmt, Option.getD_some]
  exact congrArg _ (accInstr_ok h hsettled encoded 8 (acvtEff f fmt) rfl)

/-! ### Vector moves -/

/-- The word that vext and vins name: below 16, the modifier is its low four bits. -/
theorem fld_word {x : BitVec 8} (hx : x.toNat < 16) : fld x.toNat 3 0 = x.toNat ∧ fld x.toNat 7 4 = 0 := by
  simp [fld, Nat.shiftRight_eq_div_pow]
  omega

section
variable {f : FmtA} (h : s.canRun t th [.v f.a.toNat, .s f.a.toNat, .v f.d.toNat, .s f.d.toNat]) (hb : f.b = 0)
include h hb

theorem execVmov_runs (hm : f.md = 0) (hd : f.d.toNat < 4) (ha : f.a.toNat < 4) :
    execVmov t f s = .next (s.wrote t th (Eff.vec f.d.toNat (th.vr f.a.toNat)) 4) :=
  congrArg _ (regInstr_ok (State.canRun_mono h (by simp)) (by simp [badV_low hd, badV_low ha, resA, hb, hm]) 4 _ rfl)

theorem execVbc_runs (hm : f.md = 0) (hd : f.d.toNat < 4) :
    execVbc t f s = .next (s.wrote t th (Eff.vec f.d.toNat (VReg.write .none (vdataOfWords (fun _ => th.sr f.a.toNat)))) 4) :=
  congrArg _ (regInstr_ok (State.canRun_mono h (by simp)) (by simp [badV_low hd, resA, hb, hm]) 4 _ rfl)

theorem execVext_runs (hm : f.md.toNat < 16) (ha : f.a.toNat < 4) :
    execVext t f s = .next (s.wrote t th (Eff.sc f.d.toNat (vword (th.vr f.a.toNat).data f.md.toNat)) 4) := by
  obtain ⟨word, reserved⟩ := fld_word hm
  rw [execVext, word]
  exact congrArg _ (regInstr_ok (State.canRun_mono h (by simp)) (by simp [badV_low ha, hb, reserved]) 4 _ rfl)

theorem execVins_runs (hm : f.md.toNat < 16) (hd : f.d.toNat < 4) :
    execVins t f s = .next (s.wrote t th (Eff.vec f.d.toNat (VReg.write (th.vr f.d.toNat).tag
      (putVword (th.vr f.d.toNat).data f.md.toNat (th.sr f.a.toNat)))) 4) := by
  obtain ⟨word, reserved⟩ := fld_word hm
  rw [execVins, word]
  exact congrArg _ (regInstr_ok (State.canRun_mono h (by simp)) (by simp [badV_low hd, hb, reserved]) 4 _ rfl)

theorem execVzero_runs (hm : f.md = 0) (ha : f.a = 0) (hd : f.d.toNat < 4) :
    execVzero t f s = .next (s.wrote t th (Eff.vec f.d.toNat VReg.zero) 4) :=
  congrArg _ (regInstr_ok (State.canRun_mono h (by simp)) (by simp [badV_low hd, resA, ha, hb, hm]) 4 _ rfl)

/-! ### Gate lists -/

/-- What gnorm writes: the scores of the valid entries, and nothing where there is none (R607). -/
def gnormEff (fn : BitVec 6) (d : Nat) (th : Thread) : Eff :=
  let es := gateList (th.vr d).data
  let sc := (es.filter (fun e => e.valid)).map (fun e => e.score)
  if sc = [] then Eff.none else Eff.vec d (VReg.write .none (putGate (th.vr d).data (putScores es (gnormScores (fn == 1) sc))))

theorem execGnorm_runs {fn : BitVec 6} (hfn : fn.toNat < 2) (hm : f.md = 0) (ha : f.a = 0) (hd : f.d.toNat < 4) :
    execGnorm t fn f s = .next (s.wrote t th (gnormEff fn f.d.toNat th) 4) := by
  have encoded : firstCode [(decide (2 ≤ fn.toNat), 0x10), (badV f.d, 0x11), (resA f true false, 0x12)] = none := by
    simp [Nat.not_le.mpr hfn, badV_low hd, resA, ha, hb, hm]
  have stays : (gnormEff fn f.d.toNat th).pc = none := by
    simp only [gnormEff]
    split_ifs <;> rfl
  simp only [execGnorm, List.isEmpty_iff]
  exact congrArg _ (regInstr_ok (State.canRun_mono h (by simp)) encoded 4 (gnormEff fn f.d.toNat) stays)

end

/-- gtopk merges the accumulators into the list, and takes eight free values for its invalid entries. -/
theorem execGtopk_runs {f : FmtE} (h : s.canRun t th [.s f.a.toNat, .v f.d.toNat]) (hsettled : s.settledAcc t th) (hd : f.d.toNat < 4)
    (hb : f.b = 0) (hi : f.imm = 0) (hreserved : fld f.ext.toNat 31 10 = 0) (hk1 : 1 ≤ fld f.ext.toNat 3 0) (hk8 : fld f.ext.toNat 3 0 ≤ 8)
    (hn1 : 1 ≤ fld f.ext.toNat 8 4) (hn16 : fld f.ext.toNat 8 4 ≤ 16) :
    execGtopk t f s = .next (({ s with free := s.free + 8 }).wrote t th (Eff.vec f.d.toNat (VReg.write .none (gateData
      (topk (if f.ext.toNat.testBit 9 then [] else gateList (th.vr f.d.toNat).data) (th.sr f.a.toNat).toNat (fld f.ext.toNat 3 0)
        (fld f.ext.toNat 8 4) th.acc s.free)))) 8) := by
  have encoded : firstCode [(badV f.d, 0x11), (nz f.b || nz f.imm || fld f.ext.toNat 31 10 != 0, 0x12),
      (decide (8 < fld f.ext.toNat 3 0) || decide (16 < fld f.ext.toNat 8 4), 0x13)] = none := by
    simp [badV_low hd, hb, hi, hreserved, Nat.not_lt.mpr hk8, Nat.not_lt.mpr hn16]
  have merges : ¬(fld f.ext.toNat 3 0 = 0 ∨ fld f.ext.toNat 8 4 = 0) := by omega
  have counted : ({ s with free := s.free + 8 } : State).canRun t th [.s f.a.toNat, .v f.d.toNat] := h
  simp only [execGtopk, if_neg merges, if_pos h.1]
  exact congrArg _ (accInstr_ok counted hsettled encoded 8 _ rfl)

end Sys2Proof.Machine

open Sys2Proof Sys2Proof.Machine

/-- Settles O6, from the run of each accumulator form on a thread with settled accumulators. -/
theorem accumulatorInstructions : Obligations.AccumulatorInstructions := by
  constructor
  · intro s t th f h hsettled hb hm v w
    have own (hd : f.d = 0) (ha : f.a = 0) (g : Thread → Nat → W32) :
        .next (accMap t (firstCode [(resA f false false, 0x12)]) [] g s) = w (g th) := congrArg _ (accMap_own h hsettled hb hm hd ha g)
    have vector (hd : f.d = 0) (ha : f.a.toNat < 4) (g : Thread → Nat → W32) :
        .next (accMap t (firstCode [(badV f.a, 0x11), (resA f false true, 0x12)]) [.v f.a.toNat] g s) = w (g th) :=
      congrArg _ (accMap_vector h hsettled hb hm hd ha g)
    refine ⟨fun hd ha => ⟨own hd ha _, own hd ha _, own hd ha _⟩, execAscl_runs h hsettled hb hm,
      fun hd ha => ⟨vector hd ha _, vector hd ha _, vector hd ha _⟩, execAmovt_runs h hsettled hb hm, fun ha => ?_⟩
    have reduces (g : Thread → W32) := congrArg (Host.Outcome.next (φ := Fault) (ρ := Refusal)) (accInstr_reduces h hsettled hb hm ha g)
    exact ⟨reduces _, reduces _, reduces _⟩
  · intro s t th f fmt h hsettled hd ha hb hi hreserved hfmt hnone hfp32 hq sto draws data
    exact execAcvt_runs h hsettled hd ha hb hi hreserved hfmt hnone hfp32 hq

/-- Settles O7, from the run of each move and gate list instruction. -/
theorem vectorMovesAndGateLists : Obligations.VectorMovesAndGateLists := by
  constructor
  · intro s t th f h hb d
    exact ⟨execVmov_runs h hb, execVbc_runs h hb, execVext_runs h hb, execVins_runs h hb, execVzero_runs h hb,
      fun fn hfn hm ha hd => execGnorm_runs h hb hfn hm ha hd⟩
  · intro s t th f h hsettled hd hb hi hreserved k n hk1 hk8 hn1 hn16 old
    exact execGtopk_runs h hsettled hd hb hi hreserved hk1 hk8 hn1 hn16
end

section
/-! PROOFS. The MAC instructions: the log of a speculative thread, the products handed on and the occupation of the core's MAC vector
(R90, R97, R98, R113, R141). -/

namespace Sys2Proof.Machine

variable {s : State} {t : Nat} {th : Thread}

/-! ### The products of a MAC instruction handed on -/

/-- Register writes change a thread's registers and the log of its speculation, and nothing else. -/
theorem Thread.write?_some {x : Thread} {e : Eff} (h : th.write? e = some x) : ∃ spec, x = { th.apply e with spec := spec } := by
  unfold Thread.write? at h
  split at h
  · cases h; exact ⟨_, rfl⟩
  · obtain ⟨-, ⟨⟩⟩ := Option.ite_none_right_eq_some.mp h
    exact ⟨_, rfl⟩

theorem Thread.write?_prods {x : Thread} {e : Eff} (h : th.write? e = some x) : x.prods = th.prods := by
  obtain ⟨_, rfl⟩ := Thread.write?_some h
  rfl

/-- A MAC instruction writes its registers, and with them the accumulators that the log of a speculative thread has still to take: they hold
every earlier product where none is pending (Table 05-7). -/
theorem State.macLog_eq (ht : s.threads.get? t = some th) (hlog : th.logsAcc = true → th.prods = []) (e : Eff) :
    s.macLog t e = s.writeRegs t (th.macEff e) := by
  simp only [State.macLog, ht, Thread.macEff]
  cases hspec : th.spec with
  | none => simp [Thread.logsAcc, hspec]
  | some sp =>
    cases has : hasAcc sp.log with
    | true => simp [Thread.logsAcc, hspec, has]
    | false =>
      have logs : th.logsAcc = true := by simp [Thread.logsAcc, hspec, has]
      have drained : s.drain t = s := by simp [State.drain, ht, hlog logs]
      simp [has, logs, drained, State.onThread, ht]

/-- The state after a MAC instruction that writes `e`: its products handed on and the MAC vector occupied, or the wait for the closure. -/
def State.macWrote (s : State) (t : Nat) (th : Thread) (e : Eff) (fmt : ElemFmt) (ps : List Prod) : State :=
  match th.write? (th.macEff e) with
  | some x => (s.setThread t { x with prods := th.prods ++ ps, pc := th.pc + 8#52 }).setCore (coreOf t)
      { s.core (coreOf t) with mac := some (t, macOccupation fmt ps.length) }
  | none => s.setThread t { th with wait := .closure }

theorem State.macWrote_some {x : Thread} {e : Eff} (h : th.write? (th.macEff e) = some x) (s : State) (t : Nat) (fmt : ElemFmt) (ps : List Prod) :
    s.macWrote t th e fmt ps = (s.setThread t { x with prods := th.prods ++ ps, pc := th.pc + 8#52 }).setCore (coreOf t)
      { s.core (coreOf t) with mac := some (t, macOccupation fmt ps.length) } := by
  simp only [State.macWrote, h]

theorem State.macWrote_full {e : Eff} (h : th.write? (th.macEff e) = none) (s : State) (t : Nat) (fmt : ElemFmt) (ps : List Prod) :
    s.macWrote t th e fmt ps = s.setThread t { th with wait := .closure } := by
  simp only [State.macWrote, h]

theorem Thread.macEff_pc (th : Thread) {e : Eff} (h : e.pc = none) : (th.macEff e).pc = none := by
  unfold Thread.macEff
  split <;> exact h

theorem State.macLog_issue (ht : s.threads.get? t = some th) (hwait : th.wait = .none) (hlog : th.logsAcc = true → th.prods = []) {e : Eff}
    (hpc : e.pc = none) (fmt : ElemFmt) (ps : List Prod) :
    (if (s.macLog t e).waits t then s.macLog t e else ((s.macLog t e).macIssue t fmt ps).advance t 8) = s.macWrote t th e fmt ps := by
  rw [State.macLog_eq ht hlog, State.writeRegs_write? ht, State.macWrote]
  cases written : th.write? (th.macEff e) with
  | none => simp [State.waits]
  | some x =>
    have not_waiting : x.wait = .none := (Thread.write?_wait written).trans hwait
    have same_pc : x.pc = th.pc := by rw [Thread.write?_pc written, th.macEff_pc hpc, Option.getD_none]
    simp [State.waits, not_waiting, State.macIssue, State.advance, State.modThread, State.setThread, State.setCore, State.core,
      Thread.write?_prods written, same_pc]

/-! ### vmac and vmacc -/

theorem macBadFmt_permitted {f : FmtE} {fa fb : ElemFmt} (ha : macFmtA f = some fa) (hb : macFmtB f = some fb)
    (hpair : macPairOk fa fb (macScaled f) = true) : macBadFmt f = false := by
  simp [macBadFmt, ha, hb, hpair]

/-- The products of vmac on a thread's registers. -/
def vmacProds (f : FmtE) (fa fb : ElemFmt) (th : Thread) : List Prod :=
  macProds fa fb (macForm f) (macQ f) (macScaled f) (elem fa (th.vr f.a.toNat).data) (elem fb (th.vr f.b.toNat).data)
    (fun i => ((th.vr f.a.toNat).flagsIn fa).getLsbD i) (fun i => ((th.vr f.b.toNat).flagsIn fb).getLsbD i)
    (fun n => fld (th.sr (fld f.ext.toNat 19 16)).toNat (8 * n + 7) (8 * n))
    (fun n => fld (th.sr (fld f.ext.toNat 23 20)).toNat (8 * n + 7) (8 * n))

theorem State.macFree_of_none (h : (s.core (coreOf t)).mac = none) : (!s.macFree t) = false := by
  simp [State.macFree, h]

theorem execVmac_runs {f : FmtE} {fa fb : ElemFmt}
    (h : s.canRun t th [.v f.a.toNat, .v f.b.toNat, .s (fld f.ext.toNat 19 16), .s (fld f.ext.toNat 23 20)])
    (hlog : th.logsAcc = true → th.prods = []) (hmac : (s.core (coreOf t)).mac = none) (hform : macForm f ≠ 3) (ha : f.a.toNat < 4)
    (hb : f.b.toNat < 4) (hd : f.d = 0) (hi : f.imm = 0) (h15 : f.ext.toNat.testBit 15 = false) (hreserved : fld f.ext.toNat 31 24 = 0)
    (hfa : macFmtA f = some fa) (hfb : macFmtB f = some fb) (hpair : macPairOk fa fb (macScaled f) = true)
    (hq : macBadQ (macForm f) (macQ f) = false) :
    execVmac t f s = .next (s.macWrote t th Eff.none fa (vmacProds f fa fb th)) := by
  have encoded : firstCode [(macForm f == 3, 0x10), (badV f.a || badV f.b, 0x11),
      (nz f.d || nz f.imm || f.ext.toNat.testBit 15 || fld f.ext.toNat 31 24 != 0, 0x12),
      (macBadFmt f || macBadQ (macForm f) (macQ f), 0x13)] = none := by
    simp [beq_false_of_ne hform, badV_low ha, badV_low hb, hd, hi, h15, hreserved, macBadFmt_permitted hfa hfb hpair, hq]
  rw [execVmac, State.macFree_of_none hmac, encoded, issue_run h, hfa, hfb]
  exact congrArg _ (State.macLog_issue h.2.1 (State.canIssue_wait h.1 h.2.1) hlog rfl fa (vmacProds f fa fb th))

/-- The registers that vmacc names, the formats and fields that it permits, and an aligned group in the scratchpad. -/
structure VmaccRuns (s : State) (t : Nat) (th : Thread) (f : FmtE) (fa fb : ElemFmt) : Prop where
  runs : s.canRun t th [.s f.a.toNat, .v f.b.toNat, .s f.d.toNat, .s (fld f.ext.toNat 23 20)]
  logged : th.logsAcc = true → th.prods = []
  free : (s.core (coreOf t)).mac = none
  form : macForm f ≠ 3
  notOut : macForm f ≠ 1
  vector : f.b.toNat < 4
  imm : f.imm = 0
  bit15 : f.ext.toNat.testBit 15 = false
  reserved : fld f.ext.toNat 31 24 = 0
  fmtA : macFmtA f = some fa
  fmtB : macFmtB f = some fb
  notBf16 : fa ≠ .bf16
  pair : macPairOk fa fb (macScaled f) = true
  index : macBadQ (macForm f) (macQ f) = false
  aligned : (th.sr f.a.toNat).toNat % 2 ^ 17 % 8 = 0
  inRange : badLocal ((th.sr f.a.toNat).toNat % 2 ^ 17) (csbGroupLen fa (s.spRead t) ((th.sr f.a.toNat).toNat % 2 ^ 17)) = false

/-- The operand that vmacc expands from the value it has read at a local address. -/
def vmaccRow (fa : ElemFmt) (loc v : Nat) := csbExpand fa (fun o n => (v >>> (8 * (o - loc))) % 2 ^ (8 * n)) (csbBlocks fa) loc

/-- The products of vmacc with an operand. -/
def vmaccProds (f : FmtE) (fa fb : ElemFmt) (th : Thread) (x : List Nat × List Nat × Nat) : List Prod :=
  macProds fa fb (macForm f) (macQ f) (macScaled f) (fun i => x.1.getD i 0) (elem fb (th.vr f.b.toNat).data)
    (fun i => fa.isZeroCode (x.1.getD i 0)) (fun i => ((th.vr f.b.toNat).flagsIn fb).getLsbD i) (fun n => x.2.1.getD n 0)
    (fun n => fld (th.sr (fld f.ext.toNat 23 20)).toNat (8 * n + 7) (8 * n))

/-- vmacc asks for its bytes, and goes on once they are there. -/
theorem execVmacc_fetches {f : FmtE} {fa fb : ElemFmt} (h : VmaccRuns s t th f fa fb) :
    execVmacc t f s = .next (match s.padFetch t th (3 + t % 4) ((th.sr f.a.toNat).toNat % 2 ^ 17) 8 (some fa) with
      | (none, u) => u
      | (some v, u) =>
        let x := vmaccRow fa ((th.sr f.a.toNat).toNat % 2 ^ 17) v
        let e := Eff.sc f.d.toNat (BitVec.ofNat 32 (x.2.2 % 2 ^ 17))
        if (u.macLog t e).waits t then u.macLog t e else ((u.macLog t e).macIssue t fa (vmaccProds f fa fb th x)).advance t 8) := by
  have local_address : s.onThread t 0 (fun th => (th.sr f.a.toNat).toNat % 2 ^ 17) = (th.sr f.a.toNat).toNat % 2 ^ 17 := by
    simp [State.onThread, h.runs.2.1]
  have encoded : firstCode [(macForm f == 3, 0x10), (badV f.b, 0x11), (nz f.imm || f.ext.toNat.testBit 15 || fld f.ext.toNat 31 24 != 0, 0x12),
      (macBadFmt f || macForm f == 1 || fa == .bf16 || macBadQ (macForm f) (macQ f), 0x13),
      (badLocal ((th.sr f.a.toNat).toNat % 2 ^ 17) (csbGroupLen fa (s.spRead t) ((th.sr f.a.toNat).toNat % 2 ^ 17)), 0x14)] = none := by
    rw [h.inRange]
    simp [beq_false_of_ne h.form, beq_false_of_ne h.notOut, beq_false_of_ne h.notBf16, badV_low h.vector, h.imm, h.bit15, h.reserved,
      macBadFmt_permitted h.fmtA h.fmtB h.pair, h.index]
  simp only [execVmacc, State.macFree_of_none h.free, local_address, h.fmtA, h.fmtB, Option.getD_some, if_pos h.aligned, encoded]
  rw [if_neg Bool.false_ne_true, issue_run h.runs, if_neg (not_not_intro h.aligned)]
  rfl

/-- With nothing read yet, vmacc enters the request for the first block head of its group (R212, R216). -/
theorem execVmacc_asks {f : FmtE} {fa fb : ElemFmt} (h : VmaccRuns s t th f fa fb) (hnone : s.accs.find? (fun e => s.owns t e.2 && e.2.isFetch) = none)
    (hbusy : s.padBusy t = false) (hacquiring : s.acquiring t = false) :
    execVmacc t f s = .next (s.enterPad t th (3 + t % 4) ((th.sr f.a.toNat).toNat % 2 ^ 17) 8 (.load (.row (some fa))) .none false) := by
  have fetched (rank loc len : Nat) (csb : Option ElemFmt) :
      s.padFetch t th rank loc len csb = (none, s.enterPad t th rank loc len (.load (.row csb)) .none false) := by
    simp only [State.padFetch, hnone, hbusy, hacquiring]
    rfl
  rw [execVmacc_fetches h, fetched]

/-- Once its bytes are there, vmacc takes them and hands on its products. -/
theorem execVmacc_runs {f : FmtE} {fa fb : ElemFmt} {id : Nat} {a : Acc} (h : VmaccRuns s t th f fa fb)
    (hfound : s.accs.find? (fun e => s.owns t e.2 && e.2.isFetch) = some (id, a)) (hdone : a.st = .done) :
    execVmacc t f s = .next (
      let x := vmaccRow fa ((th.sr f.a.toNat).toNat % 2 ^ 17) a.value
      ({ s with accs := s.accs.erase id } : State).macWrote t th (Eff.sc f.d.toNat (BitVec.ofNat 32 (x.2.2 % 2 ^ 17))) fa (vmaccProds f fa fb th x)) := by
  have fetched (rank loc len : Nat) (csb : Option ElemFmt) :
      s.padFetch t th rank loc len csb = (some a.value, { s with accs := s.accs.erase id }) := by
    simp only [State.padFetch, hfound, if_pos hdone]
  rw [execVmacc_fetches h, fetched]
  exact congrArg _ (State.macLog_issue (s := { s with accs := s.accs.erase id }) h.runs.2.1 (State.canIssue_wait h.runs.1 h.runs.2.1) h.logged rfl fa _)

end Sys2Proof.Machine

open Sys2Proof Sys2Proof.Machine

/-- Settles O8, from the one description of what a MAC instruction writes and hands on. -/
theorem macInstructions : Obligations.MacInstructions := by
  refine ⟨?_, ?_, ?_⟩
  · intro s t th f fa fb h hlog hmac hform ha hb hd hi h15 hreserved hfa hfb hpair hq ps
    have ran := execVmac_runs h hlog hmac hform ha hb hd hi h15 hreserved hfa hfb hpair hq
    exact ⟨fun x hx => ran.trans (congrArg _ (State.macWrote_some hx ..)), fun full => ran.trans (congrArg _ (State.macWrote_full full ..))⟩
  · intro s t th f fa fb h hlog hmac hform hout hb hi h15 hreserved hfa hfb hbf16 hpair hq loc haligned hrange fetched
    have runs : VmaccRuns s t th f fa fb := ⟨h, hlog, hmac, hform, hout, hb, hi, h15, hreserved, hfa, hfb, hbf16, hpair, hq, haligned, hrange⟩
    refine ⟨execVmacc_asks runs, ?_⟩
    intro id a hfound hdone x ps u e
    have ran := execVmacc_runs runs hfound hdone
    exact ⟨fun th2 hx => ran.trans (congrArg _ (State.macWrote_some hx ..)), fun full => ran.trans (congrArg _ (State.macWrote_full full ..))⟩
  · intro s ship sec core k
    rfl

end

section
/-! PROOFS. Scratchpad accesses: the request that a load, store or atomic enters, and the log of a speculative thread (R85, R86, R164, R216,
R217). -/

namespace Sys2Proof.Machine

variable {s : State} {t : Nat} {th : Thread}

/-! ### A thread that a state holds -/

theorem State.onThread_resident {α : Type} (ht : s.threads.get? t = some th) (d : α) (g : Thread → α) : s.onThread t d g = g th := by
  simp [State.onThread, ht]

theorem State.holdClosure_resident (ht : s.threads.get? t = some th) : s.holdClosure t = s.setThread t { th with wait := .closure } :=
  State.modThread_resident ht _

@[simp] theorem State.waits_setThread (s : State) (t : Nat) (x : Thread) : (s.setThread t x).waits t = (x.wait != .none) := by
  simp [State.waits]

/-! ### Register writes of a thread that waits for nothing -/

theorem State.writeRegs_some (ht : s.threads.get? t = some th) {e : Eff} {x : Thread} (h : th.write? e = some x) : s.writeRegs t e = s.setThread t x := by
  rw [State.writeRegs_write? ht, h]

theorem State.writeRegs_full (ht : s.threads.get? t = some th) {e : Eff} (h : th.write? e = none) :
    s.writeRegs t e = s.setThread t { th with wait := .closure } := by
  rw [State.writeRegs_write? ht, h]

theorem Thread.write?_waits_none (hwait : th.wait = .none) {e : Eff} {x : Thread} (h : th.write? e = some x) : (x.wait != .none) = false := by
  simp [Thread.write?_wait h, hwait]

/-! ### The log of a speculative thread (Table 05-7) -/

/-- A log holds no fewer granules for one more item. -/
theorem logCost_cons (i : SpecItem) (l : List SpecItem) : logCost l ≤ logCost (i :: l) := by
  have grows (a b : Bool) : b2n b ≤ b2n (a || b) := by cases a <;> cases b <;> decide
  simp only [logCost, List.map_cons, List.sum_cons, List.any_cons]
  exact Nat.add_le_add (Nat.le_add_left ..) (grows ..)

/-- A store of a speculative thread, and what it writes in registers, go into its log, or it waits for its closure (Table 05-5). -/
theorem State.logStore_loggedAt {sp : Spec} (ht : s.threads.get? t = some th) (hspec : th.spec = some sp) (hwait : th.wait = .none) {e : Eff}
    (hpc : e.pc = none) (loc : Bool) (addr len v size : Nat) :
    (if (s.writeRegs t e).waits t then s.writeRegs t e
      else if ((s.writeRegs t e).logStore t loc addr len v).waits t then s.holdClosure t
      else ((s.writeRegs t e).logStore t loc addr len v).advance t size) = s.loggedAt t th sp e (.store loc addr len v) size := by
  have less := logCost_cons (.store loc addr len v) (th.logged sp.log e)
  rw [State.writeRegs_write? ht, State.holdClosure_resident ht, State.loggedAt]
  by_cases room : logCost (.store loc addr len v :: th.logged sp.log e) ≤ 64
  · have written : th.write? e = some { th.apply e with spec := some { sp with log := th.logged sp.log e } } := by
      simp only [Thread.write?, hspec]
      exact if_pos (less.trans room)
    have same_pc : (th.apply e).pc = th.pc := by simp [Thread.apply, hpc]
    simp [written, hwait, State.logStore, room, State.advance, State.modThread, same_pc]
  · by_cases regs : logCost (th.logged sp.log e) ≤ 64
    · have written : th.write? e = some { th.apply e with spec := some { sp with log := th.logged sp.log e } } := by
        simp only [Thread.write?, hspec]
        exact if_pos regs
      simp [written, hwait, State.logStore, room, State.holdClosure, State.modThread]
    · have full : th.write? e = none := by
        simp only [Thread.write?, hspec]
        exact if_neg regs
      simp [full, room]

/-! ### Loads and stores -/

section
variable {size loc len align : Nat} (ht : s.threads.get? t = some th) (hbusy : s.padBusy t = false) (hacquiring : s.acquiring t = false)
  (haligned : loc % align = 0)
include ht hbusy hacquiring haligned

theorem State.padLoad_full {dst : LoadDst} (hfull : th.write? (dstKeep th dst) = none) :
    s.padLoad t th size loc len align dst = s.setThread t { th with wait := .closure } := by
  simp [State.padLoad, haligned, hbusy, hacquiring, State.writeRegs_full ht hfull]

variable (hwait : th.wait = .none)
include hwait

theorem State.padLoad_enters {dst : LoadDst} {x : Thread} (hx : th.write? (dstKeep th dst) = some x) :
    s.padLoad t th size loc len align dst = ((s.setThread t x).enterPad t x (3 + t % 4) loc len (.load dst) dst false).advance t size := by
  simp [State.padLoad, haligned, hbusy, hacquiring, State.writeRegs_some ht hx, Thread.write?_waits_none hwait hx]

variable {v : Nat} {e : Eff}

theorem State.padStore_enters (hspec : th.spec = none) :
    s.padStore t th size loc len align v e = ((s.setThread t (th.apply e)).enterPad t th (3 + t % 4) loc len (.store v) .none false).advance t size := by
  simp [State.padStore, haligned, hbusy, hacquiring, State.writeRegs_some ht (Thread.write?_spec hspec e), hwait, hspec]

theorem State.padStore_logs {sp : Spec} (hspec : th.spec = some sp) (hpc : e.pc = none) :
    s.padStore t th size loc len align v e = s.loggedAt t th sp e (.store true loc len v) size := by
  rw [← State.logStore_loggedAt ht hspec hwait hpc true loc len v size]
  simp [State.padStore, haligned, hbusy, hacquiring, hspec]

end

section
variable {u : Uses} {o : Host.Outcome State Fault Refusal} {size loc len align : Nat} (h : s.canRun t th u) (hbusy : s.padBusy t = false)
  (hacquiring : s.acquiring t = false) (haligned : loc % align = 0)
include h hbusy hacquiring haligned

/-- An instruction that loads from the scratchpad: its request with its destination pending, or the wait for the closure. -/
theorem padLoad_outcome {dst : LoadDst} (issues : o = .next (s.padLoad t th size loc len align dst)) :
    (∀ x, th.write? (dstKeep th dst) = some x →
      o = .next (((s.setThread t x).enterPad t x (3 + t % 4) loc len (.load dst) dst false).advance t size)) ∧
    (th.write? (dstKeep th dst) = none → o = .next (s.setThread t { th with wait := .closure })) := by
  subst issues
  exact ⟨fun x hx => congrArg _ (State.padLoad_enters h.2.1 hbusy hacquiring haligned (State.canIssue_wait h.1 h.2.1) hx),
    fun full => congrArg _ (State.padLoad_full h.2.1 hbusy hacquiring haligned full)⟩

/-- An instruction that stores to the scratchpad: its request, or in a speculative thread its place in the log. -/
theorem padStore_outcome {v : Nat} {e : Eff} (hpc : e.pc = none) (issues : o = .next (s.padStore t th size loc len align v e)) :
    (th.spec = none →
      o = .next (((s.setThread t (th.apply e)).enterPad t th (3 + t % 4) loc len (.store v) .none false).advance t size)) ∧
    (∀ sp, th.spec = some sp → o = .next (s.loggedAt t th sp e (.store true loc len v) size)) := by
  subst issues
  exact ⟨fun hspec => congrArg _ (State.padStore_enters h.2.1 hbusy hacquiring haligned (State.canIssue_wait h.1 h.2.1) hspec),
    fun sp hspec => congrArg _ (State.padStore_logs h.2.1 hbusy hacquiring haligned (State.canIssue_wait h.1 h.2.1) hspec hpc)⟩

end

/-! ### Instructions whose encoding and address are legal -/

theorem issue_legal {u : Uses} {code : Option Nat} (h : s.canRun t th u) (hc : code = none) (run : Thread → State → State) :
    issue t code u run s = run th s :=
  hc ▸ issue_run h run

/-- A register that a kind names as a pair is even. -/
theorem pairField_even {k : Nat} {x : BitVec 4} (h : k = 5 → x.toNat % 2 = 0) : (k == 5 && badP x) = false := by
  by_cases pair : k = 5
  · simp [badP_even (h pair)]
  · simp [pair]

section
variable {f : FmtM}

theorem execLdl_issues (h : s.canRun t th (.s f.a.toNat :: dstUses (kindDst f.kind.toNat f.d.toNat))) (hk : f.kind.toNat < 7)
    (hpair : f.kind.toNat = 5 → f.d.toNat % 2 = 0) (hrange : badLocal (localAddr th f.a.toNat f.imm 1) (kindSize f.kind.toNat) = false) :
    execLdl t f s = .next (s.padLoad t th 4 (localAddr th f.a.toNat f.imm 1) (kindSize f.kind.toNat) (kindSize f.kind.toNat)
      (kindDst f.kind.toNat f.d.toNat)) := by
  simp only [execLdl, State.onThread_resident h.2.1]
  exact congrArg _ (issue_legal h (by simp [Nat.not_le.mpr hk, pairField_even hpair, hrange]) _)

theorem execStl_issues (h : s.canRun t th (.s f.a.toNat :: (if f.kind.toNat = 5 then usesPair f.d.toNat else [.s f.d.toNat])))
    (hk : storeKind f.kind.toNat = true) (hpair : f.kind.toNat = 5 → f.d.toNat % 2 = 0)
    (hrange : badLocal (localAddr th f.a.toNat f.imm 1) (kindSize f.kind.toNat) = false) :
    execStl t f s = .next (s.padStore t th 4 (localAddr th f.a.toNat f.imm 1) (kindSize f.kind.toNat) (kindSize f.kind.toNat)
      (kindValue th f.kind.toNat f.d.toNat) Eff.none) := by
  simp only [execStl, State.onThread_resident h.2.1]
  exact congrArg _ (issue_legal h (by simp [hk, pairField_even hpair, hrange]) _)

theorem execVldl_issues {fmt : ElemFmt} (h : s.canRun t th [.v f.d.toNat, .s f.a.toNat]) (hd : f.d.toNat < 4)
    (hfmt : ElemFmt.ofCode? f.kind.toNat = some fmt) (hrange : badLocal (localAddr th f.a.toNat f.imm 64) 64 = false) :
    execVldl t f s = .next (s.padLoad t th 4 (localAddr th f.a.toNat f.imm 64) 64 64 (.vector f.d.toNat fmt)) := by
  simp only [execVldl, State.onThread_resident h.2.1, hfmt]
  exact congrArg _ (issue_legal h (by simp [badV_low hd, hrange]) _)

theorem execVstl_issues (h : s.canRun t th [.v f.d.toNat, .s f.a.toNat]) (hd : f.d.toNat < 4) (hk : f.kind = 0)
    (hrange : badLocal (localAddr th f.a.toNat f.imm 64) 64 = false) :
    execVstl t f s = .next (s.padStore t th 4 (localAddr th f.a.toNat f.imm 64) 64 64 (th.vr f.d.toNat).data.toNat Eff.none) := by
  simp only [execVstl, State.onThread_resident h.2.1]
  exact congrArg _ (issue_legal h (by simp [badV_low hd, hk, hrange]) _)

end

section
variable {f : FmtE}

/-- The destination of a converting load. -/
def xDst (f : FmtE) : LoadDst := .convert f.d.toNat (xConv f) (xFmt f) (xScale f)

/-- The count that a compressing store writes. -/
def xEff (th : Thread) (f : FmtE) : Eff := if xConv f = 2 then Eff.sc (xCount f) (BitVec.ofNat 32 (xBytes th f).length) else Eff.none

theorem xEff_pc (th : Thread) (f : FmtE) : (xEff th f).pc = none := by
  unfold xEff
  split <;> rfl

/-- What the fields that a converting load and a converting store share must be. -/
structure XLegal (f : FmtE) : Prop where
  vector : f.d.toNat < 4
  b : f.b = 0
  bit3 : f.ext.toNat.testBit 3 = false
  reserved : fld f.ext.toNat 11 8 = 0
  conv : xConv f < 3
  fmt : xBadFmt f = false

/-- The checks on the fields of a converting access pass, down to the one on its address. -/
theorem XLegal.firstCode_eq (h : XLegal f) {pad : Bool} (hbase : pad = false → f.a.toNat % 2 = 0) {hi : Nat} (hreserved : fld f.ext.toNat 31 hi = 0)
    (last : Bool × Nat) :
    firstCode [(xConv f == 3, 0x10), (badV f.d || (!pad && badP f.a), 0x11),
      (nz f.b || f.ext.toNat.testBit 3 || fld f.ext.toNat 11 8 != 0 || fld f.ext.toNat 31 hi != 0, 0x12), (xBadFmt f, 0x13), last] =
    firstCode [last] := by
  have base : (!pad && badP f.a) = false := by
    cases pad
    case false => simp [badP_even (hbase rfl)]
    case true => rfl
  simp [beq_false_of_ne (Nat.ne_of_lt h.conv), badV_low h.vector, base, h.b, h.bit3, h.reserved, hreserved, h.fmt]

/-- The check on the address of a global access is never made. -/
theorem firstCode_range {pad bad : Bool} (h : pad = true → bad = false) (c : Nat) : firstCode [(pad && bad, c)] = none := by
  cases pad
  case false => rfl
  case true => simp [h rfl]

/-- The bytes that the address of a converting load must hold: its run, or a CSB group, which is aligned to 8 bytes (R136). -/
theorem xSpan_aligned {loc n : Nat} (h : loc % xAlign f = 0) :
    (if xConv f = 2 then (if loc % 8 = 0 then n else 1) else xFirst f) = if xConv f = 2 then n else xFirst f := by
  split_ifs with conv unaligned
  · rfl
  · simp [xAlign, conv] at h
    exact absurd h unaligned
  · rfl

theorem execVldx_issues {pad : Bool} (hl : XLegal f) (hpad : xPad f = pad) (hbase : pad = false → f.a.toNat % 2 = 0)
    (hreserved : fld f.ext.toNat 31 16 = 0) (h : s.canRun t th ((if pad then [.s f.a.toNat] else usesPair f.a.toNat) ++ dstUses (xDst f)))
    (hrange : pad = true → badLocal (localAddr th f.a.toNat f.imm 1) (if xConv f = 2 then
      (if localAddr th f.a.toNat f.imm 1 % 8 = 0 then csbGroupLen (xFmt f) (s.spRead t) (localAddr th f.a.toNat f.imm 1) else 1) else xFirst f) = false) :
    execVldx t f s = .next (if pad then s.padLoad t th 8 (localAddr th f.a.toNat f.imm 1) (xFirst f) (xAlign f) (xDst f)
      else s.globalLoad t th 8 (globalAddr th f.a.toNat f.imm 1) (xFirst f) (xAlign f) (xDst f)) := by
  subst hpad
  simp only [execVldx, State.onThread_resident h.2.1]
  exact congrArg _ (issue_legal h ((hl.firstCode_eq hbase hreserved _).trans (firstCode_range hrange _)) _)

/-- The registers that a converting store names beside its base. -/
def xStoreUses (f : FmtE) : Uses := if xConv f = 2 then [.v f.d.toNat, .s (xScale f), .s (xCount f)] else [.v f.d.toNat]

theorem execVstx_issues {pad : Bool} (hl : XLegal f) (hpad : xPad f = pad) (hbase : pad = false → f.a.toNat % 2 = 0)
    (hreserved : fld f.ext.toNat 31 20 = 0) (h : s.canRun t th ((if pad then [.s f.a.toNat] else usesPair f.a.toNat) ++ xStoreUses f))
    (hrange : pad = true → badLocal (localAddr th f.a.toNat f.imm 1)
      (if localAddr th f.a.toNat f.imm 1 % xAlign f = 0 then (xBytes th f).length else 1) = false) :
    execVstx t f s = .next (
      if pad then s.padStore t th 8 (localAddr th f.a.toNat f.imm 1) (xBytes th f).length (xAlign f) (ofBytes (xBytes th f)) (xEff th f)
      else s.globalStore t th 8 (globalAddr th f.a.toNat f.imm 1) (xBytes th f).length (xAlign f) (ofBytes (xBytes th f)) (xEff th f)) := by
  subst hpad
  simp only [execVstx, State.onThread_resident h.2.1]
  exact congrArg _ (issue_legal h ((hl.firstCode_eq hbase hreserved _).trans (firstCode_range hrange _)) _)

/-- A release that an atomic names has taken effect; one that it does not name changes nothing. -/
theorem atRelease_made {u : State} {scope : Nat} (hnone : atRelease f = false → u = s) (hmade : atRelease f = true → s.release t scope = (true, u)) :
    (if atRelease f then s.release t scope else (true, s)) = (true, u) := by
  cases names : atRelease f
  case false => rw [hnone names]; rfl
  case true => exact hmade names

theorem execAtoml_runs {u : State} (h : s.ready t th (.s f.a.toNat :: (atUses f f.d.toNat ++ atUses f f.b.toNat ++ (if atOp f = 9 then atUses f (atCmp f) else []))))
    (hbusy : s.padBusy t = false) (hacquiring : s.acquiring t = false)
    (hcode : firstCode (atCodes f false ++ [(badLocal (localAddr th f.a.toNat f.imm (atSize f)) (atSize f), 0x14)]) = none)
    (haligned : localAddr th f.a.toNat f.imm (atSize f) % atSize f = 0)
    (hmade : (if atRelease f then s.release t 0 else (true, s)) = (true, u)) :
    execAtoml t f s = .next ((u.enterPad t th (3 + t % 4) (localAddr th f.a.toNat f.imm (atSize f)) (atSize f)
      (.atomic (atOp f) (atSize f) (atReg th f f.b.toNat) (atReg th f (atCmp f)) (atDst f)) (atDst f) (atAcquire f)).advance t 8) := by
  obtain ⟨-, resident, hspec, -⟩ := id h
  simp only [execAtoml, State.onThread_resident resident, issue_legal h.canRun hcode]
  simp [hspec, haligned, hbusy, hacquiring, hmade]

end

end Sys2Proof.Machine

open Sys2Proof Sys2Proof.Machine

/-- Settles O11, from the access that each legal instruction makes and what an access of a section enters. -/
theorem scratchpadAccesses : Obligations.ScratchpadAccesses := by
  refine ⟨?_, ?_, ?_⟩
  · intro s t th f hbusy hacquiring k loc vloc
    refine ⟨?_, ?_, ?_, ?_⟩
    · intro h hk hpair hrange haligned
      exact padLoad_outcome h hbusy hacquiring haligned (execLdl_issues h hk hpair hrange)
    · intro h hk hpair hrange haligned
      exact padStore_outcome h hbusy hacquiring haligned (e := Eff.none) rfl (execStl_issues h hk hpair hrange)
    · intro fmt h hd hfmt hrange haligned
      exact padLoad_outcome h hbusy hacquiring haligned (execVldl_issues h hd hfmt hrange)
    · intro h hd hk hrange haligned
      exact padStore_outcome h hbusy hacquiring haligned (e := Eff.none) rfl (execVstl_issues h hd hk hrange)
  · intro s t th f hbusy hacquiring loc hpad hd hb h3 h11 hconv hfmt haligned dst
    have legal : XLegal f := ⟨hd, hb, h3, h11, hconv, hfmt⟩
    constructor
    · intro hreserved h hrange
      exact padLoad_outcome h hbusy hacquiring haligned
        (execVldx_issues legal hpad nofun hreserved h (fun _ => (xSpan_aligned haligned).symm ▸ hrange))
    · intro hreserved h n e hrange
      exact padStore_outcome h hbusy hacquiring haligned (xEff_pc th f)
        (execVstx_issues legal hpad nofun hreserved h (fun _ => by rwa [if_pos haligned]))
  · intro s u t th f hbusy hacquiring loc h hcode haligned hnone hmade
    exact execAtoml_runs h hbusy hacquiring hcode haligned (atRelease_made hnone hmade)
end

section
/-! PROOFS. Global accesses: the access that a load, store or atomic of a translated address enters, and the log or the wait of a speculative
thread (R44, R56, R84, R86, R99, R164, R252). -/

namespace Sys2Proof.Machine

variable {s s1 : State} {t : Nat} {th : Thread} {c : Context} {ps : List Part}

/-! ### Loads and stores -/

/-- Whether a part of an access lies in a window, so that a speculative thread may not make it (R164). -/
def farParts (ps : List Part) : Bool := ps.any (fun p => p.via == .window || p.via == .host)

theorem any_far (ps : List Part) : ps.any (fun p => p.via == .window || p.via == .host) = farParts ps := rfl

/-- What must hold for an access of one kind to be made: its address aligned, its bytes translated to parts of their own, and no acquire or
walk in the way. -/
structure GlobalRuns (s s1 : State) (t : Nat) (th : Thread) (c : Context) (kind pva len align : Nat) (ps : List Part) : Prop where
  aligned : pva % align = 0
  acquiring : s.acquiring t = false
  ctx : s.ctxs.get? (th.ctx % 4096) = some c
  walk : s.walkHeld (th.ctx % 4096) c t pva len = false
  placed : s.placeBytes (th.ctx % 4096) c t kind 4 pva len = (.ok ps, s1)
  apart : s1.clash t ps = false

theorem GlobalRuns.resident {kind pva len align : Nat} (g : GlobalRuns s s1 t th c kind pva len align ps) (ht : s.threads.get? t = some th) :
    s1.threads.get? t = some th :=
  (congrArg (Tbl.get? · t) (State.placeBytes_threads g.placed)).trans ht

section
variable {u : Uses} {o : Host.Outcome State Fault Refusal} {size pva len align : Nat} (h : s.canRun t th u)
include h

/-- An instruction that loads from a global address. -/
theorem globalLoad_outcome {dst : LoadDst} (g : GlobalRuns s s1 t th c 0 pva len align ps) (hroom : s.loadRoom t = true)
    (issues : o = .next (s.globalLoad t th size pva len align dst)) :
    (∀ th2, th.write? (dstKeep th dst) = some th2 → (th.spec.isSome = true → farParts ps = false) →
      o = .next (((s1.setThread t th2).advance t size).enterAcc t th2 pva (.load dst) dst false 0 ps)) ∧
    (th.write? (dstKeep th dst) = none ∨ (th.spec.isSome = true ∧ farParts ps = true) →
      o = .next (s1.setThread t { th with wait := .closure })) := by
  have resident := g.resident h.2.1
  simp only [issues, State.globalLoad, g.aligned, hroom, g.acquiring, g.ctx, g.walk, g.placed, g.apart, any_far]
  refine ⟨fun th2 hx hnear => congrArg _ ?_, fun hwaits => congrArg _ ?_⟩
  · have near : (th.spec.isSome && farParts ps) = false := by
      cases hspec : th.spec.isSome
      case false => rfl
      case true => exact hnear hspec
    simp [near, State.writeRegs_some resident hx, Thread.write?_waits_none (State.canIssue_wait h.1 h.2.1) hx]
  · cases far : th.spec.isSome && farParts ps
    case true => simp [State.holdClosure_resident resident]
    case false =>
      have full := hwaits.resolve_right (by simpa using far)
      simp [State.writeRegs_full resident full]

/-- An instruction that stores to a global address. -/
theorem globalStore_outcome {v : Nat} {e : Eff} (hpc : e.pc = none) (g : GlobalRuns s s1 t th c 1 pva len align ps) (hroom : s.storeRoom t = true)
    (issues : o = .next (s.globalStore t th size pva len align v e)) :
    (th.spec = none → o = .next (((s1.setThread t (th.apply e)).enterAcc t th pva (.store v) .none false 0 ps).advance t size)) ∧
    (∀ sp, th.spec = some sp → o = .next (if farParts ps then s1.setThread t { th with wait := .closure }
      else s1.loggedAt t th sp e (.store false pva len v) size)) := by
  have resident := g.resident h.2.1
  have made : s.globalStore t th size pva len align v e = s1.makeStore t th size pva len v ps e := by
    simp [State.globalStore, g.aligned, hroom, g.acquiring, g.ctx, g.walk, g.placed, g.apart]
  rw [issues, made]
  refine ⟨fun hspec => congrArg _ ?_, fun sp hspec => congrArg _ ?_⟩
  · simp [State.makeStore, hspec, State.writeRegs_some resident (Thread.write?_spec hspec e)]
  · rw [← State.logStore_loggedAt resident hspec (State.canIssue_wait h.1 h.2.1) hpc]
    simp [State.makeStore, hspec, any_far, State.holdClosure_resident resident]

end

section
variable {f : FmtM}

theorem execLd_issues (h : s.canRun t th (usesPair f.a.toNat ++ dstUses (kindDst f.kind.toNat f.d.toNat))) (hk : f.kind.toNat < 7)
    (ha : f.a.toNat % 2 = 0) (hpair : f.kind.toNat = 5 → f.d.toNat % 2 = 0) :
    execLd t f s = .next (s.globalLoad t th 4 (globalAddr th f.a.toNat f.imm 1) (kindSize f.kind.toNat) (kindSize f.kind.toNat)
      (kindDst f.kind.toNat f.d.toNat)) :=
  congrArg _ (issue_legal h (by simp [Nat.not_le.mpr hk, badP_even ha, pairField_even hpair]) _)

theorem execSt_issues (h : s.canRun t th (usesPair f.a.toNat ++ (if f.kind.toNat = 5 then usesPair f.d.toNat else [.s f.d.toNat])))
    (hk : storeKind f.kind.toNat = true) (ha : f.a.toNat % 2 = 0) (hpair : f.kind.toNat = 5 → f.d.toNat % 2 = 0) :
    execSt t f s = .next (s.globalStore t th 4 (globalAddr th f.a.toNat f.imm 1) (kindSize f.kind.toNat) (kindSize f.kind.toNat)
      (kindValue th f.kind.toNat f.d.toNat) Eff.none) :=
  congrArg _ (issue_legal h (by simp [hk, badP_even ha, pairField_even hpair]) _)

theorem execVld_issues {fmt : ElemFmt} (h : s.canRun t th (.v f.d.toNat :: usesPair f.a.toNat)) (hd : f.d.toNat < 4) (ha : f.a.toNat % 2 = 0)
    (hfmt : ElemFmt.ofCode? f.kind.toNat = some fmt) :
    execVld t f s = .next (s.globalLoad t th 4 (globalAddr th f.a.toNat f.imm 64) 64 64 (.vector f.d.toNat fmt)) := by
  simp only [execVld, hfmt]
  exact congrArg _ (issue_legal h (by simp [badV_low hd, badP_even ha]) _)

theorem execVst_issues (h : s.canRun t th (.v f.d.toNat :: usesPair f.a.toNat)) (hd : f.d.toNat < 4) (ha : f.a.toNat % 2 = 0) (hk : f.kind = 0) :
    execVst t f s = .next (s.globalStore t th 4 (globalAddr th f.a.toNat f.imm 64) 64 64 (th.vr f.d.toNat).data.toNat Eff.none) :=
  congrArg _ (issue_legal h (by simp [badV_low hd, badP_even ha, hk]) _)

end

/-! ### Atomics -/

section
variable {f : FmtE} {p : Part}

/-- Whether an atomic on a part goes through the township's cache. -/
def cachedPart (p : Part) : Bool := p.via == .line || p.via == .stream

/-- Whether an atomic on a part executes near, at the home of its line (R252). -/
def State.nearPart (s : State) (t : Nat) (p : Part) : Bool := cachedPart p && s.goesNear (shipOf t) p.dpa

/-- The state from which an atomic on a part enters: a far one on an owned line counts for the contention predictor (R254). -/
def State.countedFar (s u : State) (t : Nat) (p : Part) : State :=
  if cachedPart p && !s.nearPart t p && s.ownsLine (shipOf t) (p.dpa / 128) then
    u.contendAdd (shipOf t) (if cachedPart p then contendIdx p.dpa else 64) false else u

/-- The part as the atomic asks for it. -/
def State.atomPart (s : State) (t : Nat) (p : Part) : Part := { p with via := if s.nearPart t p then .uncached else p.via }

/-- The state after an atomic on a part. -/
def State.atomEntered (s u : State) (t : Nat) (th : Thread) (f : FmtE) (p : Part) : State :=
  let s2 := s.countedFar u t p
  let s3 := (s2.advance t 8).enterAcc t th (globalAddr th f.a.toNat f.imm (atSize f))
    (.atomic (atOp f) (atSize f) (atReg th f f.b.toNat) (atReg th f (atCmp f)) (atDst f)) (atDst f) (atAcquire f)
    (if cachedPart p then contendIdx p.dpa else 64) [s.atomPart t p]
  if atAcquire f then s3.acquireAt s2 t th.launch (atScope f) (p.dpa / 128) else s3

theorem execAtom_runs {u : State} {ps : List Part}
    (h : s.ready t th (usesPair f.a.toNat ++ atUses f f.d.toNat ++ atUses f f.b.toNat ++ (if atOp f = 9 then atUses f (atCmp f) else [])))
    (hcode : firstCode (atCodes f (badP f.a)) = none) (haligned : globalAddr th f.a.toNat f.imm (atSize f) % atSize f = 0)
    (hhost : inHost (globalAddr th f.a.toNat f.imm (atSize f)) = false) (hacquiring : s.acquiring t = false)
    (hctx : s.ctxs.get? (th.ctx % 4096) = some c) (hmade : (if atRelease f then s.release t (atScope f) else (true, s)) = (true, u))
    (hwalk : u.walkHeld (th.ctx % 4096) c t (globalAddr th f.a.toNat f.imm (atSize f)) (atSize f) = false)
    (hplaced : u.placeBytes (th.ctx % 4096) c t 2 1 (globalAddr th f.a.toNat f.imm (atSize f)) (atSize f) = (.ok (p :: ps), s1))
    (hwindow : p.via = .window → u.windowAtomic ((windowSite? p.dpa).getD 0) (atSize f) = true) (happart : s1.clash t [u.atomPart t p] = false) :
    execAtom t f s = .next (u.atomEntered s1 t th f p) := by
  have served : (decide (p.via = .window) && !u.windowAtomic ((windowSite? p.dpa).getD 0) (atSize f)) = false := by
    by_cases window : p.via = .window
    · simp [hwindow window]
    · simp [window]
  obtain ⟨-, -, hspec, -⟩ := id h
  rw [execAtom, issue_legal h.canRun hcode, hspec]
  simp only [State.globalAtomic, haligned, hhost, hacquiring, hmade, hctx, hwalk, hplaced, served]
  exact congrArg _ (if_neg (fun clashes => Bool.false_ne_true (happart.symm.trans clashes)))

end
end Sys2Proof.Machine

open Sys2Proof Sys2Proof.Machine

/-- Settles O12, from the access that each legal instruction makes and what an access of translated bytes enters. -/
theorem globalAccesses : Obligations.GlobalAccesses := by
  refine ⟨?_, ?_, ?_⟩
  · intro s s1 t th c f ps hacquiring hctx k pva vpva happart far
    refine ⟨?_, ?_, ?_, ?_⟩
    · intro h hroom hk ha hpair haligned hplaced hwalk
      exact globalLoad_outcome h ⟨haligned, hacquiring, hctx, hwalk, hplaced, happart⟩ hroom (execLd_issues h hk ha hpair)
    · intro h hroom hk ha hpair haligned hwalk hplaced
      exact globalStore_outcome h (e := Eff.none) rfl ⟨haligned, hacquiring, hctx, hwalk, hplaced, happart⟩ hroom (execSt_issues h hk ha hpair)
    · intro fmt h hroom hd ha hfmt haligned hplaced hwalk
      exact globalLoad_outcome h ⟨haligned, hacquiring, hctx, hwalk, hplaced, happart⟩ hroom (execVld_issues h hd ha hfmt)
    · intro h hroom hd ha hk haligned hwalk hplaced
      exact globalStore_outcome h (e := Eff.none) rfl ⟨haligned, hacquiring, hctx, hwalk, hplaced, happart⟩ hroom (execVst_issues h hd ha hk)
  · intro s s1 t th c f ps hacquiring hctx happart pva dst far hpad hd ha hb h3 h11 hconv hfmt haligned
    have legal : XLegal f := ⟨hd, hb, h3, h11, hconv, hfmt⟩
    constructor
    · intro hreserved h hroom hwalk hplaced
      exact globalLoad_outcome h ⟨haligned, hacquiring, hctx, hwalk, hplaced, happart⟩ hroom
        (execVldx_issues legal hpad (fun _ => ha) hreserved h nofun)
    · intro hreserved h hroom n e hwalk hplaced
      exact globalStore_outcome h (xEff_pc th f) ⟨haligned, hacquiring, hctx, hwalk, hplaced, happart⟩ hroom
        (execVstx_issues legal hpad (fun _ => ha) hreserved h nofun)
  · intro s u s1 t th c f p ps hacquiring hctx pva h hcode haligned hhost hnone hmade hwalk hplaced hwindow cached near ctr s2 q happart s3
    exact execAtom_runs h hcode haligned hhost hacquiring hctx (atRelease_made hnone hmade) hwalk hplaced hwindow happart
end

section
/-! PROOFS. Data that returns to its register, and a bank that serves a section's only request (R96, R99, R211, R213 to R215). -/

namespace Sys2Proof.Machine

variable {s : State} {t : Nat} {th : Thread}

/-! ### Returned data -/

theorem Thread.write?_pend {x : Thread} {e : Eff} (h : th.write? e = some x) : x.pend = th.pend := by
  obtain ⟨_, rfl⟩ := Thread.write?_some h
  rfl

/-- A thread after the data of an access: written as the access was made, in the speculation or before it (R164), or the wait for the closure
of one whose slot is full. -/
def Thread.returned (th : Thread) (a : Acc) : Thread :=
  (if a.spec then th.write? (dstWrite a.dst a.value) else some (th.apply (dstWrite a.dst a.value))).getD { th with wait := .closure }

theorem Thread.returned_pend (th : Thread) (a : Acc) : (th.returned a).pend = th.pend := by
  unfold Thread.returned
  split_ifs
  · cases written : th.write? (dstWrite a.dst a.value) with
    | none => rfl
    | some x => exact Thread.write?_pend written
  · rfl

/-- An answered access of a resident thread gives its data to the thread, ends the pending writes of its destination and is gone. -/
theorem State.returnAcc_done {id : Nat} {a : Acc} (ha : s.accs.get? id = some a) (hdone : a.st = .done) (hsaved : s.saved a.launch = false)
    (hfetch : a.isFetch = false) (ht : s.threads.get? a.thread = some th) (hlaunch : th.launch = a.launch) :
    s.returnAcc id = { (s.setThread a.thread { th.returned a with pend := th.pend.filter (fun r => !(dstPend a.dst).contains r) }) with
      accs := s.accs.erase id } := by
  have owned : s.owns a.thread a = true := by simp [State.owns, ht, hlaunch]
  have written : (if a.spec then s.writeRegs a.thread (dstWrite a.dst a.value) else s.modThread a.thread (fun th => th.apply (dstWrite a.dst a.value))) =
      s.setThread a.thread (th.returned a) := by
    unfold Thread.returned
    split_ifs
    · rw [State.writeRegs_write? ht]
      cases th.write? (dstWrite a.dst a.value) <;> rfl
    · exact State.modThread_resident ht _
  simp only [State.returnAcc, ha, hdone, owned, hsaved, hfetch, written, State.modThread_resident (State.setThread_get? _ _ _),
    State.setThread_setThread, Thread.returned_pend]
  rfl

theorem execLoadDataReturn_done {id : Nat} {a : Acc} (d : Option Nat) (ha : s.accs.get? id = some a) (hdone : a.st = .done) :
    execLoadDataReturn id d s = .next (s.returnAcc id) := by
  simp only [execLoadDataReturn, ha, hdone]

/-! ### A section's only request -/

@[simp] theorem State.modSect_sect (s : State) (k : Nat) (g : SectionSt → SectionSt) : (s.modSect k g).sect k = g (s.sect k) :=
  Tbl.getD_set_self _ _ _ _
@[simp] theorem State.modSect_mem (s : State) (k : Nat) (g : SectionSt → SectionSt) : (s.modSect k g).mem = s.mem := rfl
@[simp] theorem State.modSect_spm (s : State) (k : Nat) (g : SectionSt → SectionSt) : (s.modSect k g).spm = s.spm := rfl

theorem State.booked_sect {u : State} (h : s.booked u) (k : Nat) : u.sect k = s.sect k := by
  obtain ⟨_, _, _, _, _, _, _, _, _, _, rfl⟩ := h
  rfl

section
variable {k bank v : Nat} {r : SpReq} (hreqs : (s.sect k).reqs = [r])
include hreqs

theorem presented_only (hrank : 1 ≤ r.rank) : (s.sect k).presented = [r] := by
  simp only [SectionSt.presented, hreqs]
  obtain gather | dispatch | thread : r.rank = 1 ∨ r.rank = 2 ∨ 3 ≤ r.rank := by omega
  · simp [gather]
  · simp [dispatch]
  · simp [thread, show r.rank ≠ 1 by omega, show r.rank ≠ 2 by omega]

theorem rowsServed_only (hrank : 1 ≤ r.rank) (hbank : bankOf r.row = bank) (hhold : r.hold = false) : s.rowsServed k bank = [r.row] := by
  simp only [State.rowsServed, presented_only hreqs hrank]
  split_ifs <;> simp [hbank, hhold, spSort, spInsert, List.eraseDups_cons]

/-- A store within one row, served: its bytes are written and the section waits for nothing more; who won the bank may be noted. -/
theorem State.serveRow_store (won : Tbl Nat) (hop : r.op = .store v) (hoff : r.off = 0) (hcur : r.cur = r.len)
    (hinbox : s.inInbox r.launch r.loc = false) :
    (s.serveRow k bank won [r] r.row).mem = s.mem ∧ (s.serveRow k bank won [r] r.row).spm = s.spm.writeN (spKey k r.loc) r.len v ∧
    ((s.serveRow k bank won [r] r.row).sect k).reqs = [] := by
  have put : s.padPut k r v = { s with spm := s.spm.writeN (spKey k r.loc) r.len v } := by
    simp [State.padPut, hinbox, hcur]
  have whole : ¬ (r.off + r.cur < r.len) := by omega
  have next (u : State) : u.padNext k r = u.modSect k (fun h => { h with reqs := h.reqs.filter (fun q => q.seq != r.seq) }) := by
    simp only [State.padNext, if_neg whole, hop]
  have same_sect : (({ s with spm := s.spm.writeN (spKey k r.loc) r.len v } : State).sect k).reqs = [r] := hreqs
  simp only [State.serveRow, spSort, spInsert, SpReq.isAtomic, hop, hoff, List.filter_singleton, beq_self_eq_true, cond_true, Bool.not_false,
    Bool.true_or, Bool.false_and, Bool.false_eq_true, if_false, List.reverse_singleton, List.foldl_cons, List.foldl_nil, Nat.mul_zero,
    Nat.shiftRight_zero, put, next]
  split_ifs <;> simp [same_sect]

end

/-- SCRATCHPAD_BANK_ARBITRATION of a section whose only request is a store within one row of the bank. -/
theorem execScratchpadBankArbitration_store {ship sec bank v : Nat} {r : SpReq} (hreqs : (s.sect (ship * 64 + sec)).reqs = [r])
    (hrank : 1 ≤ r.rank) (hbank : bankOf r.row = bank) (hhold : r.hold = false) (hop : r.op = .store v) (hoff : r.off = 0) (hcur : r.cur = r.len)
    (hinbox : s.inInbox r.launch r.loc = false) :
    ∃ u, execScratchpadBankArbitration ship sec bank s = .next u ∧ (u.sect (ship * 64 + sec)).reqs = [] ∧ u.mem = s.mem ∧
      u.spm = s.spm.writeN (spKey (ship * 64 + sec) r.loc) r.len v := by
  obtain ⟨mem_kept, written, ended⟩ := State.serveRow_store (bank := bank) hreqs (s.sect (ship * 64 + sec)).won hop hoff hcur hinbox
  simp only [execScratchpadBankArbitration, rowsServed_only hreqs hrank hbank hhold, presented_only hreqs hrank, List.foldl_cons, List.foldl_nil]
  refine ⟨_, rfl, ?_, ?_, ?_⟩
  · rw [State.booked_sect (State.transit_booked _ _ _)]
    simp [ended]
  · rw [State.booked_mem (State.transit_booked _ _ _)]
    simp [mem_kept]
  · rw [State.booked_spm (State.transit_booked _ _ _)]
    simp [written]

end Sys2Proof.Machine

open Sys2Proof Sys2Proof.Machine

/-- Settles O13, from the return of an answered access and the service of a section's only request. -/
theorem loadedDataAndBankArbitration : Obligations.LoadedDataAndBankArbitration := by
  refine ⟨?_, ?_, ?_⟩
  · intro s id d a th ha hdone hsaved hfetch ht hlaunch
    refine ⟨s.returnAcc id, execLoadDataReturn_done d ha hdone, ?_⟩
    rw [State.returnAcc_done ha hdone hsaved hfetch ht hlaunch]
    refine ⟨Tbl.get?_erase_self _ _, rfl, rfl, fun x hx => ?_⟩
    have returned : th.returned a = x := by simp [Thread.returned, hx]
    exact returned ▸ State.setThread_get? _ _ _
  · intro s ship sec bank v r hreqs hop hoff hhold hcur hrank hbank hinbox
    obtain ⟨u, served, ended, mem_kept, written⟩ := execScratchpadBankArbitration_store hreqs hrank hbank hhold hop hoff hcur hinbox
    exact ⟨u, served, ended, mem_kept, written, fun key outside => written ▸ Memory.read_writeN_out _ _ _ _ _ outside⟩
  · intro s ship sec seq
    rfl
end

section
/-! PROOFS. The issue of a core: its rotation over four threads, and the run of the instruction that a fetched word spells (R41, R93, R95, R96). -/

namespace Sys2Proof.Machine

variable {s u : State} {t ship sec core : Nat} {th : Thread}

/-! ### A step of a core -/

/-- A township that is halted, asleep, absent or under test issues nothing. -/
theorem execThreadIssue_stopped
    (h : (s.ship ship).halted = true ∨ (s.ship ship).asleep = true ∨ (s.ship ship).absent = true ∨ (s.ship ship).test.isSome = true) :
    execThreadIssue ship sec core s = .next s := by
  have stopped : ((s.ship ship).halted || (s.ship ship).asleep || (s.ship ship).absent || (s.ship ship).test.isSome) = true := by
    simpa [or_assoc] using h
  exact congrArg _ (if_pos stopped)

/-- The core after its step counter has advanced and confirmed threads have gone on with their logged accesses (R93, R170). -/
def State.coreStep (s : State) (k : Nat) : State :=
  (upTo 4).foldl (fun s h => s.replay (k * 4 + h) 65) (s.setCore k { s.core k with steps := ((s.core k).steps + 1) % 2 ^ 64 })

theorem execThreadIssue_runs (hhalted : (s.ship ship).halted = false) (hasleep : (s.ship ship).asleep = false)
    (habsent : (s.ship ship).absent = false) (htest : (s.ship ship).test = none) :
    execThreadIssue ship sec core s = .next (
      let k := ship * 4096 + sec * 64 + core
      let last := (s.core k).last
      (s.coreStep k).issueFirst k [(last + 1) % 4, (last + 2) % 4, (last + 3) % 4, (last + 4) % 4]) := by
  have running : ¬ ((s.ship ship).halted || (s.ship ship).asleep || (s.ship ship).absent || (s.ship ship).test.isSome) = true := by
    simp [hhalted, hasleep, habsent, htest]
  exact congrArg _ (if_neg running)

/-! ### The rotation over the threads -/

section
variable {k h : Nat} (r : List Nat)

theorem State.issueFirst_issues (hcan : s.canIssue (k * 4 + h) = true) (hrun : s.runNext (k * 4 + h) = (true, u)) :
    s.issueFirst k (h :: r) = u.setCore k { u.core k with last := h } := by
  simp only [State.issueFirst, if_pos hcan, hrun]

theorem State.issueFirst_passes (hcan : s.canIssue (k * 4 + h) = true) (hrun : s.runNext (k * 4 + h) = (false, u)) :
    s.issueFirst k (h :: r) = u.issueFirst k r := by
  simp only [State.issueFirst, if_pos hcan, hrun]

theorem State.issueFirst_skips (hcan : s.canIssue (k * 4 + h) = false) : s.issueFirst k (h :: r) = s.issueFirst k r := by
  simp [State.issueFirst, hcan]

end

/-! ### The next instruction of a thread -/

/-- A fetched word that spells a short instruction runs as it; it issued where its thread came to change or a jump ran. -/
theorem State.runNext_spells {s0 : State} {w : W32} {ppa : Nat} {i : Instr} (ht : s.threads.get? t = some th)
    (hheld : s.wordHeld th t th.pc.toNat = false) (hword : s.fetchWord th t th.pc.toNat = (.ok (w, false, ppa), s0))
    (hshort : isExtended (major w) = false) (hspells : decodeThread t w 0 = some i)
    (hruns : runThread i (s0.modThread t (fun y => { y with fetched := some (th.pc.toNat, ppa) })) = .next u) :
    let s1 := s0.modThread t (fun y => { y with fetched := some (th.pc.toNat, ppa) })
    s.runNext t = (s1.jumps t i || s1.moved u t, u) := by
  intro s1
  have ran : s.runNext t = if s1.jumps t i || s1.moved u t then (true, u) else (false, u) := by
    simp only [State.runNext, ht, hheld, hword, hshort, Bool.false_and, Bool.false_eq_true, if_false, hspells, hruns]
    rfl
  rw [ran]
  cases s1.jumps t i <;> cases s1.moved u t <;> rfl

/-- A word whose channel is in a slice is not fetched (R302). -/
theorem State.runNext_held (ht : s.threads.get? t = some th) (hheld : s.wordHeld th t th.pc.toNat = true) : s.runNext t = (false, s) := by
  simp [State.runNext, ht, hheld]

end Sys2Proof.Machine

open Sys2Proof Sys2Proof.Machine

/-- Settles O14, from the step of a core, the rotation over its threads, and the run of a thread's next instruction. -/
theorem coreIssuesInRotation : Obligations.CoreIssuesInRotation := by
  refine ⟨?_, ?_, ?_, ?_⟩
  · intro s ship sec core k x h s1
    exact ⟨fun ⟨hhalted, hasleep, habsent, htest⟩ => execThreadIssue_runs hhalted hasleep habsent htest, execThreadIssue_stopped⟩
  · intro s u k h r
    exact ⟨State.issueFirst_issues r, State.issueFirst_passes r, State.issueFirst_skips r⟩
  · intro s s0 u t ppa th w i ht hheld hword hshort hspells s1 hruns
    exact State.runNext_spells ht hheld hword hshort hspells hruns
  · intro s t th ht hheld
    exact State.runNext_held ht hheld
end

section
/-! PROOFS. The scalar FP32 instructions: the form of one operand and the fused multiply-add, beside the form of two operands
(R108, R116, Table 03-5). -/

namespace Sys2Proof.Machine

variable {s : State} {t : Nat} {th : Thread} {f : FmtA}

/-- The field b of a form of one operand is reserved, and names no register that it waits for. -/
theorem scalarA_runs (h : s.canRun t th [.s f.a.toNat, .s f.b.toNat, .s f.d.toNat]) (hb : f.b = 0) (hm : f.md = 0) (op : W32 → W32) :
    scalarA t f op s = s.wrote t th (Eff.sc f.d.toNat (op (th.sr f.a.toNat))) 4 :=
  regInstr_ok (State.canRun_mono h (by simp)) (by simp [hb, hm]) 4 _ rfl

/-- ffma reads its destination as the addend. -/
theorem execFfma_runs (h : s.canRun t th [.s f.a.toNat, .s f.b.toNat, .s f.d.toNat]) (hm : f.md = 0) :
    execFfma t f s =
      .next (s.wrote t th (Eff.sc f.d.toNat (f32Fma (th.sr f.d.toNat) (th.sr f.a.toNat) (th.sr f.b.toNat))) 4) :=
  congrArg _ (regInstr_ok h (by simp [hm]) 4 _ rfl)

end Sys2Proof.Machine

open Sys2Proof Sys2Proof.Machine

/-- Settles O5, from the runs of two operands, of the fused multiply-add and of one operand. -/
theorem scalarFloatInstructions : Obligations.ScalarFloatInstructions := by
  intro s t th f h hm a b d
  have two (op : W32 → W32 → W32) : .next (scalarAB t f op s) = d (op a b) := congrArg _ (scalarAB_runs h hm op)
  refine ⟨two f32Add, two f32Sub, two f32Mul, two f32Min, two f32Max, execFfma_runs h hm, fun hb => ?_⟩
  have one (op : W32 → W32) : .next (scalarA t f op s) = d (op a) := congrArg _ (scalarA_runs h hb hm op)
  exact ⟨one (fun x => f32Rcp (Config.frcp x) x), one (fun x => f32Rsq (Config.frsq x) x), one (fun x => f32Exp2 (Config.fexp2 x) x),
    one f32ToInt, one intToF32, one f32Abs, one f32Neg⟩
end

section
/-! PROOFS. The dispatch instructions: tokens sent by dspt, taken by drecv and returned by dret (R92, R145, R151 to R153, R156, R160, R163,
R216). -/

namespace Sys2Proof.Machine

variable {s : State} {t : Nat} {th : Thread} {f : FmtE}

/-! ### Operands -/

/-- The fields of a dspt or a dret: the units of its row, its layer and its element format. -/
abbrev dispLen (f : FmtE) : Nat := fld f.ext.toNat 5 0
abbrev dispLayer (f : FmtE) : Nat := fld f.ext.toNat 18 11
abbrev dispFmt (f : FmtE) : Nat := fld f.ext.toNat 9 6

/-- The local address in a register. -/
abbrev Thread.localAt (th : Thread) (r : BitVec 4) : Nat := (th.sr r.toNat).toNat % 2 ^ 17

/-! ### The row that an instruction reads before it completes (R216) -/

/-- Whether an access is the row that thread t has asked for. -/
def State.fetchOf (s : State) (t : Nat) (e : Nat × Acc) : Bool := s.owns t e.2 && e.2.isFetch

section
variable {rank loc len : Nat} {csb : Option ElemFmt}

theorem State.padFetch_asks (hnone : s.accs.find? (s.fetchOf t) = none) (hbusy : s.padBusy t = false) (hacquiring : s.acquiring t = false) :
    s.padFetch t th rank loc len csb = (none, s.enterPad t th rank loc len (.load (.row csb)) .none false) := by
  unfold State.fetchOf at hnone
  simp [State.padFetch, hnone, hbusy, hacquiring]

theorem State.padFetch_done {id : Nat} {a : Acc} (hfound : s.accs.find? (s.fetchOf t) = some (id, a)) (hdone : a.st = .done) :
    s.padFetch t th rank loc len csb = (some a.value, { s with accs := s.accs.erase id }) := by
  unfold State.fetchOf at hfound
  simp only [State.padFetch, hfound, if_pos hdone]

end

/-! ### Register writes that complete an instruction -/

/-- Register writes of a thread that is not speculative, and the step past the instruction. -/
theorem State.writeRegs_advance (ht : s.threads.get? t = some th) (hspec : th.spec = none) {e : Eff} (hpc : e.pc = none) (n : Nat) :
    (s.writeRegs t e).advance t n = s.wrote t th e n := by
  have same_pc : (th.apply e).pc = th.pc := by simp [Thread.apply, hpc]
  rw [State.writeRegs_some ht (Thread.write?_spec hspec e), State.advance_resident (State.setThread_get? ..), State.jumped, same_pc]
  simp [State.wrote, State.wroteAt, Thread.write?_spec hspec]

/-! ### dspt -/

/-- The legal fields of a dspt, a thread that is ready for it, and its launch. -/
structure DsptRuns (s : State) (t : Nat) (th : Thread) (f : FmtE) (l : Launch) : Prop where
  ready : s.ready t th [.v f.a.toNat, .s f.b.toNat, .s f.d.toNat]
  vector : f.a.toNat < 4
  imm : f.imm = 0
  reserved : fld f.ext.toNat 31 19 = 0
  fmt : (ElemFmt.ofCode? (dispFmt f)).isSome = true
  inRange : badLocal (th.localAt f.b) (64 * dispLen f) = false
  launch : s.launches.get? th.launch = some l

/-- What a dspt with a row does of it: its copies sent and the thread past it, once those of its speculative dispatch are answered (R167) and
the ledger has room (R153). -/
def State.dsptRow (s u : State) (t : Nat) (th : Thread) (f : FmtE) (l : Launch) (d : DispDesc) (row : List Byte) : State :=
  let used : Int := (s.ship (shipOf t)).ledger.length
  if f.ext.toNat.testBit 10 then
    if (s.copiesOf (shipOf t) th.launch t (th.sr f.d.toNat).toNat (dispLayer f)).any (fun e => e.2.spec && e.2.st == .sent) then s
    else if 4096 < used + s.dsptNeed t th f d then s
    else (u.dsptCommit t th f d row).advance t 8
  else if 4096 < used + ((s.specTargets t th f l d).filter (s.routeOk ((s.parcelOfShip (shipOf t)).getD 16))).length then s
  else (u.dsptSpec t th f l d row).advance t 8

section
variable {l : Launch} (h : DsptRuns s t th f l)
include h

theorem execDspt_legal : execDspt t f s = .next (match l.disp with
    | none => s.advance t 8
    | some d =>
      if dispLen f = 0 then
        (if f.ext.toNat.testBit 10 then s.endLayers th.launch t (dispLayer f + 1) else s).advance t 8
      else match s.padFetch t th 2 (th.localAt f.b) (64 * dispLen f) none with
        | (none, u) => u
        | (some v, u) => s.dsptRow u t th f l d (bytesOf (64 * dispLen f) v)) := by
  obtain ⟨-, resident, hspec, -⟩ := id h.ready
  have known_fmt := Option.isNone_eq_false_iff.mpr h.fmt
  have encoded : firstCode [(badV f.a, 0x11), (nz f.imm || fld f.ext.toNat 31 19 != 0, 0x12), ((ElemFmt.ofCode? (dispFmt f)).isNone, 0x13),
      (badLocal (th.localAt f.b) (64 * dispLen f), 0x14)] = none := by
    rw [h.inRange, known_fmt]
    simp [badV_low h.vector, h.imm, h.reserved]
  simp only [execDspt, State.onThread_resident resident]
  rw [issue_legal h.ready.canRun encoded]
  simp only [hspec, h.launch]
  rfl

theorem execDspt_off (hd : l.disp = none) : execDspt t f s = .next (s.advance t 8) := by
  rw [execDspt_legal h, hd]

section
variable {d : DispDesc} (hd : l.disp = some d)
include hd

theorem execDspt_ends (hlen : dispLen f = 0) : execDspt t f s = .next
    ((if f.ext.toNat.testBit 10 then s.endLayers th.launch t (dispLayer f + 1) else s).advance t 8) := by
  rw [execDspt_legal h, hd]
  exact congrArg _ (if_pos hlen)

variable (hlen : dispLen f ≠ 0)
include hlen

theorem execDspt_asks (hnone : s.accs.find? (s.fetchOf t) = none) (hbusy : s.padBusy t = false) (hacquiring : s.acquiring t = false) :
    execDspt t f s = .next (s.enterPad t th 2 (th.localAt f.b) (64 * dispLen f) (.load (.row none)) .none false) := by
  rw [execDspt_legal h, hd, State.padFetch_asks hnone hbusy hacquiring]
  exact congrArg _ (if_neg hlen)

section
variable {id : Nat} {a : Acc} (hfound : s.accs.find? (s.fetchOf t) = some (id, a)) (hdone : a.st = .done)
include hfound hdone

theorem execDspt_row : execDspt t f s = .next (s.dsptRow { s with accs := s.accs.erase id } t th f l d (bytesOf (64 * dispLen f) a.value)) := by
  rw [execDspt_legal h, hd, State.padFetch_done hfound hdone]
  exact congrArg _ (if_neg hlen)

theorem execDspt_commits (hcommit : f.ext.toNat.testBit 10 = true)
    (hanswered : ∀ e ∈ s.copiesOf (shipOf t) th.launch t (th.sr f.d.toNat).toNat (dispLayer f), e.2.spec = true → e.2.st ≠ .sent)
    (hroom : ((s.ship (shipOf t)).ledger.length : Int) + s.dsptNeed t th f d ≤ 4096) :
    execDspt t f s = .next ((({ s with accs := s.accs.erase id } : State).dsptCommit t th f d (bytesOf (64 * dispLen f) a.value)).advance t 8) := by
  have none_sent : (s.copiesOf (shipOf t) th.launch t (th.sr f.d.toNat).toNat (dispLayer f)).any
      (fun e => e.2.spec && e.2.st == .sent) = false := by
    simpa using hanswered
  rw [execDspt_row h hd hlen hfound hdone]
  simp only [State.dsptRow, hcommit, none_sent, if_neg (not_lt.mpr hroom)]
  rfl

theorem execDspt_predicts (hcommit : f.ext.toNat.testBit 10 = false)
    (hroom : (s.ship (shipOf t)).ledger.length +
      ((s.specTargets t th f l d).filter (s.routeOk ((s.parcelOfShip (shipOf t)).getD 16))).length ≤ 4096) :
    execDspt t f s = .next ((({ s with accs := s.accs.erase id } : State).dsptSpec t th f l d (bytesOf (64 * dispLen f) a.value)).advance t 8) := by
  have room : ¬ (4096 < ((s.ship (shipOf t)).ledger.length : Int) +
      ((s.specTargets t th f l d).filter (s.routeOk ((s.parcelOfShip (shipOf t)).getD 16))).length) := by omega
  rw [execDspt_row h hd hlen hfound hdone]
  simp only [State.dsptRow, hcommit, if_neg room]
  rfl

end
end
end

/-- A dspt under the hold policy goes on once none of its copies is sent or held (R92). -/
theorem execDsptAccepted_goes (ht : s.threads.get? t = some th) (hwait : th.wait = .dspt)
    (haccepted : ∀ e ∈ (s.ship (shipOf t)).ledger, e.2.launch = th.launch → e.2.thread = t → e.2.spec = false → e.2.st ≠ .sent ∧ e.2.st ≠ .held) :
    execDsptAccepted t s = .next (s.setThread t { th with wait := .none }) := by
  have none_open : (s.ship (shipOf t)).ledger.any (fun e => e.2.launch == th.launch && e.2.thread == t && !e.2.spec &&
      (e.2.st == .sent || e.2.st == .held)) = false := by
    rw [List.any_eq_false]
    intro e he
    simpa [and_assoc] using haccepted e he
  simp [execDsptAccepted, ht, hwait, none_open]

/-! ### drecv -/

/-- The fields of a drecv that must be zero, a thread that is ready for it, and its launch. -/
structure DrecvRuns (s : State) (t : Nat) (th : Thread) (f : FmtE) (l : Launch) : Prop where
  ready : s.ready t th [.s f.a.toNat, .s f.d.toNat, .p (fld f.ext.toNat 3 2)]
  b : f.b = 0
  imm : f.imm = 0
  high : fld f.ext.toNat 31 4 = 0
  low : fld f.ext.toNat 1 0 = 0
  launch : s.launches.get? th.launch = some l

/-- Whether a record is of an expert, a layer and a launch, and no thread has taken it. -/
def Record.untakenOf (expert layer launch : Nat) (r : Record) : Bool :=
  r.expert == expert && r.layer == layer && r.launch == launch && r.taken.isNone

/-- The records that a drecv may take: whole, and speculative ones only while a shadow slot is free (R152, R163). -/
def SectionSt.offers (x : SectionSt) (expert layer launch : Nat) : List Record :=
  (x.records.filter (fun r => r.untakenOf expert layer launch && x.whole r)).filter (fun r => !r.spec || x.slot?.isSome)

theorem SectionSt.mem_offers {x : SectionSt} {expert layer launch : Nat} {r : Record} : r ∈ x.offers expert layer launch ↔
    r ∈ x.records ∧ r.untakenOf expert layer launch = true ∧ x.whole r = true ∧ (r.spec = false ∨ x.slot?.isSome = true) := by
  simp only [SectionSt.offers, List.mem_filter, Bool.and_eq_true, Bool.or_eq_true, Bool.not_eq_true', and_assoc]

/-- A fold that keeps the earlier of two records finds the first one. -/
theorem foldl_order_eq_argmin {g : Option Record → Record → Option Record} (hnone : ∀ r, g none r = some r)
    (hsome : ∀ q r, g (some q) r = if r.order < q.order then some r else some q) (rs : List Record) :
    rs.foldl g none = rs.argmin Record.order := by
  refine List.foldl_ext _ _ _ fun b r _ => ?_
  cases b with
  | none => exact hnone r
  | some q => exact hsome q r

/-- The record whose arrival precedes that of every other one is the first in order. -/
theorem argmin_order_eq {rs : List Record} {r : Record} (hr : r ∈ rs) (hfirst : ∀ q ∈ rs, q ≠ r → r.order < q.order) :
    rs.argmin Record.order = some r := by
  have least : ∀ q ∈ rs, q.order ≤ r.order → q = r := fun q hq hle => by
    by_contra other
    exact Nat.not_lt.mpr hle (hfirst q hq other)
  refine List.argmin_eq_some_iff.mpr ⟨hr, fun q hq => ?_, fun q hq hle => ?_⟩
  · by_cases same : q = r
    · rw [same]
    · exact (hfirst q hq same).le
  · rw [least q hq hle]

/-- A record noted as taken by a thread. -/
def State.recordTaken (s : State) (t : Nat) (r : Record) : State :=
  s.modSect (sectOf t) (fun y => { y with records := y.records.map (fun q => if q.addr = r.addr then { q with taken := some t } else q) })

/-- What a drecv that takes a record writes: its address, and true. -/
def drecvEff (th : Thread) (f : FmtE) (r : Record) : Eff :=
  { Eff.pd th (fld f.ext.toNat 3 2) true with s := [(f.d.toNat, BitVec.ofNat 32 r.addr)] }

/-- A thread that begins to speculate on a record in a shadow slot (R163). -/
def State.speculates (s : State) (t n : Nat) (th : Thread) (r : Record) : State :=
  (s.modSect (sectOf t) (fun y => { y with slots := setAt y.slots n (some t) })).setThread t
    { th with spec := some ⟨n, sectOf t, r.addr, th.pc.toNat, [], none, none, 0⟩ }

section
variable {l : Launch} (h : DrecvRuns s t th f l)
include h

theorem DrecvRuns.encoded : firstCode [(nz f.b || nz f.imm || fld f.ext.toNat 31 4 != 0 || fld f.ext.toNat 1 0 != 0, 0x12)] = none := by
  simp [h.b, h.imm, h.high, h.low]

theorem execDrecv_off (hd : l.disp = none) : execDrecv t f s = .next (s.wrote t th (Eff.pd th (fld f.ext.toNat 3 2) false) 8) := by
  obtain ⟨-, resident, hspec, -⟩ := id h.ready
  rw [execDrecv, issue_legal h.ready.canRun h.encoded]
  simp only [hspec, h.launch, hd, ← State.writeRegs_advance resident hspec (e := Eff.pd th (fld f.ext.toNat 3 2) false) rfl]
  rfl

variable {d : DispDesc} (hd : l.disp = some d)
include hd

theorem execDrecv_legal : execDrecv t f s = .next (
    let x := s.sect (sectOf t)
    let e := (th.sr f.a.toNat).toNat
    let cur := x.layers.getD e d.first
    match (x.offers e cur th.launch).argmin Record.order with
    | some r =>
      if r.spec then (((s.recordTaken t r).speculates t (x.slot?.getD 0) th r).writeRegs t (drecvEff th f r)).advance t 8
      else ((s.recordTaken t r).writeRegs t (drecvEff th f r)).advance t 8
    | none =>
      if !x.records.any (Record.untakenOf e cur th.launch) && decide (cur < l.closedTo) then
        ((s.modSect (sectOf t) (fun y => { y with layers := y.layers.set e (cur + 1) })).writeRegs t (Eff.pd th (fld f.ext.toNat 3 2) false)).advance t 8
      else s) := by
  obtain ⟨-, -, hspec, -⟩ := id h.ready
  rw [execDrecv, issue_legal h.ready.canRun h.encoded]
  simp only [hspec, h.launch, hd]
  rw [foldl_order_eq_argmin (fun _ => rfl) (fun _ _ => rfl)]
  rfl

/-- A drecv of which an offered record is the oldest takes it. -/
theorem execDrecv_oldest {e cur : Nat} {r : Record} (he : (th.sr f.a.toNat).toNat = e) (hcur : (s.sect (sectOf t)).layers.getD e d.first = cur)
    (hr : r ∈ (s.sect (sectOf t)).offers e cur th.launch)
    (hfirst : ∀ q ∈ (s.sect (sectOf t)).offers e cur th.launch, q ≠ r → r.order < q.order) :
    execDrecv t f s = .next (
      if r.spec then (((s.recordTaken t r).speculates t ((s.sect (sectOf t)).slot?.getD 0) th r).writeRegs t (drecvEff th f r)).advance t 8
      else (s.recordTaken t r).wrote t th (drecvEff th f r) 8) := by
  obtain ⟨-, resident, hspec, -⟩ := id h.ready
  have taken : (s.recordTaken t r).threads.get? t = some th := resident
  rw [execDrecv_legal h hd, ← State.writeRegs_advance taken hspec rfl]
  simp only [he, hcur, argmin_order_eq hr hfirst]

/-- With no untaken record of a layer that has closed, drecv answers false, and the expert goes on with the next layer. -/
theorem execDrecv_closed {e cur : Nat} (he : (th.sr f.a.toNat).toNat = e) (hcur : (s.sect (sectOf t)).layers.getD e d.first = cur)
    (hnone : (s.sect (sectOf t)).records.filter (Record.untakenOf e cur th.launch) = []) (hclosed : cur < l.closedTo) :
    execDrecv t f s = .next ((s.modSect (sectOf t) (fun y => { y with layers := y.layers.set e (cur + 1) })).wrote t th
      (Eff.pd th (fld f.ext.toNat 3 2) false) 8) := by
  obtain ⟨-, resident, hspec, -⟩ := id h.ready
  have none_left : ∀ r ∈ (s.sect (sectOf t)).records, ¬ Record.untakenOf e cur th.launch r = true := List.filter_eq_nil_iff.mp hnone
  have none_offered : (s.sect (sectOf t)).offers e cur th.launch = [] := by
    refine List.eq_nil_iff_forall_not_mem.mpr fun r hr => ?_
    obtain ⟨stands, untaken, -⟩ := SectionSt.mem_offers.mp hr
    exact none_left r stands untaken
  have kept : (s.modSect (sectOf t) (fun y => { y with layers := y.layers.set e (cur + 1) })).threads.get? t = some th := resident
  rw [execDrecv_legal h hd, ← State.writeRegs_advance kept hspec rfl]
  simp only [he, hcur, none_offered, List.any_eq_false.mpr none_left, hclosed]
  rfl

end

/-! ### dret -/

/-- An item in the log of a speculative thread that writes no register, and the step past its instruction, or the wait for the closure. -/
theorem State.logged_advance (ht : s.threads.get? t = some th) (sp : Spec) (i : SpecItem) (n : Nat) :
    (if logCost (i :: sp.log) ≤ 64 then (s.setThread t { th with spec := some { sp with log := i :: sp.log } }).advance t n else s.holdClosure t) =
      s.loggedAt t th sp Eff.none i n := by
  rw [State.advance_resident (State.setThread_get? ..), State.jumped, State.setThread_setThread, State.holdClosure_resident ht]
  rfl

/-- The legal fields of a dret, and a thread that can run it. -/
structure DretRuns (s : State) (t : Nat) (th : Thread) (f : FmtE) : Prop where
  runs : s.canRun t th [.s f.a.toNat, .s f.b.toNat]
  d : f.d = 0
  imm : f.imm = 0
  reserved : fld f.ext.toNat 31 10 = 0
  fmt : (ElemFmt.ofCode? (dispFmt f)).isSome = true
  inRange : badLocal (th.localAt f.a) (64 * dispLen f) = false

section
variable (h : DretRuns s t th f)
include h

theorem execDret_legal : execDret t f s = .next (match th.spec with
    | none =>
      if dispLen f = 0 then
        (if s.padBusy t || s.acquiring t then s else (s.returnRow t (th.localAt f.b) 0 (dispFmt f) 0).advance t 8)
      else match s.padFetch t th (3 + t % 4) (th.localAt f.a) (64 * dispLen f) none with
        | (none, u) => u
        | (some v, u) => (u.returnRow t (th.localAt f.b) (dispLen f) (dispFmt f) v).advance t 8
    | some sp =>
      if s.padBusy t || s.acquiring t then s
      else s.loggedAt t th sp Eff.none (.dret (th.localAt f.b) (th.localAt f.a) (dispLen f) (dispFmt f)) 8) := by
  have known_fmt := Option.isNone_eq_false_iff.mpr h.fmt
  have encoded : firstCode [(nz f.d || nz f.imm || fld f.ext.toNat 31 10 != 0, 0x12), ((ElemFmt.ofCode? (dispFmt f)).isNone, 0x13),
      (badLocal (th.localAt f.a) (64 * dispLen f), 0x14)] = none := by
    rw [h.inRange, known_fmt]
    simp [h.d, h.imm, h.reserved]
  simp only [execDret, State.onThread_resident h.runs.2.1]
  rw [issue_legal h.runs encoded]
  cases th.spec with
  | none => rfl
  | some sp => simp only [State.logged_advance h.runs.2.1]

section
variable (hbusy : s.padBusy t = false) (hacquiring : s.acquiring t = false)
include hbusy hacquiring

theorem execDret_logs {sp : Spec} (hspec : th.spec = some sp) : execDret t f s = .next (s.loggedAt t th sp Eff.none
    (.dret (th.localAt f.b) (th.localAt f.a) (dispLen f) (dispFmt f)) 8) := by
  rw [execDret_legal h, hspec, hbusy, hacquiring]
  rfl

variable (hspec : th.spec = none)
include hspec

theorem execDret_empty (hlen : dispLen f = 0) :
    execDret t f s = .next ((s.returnRow t (th.localAt f.b) 0 (dispFmt f) 0).advance t 8) := by
  rw [execDret_legal h, hspec, hbusy, hacquiring]
  exact congrArg _ (if_pos hlen)

theorem execDret_asks (hlen : dispLen f ≠ 0) (hnone : s.accs.find? (s.fetchOf t) = none) :
    execDret t f s = .next (s.enterPad t th (3 + t % 4) (th.localAt f.a) (64 * dispLen f) (.load (.row none)) .none false) := by
  rw [execDret_legal h, hspec, State.padFetch_asks hnone hbusy hacquiring]
  exact congrArg _ (if_neg hlen)

end

theorem execDret_returns {id : Nat} {a : Acc} (hspec : th.spec = none) (hlen : dispLen f ≠ 0)
    (hfound : s.accs.find? (s.fetchOf t) = some (id, a)) (hdone : a.st = .done) :
    execDret t f s = .next ((({ s with accs := s.accs.erase id } : State).returnRow t (th.localAt f.b) (dispLen f) (dispFmt f)
      a.value).advance t 8) := by
  rw [execDret_legal h, hspec, State.padFetch_done hfound hdone]
  exact congrArg _ (if_neg hlen)

end

end Sys2Proof.Machine

open Sys2Proof Sys2Proof.Machine

/-- Settles O16, from what each dispatch instruction with legal fields does of its row and of its section's records. -/
theorem dispatchInstructions : Obligations.DispatchInstructions := by
  refine ⟨?_, ?_, ?_, ?_, fun s t th => execDsptAccepted_goes⟩
  · intro s t th f l hready len layer loc commit fetched ha hi hreserved hfmt hrange hl
    have runs : DsptRuns s t th f l := ⟨hready, ha, hi, hreserved, hfmt, hrange, hl⟩
    refine ⟨execDspt_off runs, fun d hd => execDspt_ends runs hd, fun d hd => execDspt_asks runs hd, ?_⟩
    intro d id a hd hlen hfound hdone u row used
    exact ⟨execDspt_commits runs hd hlen hfound hdone, execDspt_predicts runs hd hlen hfound hdone⟩
  · intro s t th f l d pd x e cur untaken hready hb hi hhigh hlow hl hd offered
    have runs : DrecvRuns s t th f l := ⟨hready, hb, hi, hhigh, hlow, hl⟩
    refine ⟨?_, execDrecv_closed runs hd rfl rfl⟩
    intro r hr hfirst eff u
    have taken := execDrecv_oldest runs hd rfl rfl (SectionSt.mem_offers.mpr hr) (fun q hq => hfirst q (SectionSt.mem_offers.mp hq))
    refine ⟨fun hspec => ?_, fun n hspec hslot => ?_⟩
    · exact taken.trans (congrArg _ (if_neg (by simp [hspec])))
    · have slot : (s.sect (sectOf t)).slot?.getD 0 = n := by simp [show (s.sect (sectOf t)).slot? = some n from hslot]
      rw [slot] at taken
      exact taken.trans (congrArg _ (if_pos hspec))
  · intro s t th f l hready hb hi hhigh hlow hl hd
    exact execDrecv_off ⟨hready, hb, hi, hhigh, hlow, hl⟩ hd
  · intro s t th f hruns len row rec_ fetched hd hi hreserved hfmt hrange
    have runs : DretRuns s t th f := ⟨hruns, hd, hi, hreserved, hfmt, hrange⟩
    exact ⟨fun sp hspec hbusy hacquiring => execDret_logs runs hbusy hacquiring hspec,
      fun hspec hlen hbusy hacquiring => execDret_empty runs hbusy hacquiring hspec hlen,
      fun hspec hlen hnone hbusy hacquiring => execDret_asks runs hbusy hacquiring hspec hlen hnone,
      fun id a hspec hlen => execDret_returns runs hspec hlen⟩
end

section
/-! PROOFS. Token packets at an open township: what each kind does to the ledger, the inboxes and the threads, and the layers that settle
(R151, R153, R154, R156, R158, R167, R169, R173, R361). -/

namespace Sys2Proof.Machine

variable {s : State} {m : Tok} {t : Nat}

/-! ### A token packet taken at a township -/

/-- A token packet that is delivered to an open township under that township's own tag. -/
structure TokArrives (s : State) (m : Tok) (t : Nat) : Prop where
  deliverable : s.tokDeliverable m = true
  dst : m.dst = .agent t
  ship : t < 256
  opens : s.shipOpen t = true
  tag : s.tagOk t m.tag = true

theorem State.tokAt_taken {k : TokKind} (h : TokArrives s m t) (hk : m.kind = k) (f : Nat → State → State) : s.tokAt k m f = f t (s.takeTok m) := by
  have on_module : ¬ 256 ≤ t := Nat.not_le.mpr h.ship
  simp [State.tokAt, h.deliverable, hk, h.dst, on_module, h.opens, h.tag]

@[simp] theorem State.modCopy_launches (s : State) (t e : Nat) (f : Copy → Copy) : (s.modCopy t e f).launches = s.launches := rfl

/-! ### Copies that reach their host -/

section
variable (h : TokArrives s m t) (hk : m.kind = .tcopy)
include h hk

theorem execTcopy_kept (hlast : m.last = false) : execTcopy m s = .next ((s.takeTok m).addRow t m).2 := by
  simp [execTcopy, h.dst, State.tokAt_taken h hk, hlast]

theorem execTcopy_admitted {u : State} (hlast : m.last = true)
    (hadmit : ((s.takeTok m).addRow t m).2.admitAt t m.sub m ((s.takeTok m).addRow t m).1 = some u) :
    execTcopy m s = .next ((if m.spec then u.dspCount t 1 else u).sendTok (m.reply .admitCopy)) := by
  simp [execTcopy, h.dst, State.tokAt_taken h hk, hlast, hadmit]

theorem execTcopy_refused (hlast : m.last = true)
    (hfull : ((s.takeTok m).addRow t m).2.admitAt t m.sub m ((s.takeTok m).addRow t m).1 = none) :
    execTcopy m s = .next ((((s.takeTok m).addRow t m).2.modSect (t * 64 + m.sub)
      (fun x => { x with refused := x.refused ++ [(m.src.ep, m.expert, m.entry, m.launch)] })).sendTok (m.reply .refuse)) := by
  simp [execTcopy, h.dst, State.tokAt_taken h hk, hlast, hfull]

end

/-! ### Answers at the origin of a copy -/

/-- The state after the additions of a result row, weighted by the gate, into the combine row of the copy's token (R156). -/
def State.combineRow (s : State) (t : Nat) (m : Tok) (c : Copy) (d : DispDesc) (vs : List W32) : State :=
  vs.zipIdx.foldl (fun s (x : W32 × Nat) =>
    s.combine1 t m.entry c.launch ((d.base + c.token * d.stride + 4 * (c.got + x.2)) % 2 ^ 52) (f32Mul x.1 c.weight)) s

section
variable {c : Copy} {l : Launch} {d : DispDesc} (h : TokArrives s m t) (hc : (s.takeTok m).copyOf? t m = some c)
include h hc

theorem execAdmitCopy_taken (hk : m.kind = .admitCopy) (hl : (s.takeTok m).launches.get? c.launch = some l) :
    execAdmitCopy m s = .next (
      let w := (s.takeTok m).modCopy t m.entry (fun x => { x with st := .admitted, row := [] })
      if c.spec = true ∧ c.layer < l.closedTo then w.sendRefute t m.entry else w) := by
  rw [execAdmitCopy, State.tokAt_taken h hk]
  simp [hc, hl]

theorem execRoom_resends (hk : m.kind = .room) (hheld : c.st = .held) (hexpert : c.expert = m.expert) :
    execRoom m s = .next (((s.takeTok m).modCopy t m.entry (fun x => { x with st := .sent })).sendCopy t m.entry) := by
  rw [execRoom, State.tokAt_taken h hk]
  simp [hc, hheld, hexpert]

theorem execRefuse_speculative (hk : m.kind = .refuse) (hspec : c.spec = true) : execRefuse m s = .next ((s.takeTok m).dropCopy t m.entry) := by
  rw [execRefuse, State.tokAt_taken h hk]
  simp [hc, hspec]

/-- A committed copy that is refused follows the policy of its launch (Table 05-4). -/
theorem execRefuse_committed (hk : m.kind = .refuse) (hspec : c.spec = false) (hl : (s.takeTok m).launches.get? c.launch = some l)
    (hd : l.disp = some d) :
    execRefuse m s = .next (
      if d.policy = 0 then (s.takeTok m).spill t m.entry
      else if d.policy = 1 ∧ d.hold ≠ 0 then
        let w := (s.takeTok m).modCopy t m.entry (fun x => { x with st := .held, counted := true })
        if c.counted then w else w.dspCount t 5
      else (s.takeTok m).dropCounted t m.entry) := by
  rw [execRefuse, State.tokAt_taken h hk]
  simp [hc, hspec, hl, hd]

theorem execTret_combines (hk : m.kind = .tret) (hd : ((s.takeTok m).launches.get? c.launch).bind (fun l => l.disp) = some d) :
    execTret m s = .next (
      let vs := rowValues ((ElemFmt.ofCode? m.fmt).getD .none) m.row
      let w (st : CopySt) : State := ((s.takeTok m).combineRow t m c d vs).modCopy t m.entry (fun x => { x with st := st, got := x.got + vs.length })
      if m.last then (w .settled).settleCopy t m.entry else w .returned) := by
  rw [execTret, State.tokAt_taken h hk]
  cases hlast : m.last <;> simp only [hc, hd] <;> rfl

end

theorem execHoldExpired_held {ship e : Nat} {c : Copy} (hc : s.copy? ship e = some c) (hheld : c.st = .held) :
    execHoldExpired ship e s = .next ((s.dspCount ship 6).dropCounted ship e) := by
  simp [execHoldExpired, hc, hheld]

/-! ### Closure messages at the host of a record -/

section
variable {r : Record} (h : TokArrives s m t)
include h

section
variable (hr : (s.takeTok m).recordOf (t * 64 + m.sub) m = some r) (hfree : r.taken = none)
include hr hfree

theorem execConfirm_untaken (hk : m.kind = .confirm) : execConfirm m s = .next ((s.takeTok m).confirmRecord (t * 64 + m.sub) r m.weight) := by
  rw [execConfirm, State.tokAt_taken h hk]
  simp [hr, hfree]

theorem execRefute_untaken (hk : m.kind = .refute) : execRefute m s = .next ((s.takeTok m).releaseRecord t m.sub r) := by
  rw [execRefute, State.tokAt_taken h hk]
  simp [hr, hfree]

end

section
variable {n : Nat} {th : Thread} {sp : Spec} (hr : (s.takeTok m).recordOf (t * 64 + m.sub) m = some r) (htaken : r.taken = some n)
  (hth : (s.takeTok m).threads.get? n = some th) (hspec : th.spec = some sp)
include hr htaken hth hspec

theorem execConfirm_taken (hk : m.kind = .confirm) : execConfirm m s = .next ((s.takeTok m).confirmThread n sp m.weight) := by
  rw [execConfirm, State.tokAt_taken h hk]
  simp [hr, htaken, hth, hspec]

theorem execRefute_taken (hk : m.kind = .refute) :
    execRefute m s = .next (((s.takeTok m).refuteThread n sp).releaseRecord t m.sub r) := by
  rw [execRefute, State.tokAt_taken h hk]
  simp [hr, htaken, hth, hspec]

end

section
variable (hnone : (s.takeTok m).recordOf (t * 64 + m.sub) m = none)
include hnone

theorem execConfirm_saved (hk : m.kind = .confirm) :
    execConfirm m s = .next ((s.takeTok m).saveClosure t (t * 64 + m.sub) m (some m.weight)) := by
  rw [execConfirm, State.tokAt_taken h hk]
  simp [hnone]

theorem execRefute_saved (hk : m.kind = .refute) : execRefute m s = .next ((s.takeTok m).saveClosure t (t * 64 + m.sub) m none) := by
  rw [execRefute, State.tokAt_taken h hk]
  simp [hnone]

end
end

/-! ### Settled layers -/

section
variable {id : Nat} {l : Launch} {d : DispDesc} (hl : s.launches.get? id = some l) (hd : l.disp = some d)
include hl hd

theorem execLayerSettled_unchanged (hold : s.settledTo id l ≤ d.first ∨ s.settledTo id l ≤ l.signalled) : execLayerSettled id s = .next s := by
  have not_grown : ¬ (d.first < s.settledTo id l ∧ l.signalled < s.settledTo id l) := by omega
  simp only [execLayerSettled, hl, hd, if_neg not_grown]

section
variable (hfirst : d.first < s.settledTo id l) (hgrown : l.signalled < s.settledTo id l)
include hfirst hgrown

/-- Settled layers that have grown are recorded, and a fence is signalled where there is one and the launch's context is in use. -/
theorem execLayerSettled_grown : execLayerSettled id s = .next (
    let s1 := s.setLaunch id { l with signalled := s.settledTo id l }
    if d.fence = 0 then s1
    else (s.ctxs.get? (l.ctx % 4096)).elim s1 (fun c => s1.hubSignal (l.ctx % 4096) c d.fence (s.settledTo id l) l.tol)) := by
  have same_ctxs (x : Launch) : (s.setLaunch id x).ctxs = s.ctxs := rfl
  simp only [execLayerSettled, hl, hd, if_pos (And.intro hfirst hgrown), same_ctxs]
  cases s.ctxs.get? (l.ctx % 4096) <;> rfl

theorem execLayerSettled_no_fence (hfence : d.fence = 0) :
    execLayerSettled id s = .next (s.setLaunch id { l with signalled := s.settledTo id l }) := by
  rw [execLayerSettled_grown hl hd hfirst hgrown]
  exact congrArg _ (if_pos hfence)

theorem execLayerSettled_signals {c : Context} (hfence : d.fence ≠ 0) (hc : s.ctxs.get? (l.ctx % 4096) = some c) :
    execLayerSettled id s = .next ((s.setLaunch id { l with signalled := s.settledTo id l }).hubSignal (l.ctx % 4096) c d.fence
      (s.settledTo id l) l.tol) := by
  rw [execLayerSettled_grown hl hd hfirst hgrown, hc]
  exact congrArg _ (if_neg hfence)

theorem execLayerSettled_no_context (hc : s.ctxs.get? (l.ctx % 4096) = none) :
    execLayerSettled id s = .next (s.setLaunch id { l with signalled := s.settledTo id l }) := by
  rw [execLayerSettled_grown hl hd hfirst hgrown, hc]
  exact congrArg _ (ite_self _)

end
end

end Sys2Proof.Machine

open Sys2Proof Sys2Proof.Machine

/-- Settles O17, from the packet taken at its township, what each kind does there, and the settled layers of a launch. -/
theorem tokenMessages : Obligations.TokenMessages := by
  refine ⟨?_, fun s ship e c => execHoldExpired_held, ?_⟩
  · intro s m t hdeliverable hdst ht hopen htag u
    have arrives : TokArrives s m t := ⟨hdeliverable, hdst, ht, hopen, htag⟩
    refine ⟨?_, fun hk => execTcopy_kept arrives hk, ?_, ?_, ?_, ?_, ?_, ?_, ?_, ?_, ?_⟩
    · intro hk hlast v
      exact ⟨fun s2 => execTcopy_admitted arrives hk hlast, execTcopy_refused arrives hk hlast⟩
    · intro hk c l hc hl
      exact execAdmitCopy_taken arrives hc hk hl
    · intro hk c hc
      exact execRefuse_speculative arrives hc hk
    · intro hk c l d hc hspec hl hd
      have refused := execRefuse_committed arrives hc hk hspec hl hd
      refine ⟨fun spills => ?_, fun one holds => ?_, fun drops => ?_⟩
      · exact refused.trans (congrArg _ (if_pos spills))
      · have not_spilled : d.policy ≠ 0 := by omega
        exact refused.trans (congrArg _ ((if_neg not_spilled).trans (if_pos ⟨one, holds⟩)))
      · have not_spilled : d.policy ≠ 0 := by omega
        have not_held : ¬ (d.policy = 1 ∧ d.hold ≠ 0) := by omega
        exact refused.trans (congrArg _ ((if_neg not_spilled).trans (if_neg not_held)))
    · intro hk c hc
      exact execRoom_resends arrives hc hk
    · intro hk r hr hfree
      exact execConfirm_untaken arrives hr hfree hk
    · intro hk r hr hfree
      exact execRefute_untaken arrives hr hfree hk
    · intro r n th sp hr htaken hth hspec
      exact ⟨execConfirm_taken arrives hr htaken hth hspec, execRefute_taken arrives hr htaken hth hspec⟩
    · intro hnone
      exact ⟨execConfirm_saved arrives hnone, execRefute_saved arrives hnone⟩
    · intro hk c d hc hd
      exact execTret_combines arrives hc hk hd
  · intro s id l d hl hd b s1
    exact ⟨execLayerSettled_no_fence hl hd, fun c hfirst hgrown => execLayerSettled_signals hl hd hfirst hgrown,
      execLayerSettled_no_context hl hd, execLayerSettled_unchanged hl hd⟩
end

section
/-! PROOFS. Plat edits, easement maps and expert routes: the commands of a parcel that reach their meaning, and the change that each makes once
its checks pass (R146, R147, R463, R464, R466, R473, R474, R502). -/

namespace Sys2Proof.Machine

variable {s : State} {q i op : Nat} {x : Queue} {c : Cmd}

/-! ### A parcel command that reaches its meaning -/

theorem parcelServe_runs {f : Req → State} (hruns : s.runs q i op x c) (hidle : s.parcelBusy = false) (hhalted : s.haltedFor q i op = false) :
    s.parcelServe q i op f = f (s.req q i x c) := by
  simp [State.parcelServe, hidle, hhalted, serve_runs hruns]

/-- A command that changes a plat has no accesses to wait for before it has begun. -/
theorem platWait_parcelServe {f : Req → State} (hruns : s.runs q i op x c) (hidle : s.parcelBusy = false) (hhalted : s.haltedFor q i op = false) :
    (s.platWait q i op).parcelServe q i op f = f (s.req q i x c) := by
  rw [State.platWait, serving_runs hruns, parcelServe_runs hruns hidle hhalted]

/-- EASE_DESTROY names no parcel, and so none that is halted. -/
theorem haltedFor_easeDestroy (s : State) (q i : Nat) : s.haltedFor q i 0x077 = false := rfl

/-! ### Packet checks of ranges -/

@[simp] theorem firstBad_nil : firstBad [] = none := rfl

@[simp] theorem firstBad_pass (b : Nat) (l : List (Bool × Nat)) : firstBad ((false, b) :: l) = firstBad l := by
  simp [firstBad]

/-- A field within its greatest value passes. -/
theorem firstBad_atMost {v top : Nat} (h : v ≤ top) (b : Nat) (l : List (Bool × Nat)) : firstBad ((decide (top < v), b) :: l) = firstBad l := by
  rw [decide_eq_false (Nat.not_lt.mpr h), firstBad_pass]

/-- A field below its bound passes. -/
theorem firstBad_below {v bound : Nat} (h : v < bound) (b : Nat) (l : List (Bool × Nat)) : firstBad ((decide (bound ≤ v), b) :: l) = firstBad l := by
  rw [decide_eq_false (Nat.not_le.mpr h), firstBad_pass]

/-- The parcel of a command is one of 16. -/
theorem firstBad_parcel {p : Nat} (h : p < 16) : firstBad [(decide (15 < p), 8)] = none :=
  firstBad_atMost (Nat.le_of_lt_succ h) 8 []

/-- The first granule of a command is one of 2^18. -/
theorem firstBad_granule {first : Nat} (h : first < 2 ^ 18) : firstBad [(decide (2 ^ 18 ≤ first), 16)] = none :=
  firstBad_below h 16 []

/-! ### PLAT_EDIT -/

section
variable {p first : Nat} (hp : pb c.pkt 8 8 = p) (hparcel : p < 16) (hconf : s.confidential = false) (hidle : s.parcelBusy = false)
  (hheld : s.platHeld p = false)
include hp hparcel hconf hidle hheld

/-- PLAT_EDIT puts its entries where each of them keeps R463, none of those it replaces names an easement, and the run misses a busy pool. -/
theorem execPlatEdit_puts {op cnt dpa : Nat} {new : List (Nat × Nat)} (hhalted : s.haltedFor q i 0x073 = false) (hruns : s.runs q i 0x073 x c)
    (hop : pb c.pkt 9 9 = op) (hfirst : pb c.pkt 19 16 = first) (hcnt : pb c.pkt 23 20 = cnt) (hdpa : pb c.pkt 27 24 = dpa)
    (hreserved : reservedByte c.pkt [(8, 9), (16, 27)] = none) (hfirst_low : first < 2 ^ 18) (hdpa_low : dpa < 2 ^ 18) (hop_known : op ≤ 2)
    (hrange : first + cnt ≤ 2 ^ 18) (hcount : 0 < cnt) (hexists : s.parcels.has p = true)
    (hnew : (upTo cnt).map (fun j => (first + j, if op = 0 then 0 else platMap (if op = 1 then 0 else 2) (dpa + j))) = new)
    (hgood : ∀ e ∈ new, s.platBad p e.2 = none) (heased : ∀ e ∈ new, fld (s.platEntry p e.1 none) 2 1 ≠ 1) (hpool : s.poolBusy p first cnt = false) :
    execPlatEdit q i s = .next ((s.platPut p new).platFinish (s.req q i x c) p) := by
  have bits_ok : firstBad [(decide (2 ^ 18 ≤ first), 16), (decide (2 ^ 18 ≤ dpa), 24)] = none := by
    rw [firstBad_below hfirst_low, firstBad_below hdpa_low, firstBad_nil]
  have ranges_ok : firstBad [(decide (15 < p), 8), (decide (2 < op), 9), (decide (2 ^ 18 < first + cnt) && cnt != 0, 20)] = none := by
    rw [firstBad_atMost (Nat.le_of_lt_succ hparcel), firstBad_atMost hop_known, decide_eq_false (Nat.not_lt.mpr hrange), Bool.false_and,
      firstBad_pass, firstBad_nil]
  have no_reason : new.filterMap (fun e => s.platBad p e.2) = [] := List.filterMap_eq_nil_iff.mpr hgood
  have none_eased : new.any (fun e => (s.platEntry p e.1 none).testBit 0 && fld (s.platEntry p e.1 none) 2 1 == 1) = false := by
    rw [List.any_eq_false]
    intro e he
    simp [heased e he]
  rw [execPlatEdit, platWait_parcelServe hruns hidle hhalted]
  simp only [hp, hop, hfirst, hcnt, hdpa, packetCheck_none hreserved bits_ok ranges_ok, hconf, hexists, hcount.ne', hnew, no_reason, none_eased,
    hpool, hheld]
  rfl

/-! ### Easements -/

section
variable {e : Nat} {y : Parcel} {z : Easement} (he : pb c.pkt 9 9 = e) (hy : s.parcels.get? p = some y) (hz : s.eases.get? e = some z)
include he hy hz

/-- EASE_MAP puts the entries of an easement that is not mapped at granules that hold no valid one. -/
theorem execEaseMap_maps (hfirst : pb c.pkt 19 16 = first) (hhalted : s.haltedFor q i 0x075 = false) (hruns : s.runs q i 0x075 x c)
    (hreserved : reservedByte c.pkt [(8, 9), (16, 19)] = none) (hfirst_low : first < 2 ^ 18) (hfits : first + z.size ≤ 2 ^ 18)
    (hunmapped : ∀ m ∈ y.eases, m.2 ≠ e) (hinvalid : ∀ j, j < z.size → (s.platEntry p (first + j) none).testBit 0 = false) :
    execEaseMap q i s = .next ((({ s with parcels := s.parcels.set p { y with eases := y.eases.set first e } }).platPut p
      ((upTo z.size).map (fun j => (first + j, platEase e j)))).platFinish (s.req q i x c) p) := by
  have not_mapped : y.eases.any (fun m => m.2 == e) = false := by
    rw [List.any_eq_false]
    intro m hm
    simp [hunmapped m hm]
  have none_valid : (upTo z.size).any (fun j => (s.platEntry p (first + j) none).testBit 0) = false := by
    rw [List.any_eq_false]
    intro j hj
    simp only [hinvalid j (List.mem_range.mp hj), Bool.false_eq_true, not_false_eq_true]
  rw [execEaseMap, platWait_parcelServe hruns hidle hhalted]
  simp only [hp, he, hfirst, packetCheck_none hreserved (firstBad_granule hfirst_low) (firstBad_parcel hparcel), hconf, hy, hz,
    if_neg (Nat.not_lt.mpr hfits), not_mapped, none_valid, hheld]
  rfl

/-- EASE_UNMAP clears the entries of an easement where it is mapped. -/
theorem execEaseUnmap_clears (hhalted : s.haltedFor q i 0x076 = false) (hruns : s.runs q i 0x076 x c)
    (hreserved : reservedByte c.pkt [(8, 9)] = none) (hmapped : y.eases.find? (fun z => z.2 == e) = some (first, e)) :
    execEaseUnmap q i s = .next ((({ s with parcels := s.parcels.set p { y with eases := y.eases.erase first } }).platPut p
      ((upTo z.size).map (fun j => (first + j, 0)))).platFinish (s.req q i x c) p) := by
  rw [execEaseUnmap, platWait_parcelServe hruns hidle hhalted]
  simp only [hp, he, packetCheck_none hreserved firstBad_nil (firstBad_parcel hparcel), hconf, hy, hz, hmapped, hheld]
  rfl

end
end

/-- EASE_DESTROY removes an easement that is mapped nowhere and holds no weight set (R474). -/
theorem execEaseDestroy_removes {e : Nat} {z : Easement} (he : pb c.pkt 9 9 = e) (hidle : s.parcelBusy = false) (hruns : s.runs q i 0x077 x c)
    (hreserved : reservedByte c.pkt [(9, 9)] = none) (hconf : s.confidential = false) (hz : s.eases.get? e = some z)
    (hunmapped : s.easeParcels e = []) (hset : z.wset = 0) :
    execEaseDestroy q i s = .next (({ s with eases := s.eases.erase e }).gate.answer q i okAnswer) := by
  rw [execEaseDestroy, parcelServe_runs hruns hidle (haltedFor_easeDestroy s q i)]
  simp only [he, packetCheck_none hreserved firstBad_nil firstBad_nil, hconf, hz, hunmapped, hset]
  rfl

/-! ### Expert routes -/

/-- The entries of an EROUTE_SET staged in the shadow of a parcel's route table (R146). -/
def State.stageRoutes (s : State) (p : Nat) (es : List (Nat × Nat)) : State :=
  { s with shadow := (es.filter (fun e => decide (e.1 < 4096))).foldl (fun m e => m.set (erouteKey p e.1) (BitVec.ofNat 64 e.2)) s.shadow }

theorem execErouteSet_captures {p : Nat} (es : List (Nat × Nat)) (hruns : s.runs q i 0x079 x c) (hpf : x.fn = 0) (hconf : s.confidential = false)
    (hexists : s.parcels.has p = true) (hpending : (s.commitOf (erouteCommit p)).pending.isSome = false) :
    execErouteSet q i p es s = .next
      ((((s.stageRoutes p es).applyBit .dspErouteCommit p (erouteCommit p)).discardBit .dspErouteCommit p (erouteCommit p)).modCmd q i
        (fun c => { c with st := .serving [0xF032, p] })) := by
  rw [execErouteSet, serve_runs hruns]
  simp [hpf, hconf, hexists, hpending, State.stageRoutes]

end Sys2Proof.Machine

open Sys2Proof Sys2Proof.Machine

/-- Settles O38, from the change that each command makes once its checks pass. -/
theorem platsEasementsAndRoutes : Obligations.PlatsEasementsAndRoutes := by
  refine ⟨?_, ?_, ?_, ?_⟩
  · intro s q i x c hidle hhalted hruns p op first cnt dpa hreserved hfirst hdpa hparcel hop hrange hcount hconf hexists new hgood heased hpool hheld
    exact execPlatEdit_puts rfl hparcel hconf hidle hheld hhalted hruns rfl rfl rfl rfl hreserved hfirst hdpa hop hrange hcount hexists rfl
      hgood heased hpool
  · intro s q i x c y z hidle p e first hparcel hconf hy hz hheld
    exact ⟨execEaseMap_maps rfl hparcel hconf hidle hheld rfl hy hz rfl, fun at_ => execEaseUnmap_clears rfl hparcel hconf hidle hheld rfl hy hz⟩
  · intro s q i x c z hidle hruns hreserved hconf hz hunmapped hset
    exact execEaseDestroy_removes rfl hidle hruns hreserved hconf hz hunmapped hset
  · intro s q i p es x c hruns hpf hconf hexists hpending
    exact execErouteSet_captures es hruns hpf hconf hexists hpending
end

section
/-! PROOFS. Sequences and steps: the admission and the retirement of a sequence, and the opening and the closure of a step (R185 to R187,
R189 to R196). -/

namespace Sys2Proof.Machine

variable {s : State} {q i n : Nat} {x : Queue} {c : Cmd} {y : Context}

/-- A command goes on where none of the table entries that it reads lies on a FAILED channel (R182). -/
theorem State.tableReads_kept {k : State} {offs : List Nat} (p : Nat) (h : ∀ off ∈ offs, s.rsvLost off = false) : s.tableReads offs p k = k := by
  have none_lost : offs.find? s.rsvLost = none := List.find?_eq_none.mpr fun off hoff => by simp [h off hoff]
  rw [State.tableReads, none_lost]

/-! ### SEQ_ADMIT (R185 to R187) -/

/-- The sequence that a SEQ_ADMIT packet asks for, at a run of entries and with the next ORDER. -/
def admittedSeq (p n : Nat) (y : Context) (cbase order : Nat) : Seq :=
  ⟨.joining, pb p 20 20, pb p 21 21, y.parcel, cbase, pb p 11 8, 0, 0, pb p 15 12, 0, order, pb p 27 24, ctxHandle n y⟩

/-- A sequence entered in the table under a number, with a run of entries that hold no frame yet. -/
def State.enterSeq (s : State) (sn need : Nat) (z : Seq) : State :=
  { s with
    seqs := s.seqs.set sn z
    orders := s.orders.set z.parcel ((z.order + 1) % 2 ^ 32)
    cad := (upTo need).foldl (fun t k => t.set (z.cbase + k) ⟨sn, none, 0⟩) s.cad }

/-- A sequence entered and given frames, its entries no longer cached. -/
def State.admitSeq (s : State) (sn need frames : Nat) (z : Seq) : State :=
  let taken := s.takeFrames frames (s.freeFrames z.parcel)
  let entered := taken.2.enterSeq sn need z
  (entered.attach sn (entered.batch z.parcel z.batch).steps 0 taken.1).cadInvalidate z.parcel ((upTo need).map (fun k => z.cbase + k))

/-- SEQ_ADMIT makes a joining sequence where a number, a run of entries and enough frames are free. -/
theorem execSeqAdmit_admits {mx prompt sh sn cb need frames ord : Nat} (hruns : s.runs q i 0x050 x c) (hnamed : s.named c n y)
    (hmx : pb c.pkt 11 8 = mx) (hprompt : pb c.pkt 15 12 = prompt) (hsh : pb c.pkt 21 21 = sh)
    (hreserved : reservedByte c.pkt [(8, 21), (24, 27)] = none) (hmx_pos : mx ≠ 0) (hfits : prompt ≤ mx) (hsh_low : 6 ≤ sh) (hsh_high : sh ≤ 19)
    (hpage : 2 ^ sh ≤ s.pageSize y.parcel) (hneed : ceilDiv mx (s.tpp y.parcel sh) = need)
    (hframes : min (ceilDiv (prompt + pb c.pkt 19 16) (s.tpp y.parcel sh)) need = frames)
    (hnumber : s.freeSeq y.parcel = some sn) (hrun : s.entryRun y.parcel need = some cb)
    (hroom : frames + s.growthFloor y.parcel ≤ (s.freeFrames y.parcel).length)
    (hreads : ∀ off ∈ seqOff sn :: (upTo need).map (fun k => cadOff (cb + k)), s.rsvLost off = false) (hord : s.orders.getD y.parcel 0 = ord) :
    execSeqAdmit q i s =
      .next ((s.admitSeq sn need frames (admittedSeq c.pkt n y cb ord)).answer q i (okResult (sn + ord * 2 ^ 32))) := by
  have ranges_ok : firstBad [(mx == 0 || decide (mx < prompt), 8), (decide (sh < 6) || decide (19 < sh), 21)] = none := by
    rw [beq_eq_false_iff_ne.mpr hmx_pos, Bool.false_or, firstBad_atMost hfits, decide_eq_false (Nat.not_lt.mpr hsh_low), Bool.false_or,
      firstBad_atMost hsh_high, firstBad_nil]
  have enough : ¬ (s.freeFrames y.parcel).length - s.growthFloor y.parcel < frames := by omega
  rw [execSeqAdmit, serve_runs hruns, withCtx_named hnamed]
  simp only [hmx, hprompt, hsh, packetCheck_none hreserved firstBad_nil ranges_ok, if_neg (Nat.not_lt.mpr hpage), hneed, hframes,
    hnumber, hrun, if_neg enough, State.tableReads_kept _ hreads, hord]
  subst hmx hprompt hsh
  rfl

/-! ### SEQ_RETIRE (R195, R196) -/

theorem execSeqRetire_retires {sn : Nat} {z : Seq} (hruns : s.runs q i 0x051 x c) (hnamed : s.named c n y) (hsn : fld c.pkt 77 64 = sn)
    (hcheck : packetCheck c.pkt [(8, 9)] [(fld c.pkt 79 78 != 0, 9)] [] = none) (hreads : ∀ off ∈ s.retireReads sn, s.rsvLost off = false)
    (hz : s.seqs.get? sn = some z) (hparcel : z.parcel = y.parcel) : execSeqRetire q i s = .next ((s.retireSeq sn).answer q i okAnswer) := by
  rw [execSeqRetire, serve_runs hruns, withCtx_named hnamed]
  simp only [hcheck, hsn, State.tableReads_kept _ hreads, hz, hparcel, ne_eq, not_true_eq_false, if_false, reply_req]

/-! ### STEP_OPEN (R189 to R191) -/

/-- What STEP_OPEN does for the sequences of a batch, which may each append so many tokens. -/
def State.stepAcc (s : State) (p b grow : Nat) : StepAcc := (s.stepSeqs p b).foldl (stepSeq p grow) ⟨s, [], 0, 0, []⟩

/-- The state of a step's sequences, with the step of their batch open. -/
def StepAcc.opened (a : StepAcc) (p b : Nat) : State :=
  { a.s with batches := a.s.batches.set (batchKey p b) ⟨true, (a.s.batch p b).steps⟩ }

/-- The counts that STEP_OPEN returns: list entries, stalled sequences and appending ones. -/
def StepAcc.counts (a : StepAcc) : Nat := min a.slots.length (2 ^ 32 - 1) + min a.stalled 65535 * 2 ^ 32 + min a.appends 65535 * 2 ^ 48

/-- STEP_OPEN opens a batch whose list fits, once the list, where it has entries, is written. -/
theorem execStepOpen_opens {b : Nat} {a : StepAcc} {s2 : State} (hruns : s.runs q i 0x052 x c) (hnamed : s.named c n y)
    (hb : pb c.pkt 8 8 = b) (ha : s.stepAcc y.parcel b (pb c.pkt 15 12) = a) (hreserved : reservedByte c.pkt [(8, 8), (12, 27)] = none)
    (hpva : pvaHigh c.pkt 16 = false) (halign : pb c.pkt 23 16 % 16 = 0) (hlen : pb c.pkt 27 24 ≠ 0) (hclosed : (s.batch y.parcel b).open_ = false)
    (hreads : ∀ off ∈ s.stepReads y.parcel b, s.rsvLost off = false) (hfits : a.slots.length ≤ pb c.pkt 27 24)
    (hwritten : (if a.slots.isEmpty then .ok (a.opened y.parcel b) else (a.opened y.parcel b).engineWrite y (pb c.pkt 23 16) a.slots.flatten) = .ok s2) :
    execStepOpen q i s = .next ((s2.cadInvalidate y.parcel a.changed).answer q i (okResult a.counts)) := by
  have ranges_ok : firstBad [(pb c.pkt 23 16 % 16 != 0, 16), (pb c.pkt 27 24 == 0, 24)] = none := by
    simp [halign, beq_eq_false_iff_ne.mpr hlen]
  have bits_ok : firstBad [(pvaHigh c.pkt 16, 16)] = none := by simp [hpva]
  simp only [State.stepAcc, StepAcc.opened] at ha hwritten
  rw [execStepOpen, serve_runs hruns, withCtx_named hnamed]
  simp only [packetCheck_none hreserved bits_ok ranges_ok, hb, hclosed, State.tableReads_kept _ hreads, ha,
    if_neg (Nat.not_lt.mpr hfits), hwritten]
  rfl

/-! ### STEP_CLOSE and STEP_CLOSURE (R193, R194) -/

/-- STEP_CLOSE waits for the closure of the step that is open as it starts. -/
theorem execStepClose_waits {b : Nat} (hruns : s.runs q i 0x053 x c) (hnamed : s.named c n y) (hb : pb c.pkt 8 8 = b)
    (hcheck : packetCheck c.pkt [(8, 8)] [] [] = none) (hopen : (s.batch y.parcel b).open_ = true) :
    execStepClose q i s = .next (s.modCmd q i (fun z => { z with st := .serving [(s.batch y.parcel b).steps] })) := by
  rw [execStepClose, serve_runs hruns, withCtx_named hnamed]
  simp only [hcheck, hb, hopen, if_true, keepServing_req]

/-- The sequences of a batch. -/
def State.batchSeqs (s : State) (p b : Nat) : Tbl Seq := s.seqs.filter (fun e => e.2.parcel == p && e.2.batch == b)

/-- The tokens that the running sequences of a batch have appended made final. -/
def State.finalTokens (s : State) (p b : Nat) : State :=
  { s with seqs := s.seqs.mapV (fun _ z => if z.parcel = p ∧ z.batch = b ∧ z.st = SeqSt.running then { z with tokens := z.ptokens } else z) }

/-- A step closed: tokens final, leaving sequences released, and the step counted. -/
def State.closeStep (s : State) (p b : Nat) : State :=
  let released := ((s.batchSeqs p b).filter (fun e => e.2.st == .leaving)).foldl (fun s e => s.releaseSeq e.1) (s.finalTokens p b)
  { released with batches := released.batches.set (batchKey p b) ⟨false, (s.batch p b).steps + 1⟩ }

theorem execStepClosure_closes {b : Nat} {d : List Nat} (hserves : s.serves q i 0x053 x c d) (hnamed : s.named c n y) (hb : pb c.pkt 8 8 = b)
    (hopen : (s.batch y.parcel b).open_ = true) (hstep : d.headD 0 = (s.batch y.parcel b).steps) (hspec : s.specPending y.parcel = false)
    (hreads : ∀ e ∈ s.batchSeqs y.parcel b, ∀ off ∈ (if e.2.st = .leaving then s.seqReads e.1 else [seqOff e.1]), s.rsvLost off = false) :
    execStepClosure q i s = .next ((s.closeStep y.parcel b).answer q i okAnswer) := by
  have none_lost : ∀ off ∈ ((s.batchSeqs y.parcel b).map (fun e => if e.2.st = .leaving then s.seqReads e.1 else [seqOff e.1])).flatten,
      s.rsvLost off = false := by
    intro off hoff
    obtain ⟨offs, hoffs, hoff⟩ := List.mem_flatten.mp hoff
    obtain ⟨e, he, rfl⟩ := List.mem_map.mp hoffs
    exact hreads e he off hoff
  rw [execStepClosure, serving_serves hserves, withCtx_named hnamed]
  simp only [hb, hopen, hstep, hspec, Bool.not_true, bne_self_eq_false, Bool.or_self, Bool.false_eq_true, if_false]
  exact congrArg _ (State.tableReads_kept _ none_lost)

end Sys2Proof.Machine

open Sys2Proof Sys2Proof.Machine

/-- Settles O35, from what each command makes of the sequences once its checks pass. -/
theorem sequencesAndSteps : Obligations.SequencesAndSteps := by
  constructor
  · intro s q i n sn cb x c y hruns hnamed p mx prompt sh hreserved hmx hfits hlow hhigh hpage tpp need f hnumber hrun hroom hreads
    exact execSeqAdmit_admits hruns hnamed rfl rfl rfl hreserved hmx hfits hlow hhigh hpage rfl rfl hnumber hrun hroom hreads rfl
  · intro s q i n x c y hnamed
    refine ⟨?_, ?_, ?_, ?_⟩
    · intro z hruns hcheck hreads hz hparcel
      exact execSeqRetire_retires hruns hnamed rfl hcheck hreads hz hparcel
    · intro hruns hreserved hpva halign hlen b hclosed hreads a hfits
      have opens {s2 : State} := execStepOpen_opens (s2 := s2) hruns hnamed rfl rfl hreserved hpva halign hlen hclosed hreads hfits
      exact ⟨fun empty => opens (if_pos (List.isEmpty_iff.mpr empty)),
        fun s2 listed written => opens ((if_neg (mt List.isEmpty_iff.mp listed)).trans written)⟩
    · intro hruns hcheck hopen
      exact execStepClose_waits hruns hnamed rfl hcheck hopen
    · intro d hserves hopen hstep hspec b mine hreads
      exact execStepClosure_closes hserves hnamed rfl hopen hstep hspec hreads
end

section
/-! PROOFS. Gather streams and the retirement of a context: a stream at its bound, the next chunk of a stream, and CTX_RETIRE up to its XINVs
(R199 to R203, R360, R420). -/

namespace Sys2Proof.Machine

variable {s : State} {ship sec ln : Nat} {l : Launch} {g : GatherDesc}

/-! ### GATHER_STREAM_START (R199 to R202) -/

/-- The stream that a gather list item starts: at its bound where its sequence is live, and else ended. -/
def State.startedStream (s : State) (ln : Nat) (l : Launch) (item : Nat) : Stream :=
  let bound := s.streamBound l.parcel item
  match bound.2.2 with
  | some z =>
    let tpp := s.tpp z.parcel z.shift
    let frames := (upTo z.backed).filterMap (fun pg => if pb item 7 4 / tpp ≤ pg ∧ pg * tpp < pb item 7 4 + bound.1 then
      (s.cad.get? (z.cbase + pg)).bind (fun e => e.frame) else none)
    ⟨ln, s.tick, fld item 13 0, pb item 7 4, bound.1, 0, pb item 13 12, pb item 3 2, 0, frames, z.cbase, ceilDiv z.max tpp, z.shift,
      s.pageSize z.parcel, s.poolPpa z.parcel, bound.2.1, decide (bound.1 = 0)⟩
  | none => ⟨ln, s.tick, fld item 13 0, pb item 7 4, 0, 0, 0, 0, 0, [], 0, 0, 0, 0, 0, bound.2.1, true⟩

/-- What a started stream shows whether or not its sequence is live. -/
theorem State.startedStream_fields (s : State) (ln : Nat) (l : Launch) (item : Nat) :
    (s.startedStream ln l item).launch = ln ∧ (s.startedStream ln l item).seq = fld item 13 0 ∧ (s.startedStream ln l item).first = pb item 7 4 ∧
      (s.startedStream ln l item).chunk = 0 ∧ (s.startedStream ln l item).status = (s.streamBound l.parcel item).2.1 := by
  unfold State.startedStream
  dsimp only
  split <;> exact ⟨rfl, rfl, rfl, rfl, rfl⟩

/-- The rows of a stream of a live sequence are those of its bound. -/
theorem State.startedStream_live (ln : Nat) {item : Nat} (h : (s.streamBound l.parcel item).2.2.isSome = true) :
    (s.startedStream ln l item).rows = (s.streamBound l.parcel item).1 ∧
      (s.startedStream ln l item).ended = decide ((s.streamBound l.parcel item).1 = 0) := by
  obtain ⟨z, hz⟩ := Option.isSome_iff_exists.mp h
  simp only [State.startedStream, hz, and_self]

theorem State.startedStream_none (ln : Nat) {item : Nat} (h : (s.streamBound l.parcel item).2.2.isSome = false) :
    (s.startedStream ln l item).rows = 0 ∧ (s.startedStream ln l item).ended = true := by
  have no_seq : (s.streamBound l.parcel item).2.2 = none := Option.not_isSome_iff_eq_none.mp (by simp [h])
  simp only [State.startedStream, no_seq, and_self]

/-- ROWS and then STATUS of a stream given to its section's banks (R202). -/
def State.boundWritten (s : State) (k ln : Nat) (g : GatherDesc) (rows st : Nat) : State :=
  (({ s with tick := s.tick + 1 }).padEngine k 1 ln (g.ctrl + 8) 4 rows true).padEngine k 1 ln (g.ctrl + 12) 1 st true

theorem execGatherStreamStart_starts {item : Nat} (hlaunch : s.launchOn ship = some (ln, l)) (hgather : l.gather = some g)
    (hnew : (s.ship ship).streams.has sec = false) (hsec : sec < l.gs) (hplaced : l.st = .placed)
    (hitem : g.items.getD (l.gridSection ship sec) 0 = item) :
    execGatherStreamStart ship sec s = .next
      ((s.boundWritten (ship * 64 + sec) ln g (s.streamBound l.parcel item).1 (s.streamBound l.parcel item).2.1).modShip ship
        (fun h => { h with streams := h.streams.set sec (s.startedStream ln l item) })) := by
  have starts : ¬ ((s.ship ship).streams.has sec || decide (l.gs ≤ sec) || l.st != .placed) = true := by simp [hnew, hsec, hplaced]
  rw [execGatherStreamStart]
  simp only [hlaunch, hgather, if_neg starts, hitem]
  rfl

/-! ### GATHER_CHUNK (R203) -/

/-- The rows of a stream that its next chunk holds, numbered within the chunk. -/
def Stream.chunkRows (y : Stream) (per : Nat) : List Nat := (upTo per).filter (fun j => decide (y.chunk * per + j < y.rows))

/-- The rows of the next chunk of a stream given to its section's banks, at the chunk's place in the ring. -/
def State.gatherChunkRows (s : State) (ship sec : Nat) (l : Launch) (g : GatherDesc) (y : Stream) : State :=
  (y.chunkRows (g.units / y.len)).foldl (fun s j =>
    s.gatherRow ship sec l g (y.chunk * (g.units / y.len) + j) (g.ring + y.chunk % g.chunks * g.units * 64 + j * y.len * 64)) s

/-- READY raised to a chunk, and the stream at the next one. -/
def State.chunkReady (s : State) (ship sec ln : Nat) (g : GatherDesc) (y : Stream) : State :=
  (s.padEngine (ship * 64 + sec) 1 ln g.ctrl 4 (y.chunk + 1) true).modShip ship (fun h => { h with
    streams := h.streams.modify sec (fun z => { z with chunk := y.chunk + 1, ended := decide (y.rows ≤ (y.chunk + 1) * (g.units / y.len)) }) })

theorem execGatherChunk_copies {y : Stream} (hlaunch : s.launchOn ship = some (ln, l)) (hgather : l.gather = some g)
    (hstream : s.stream? ship sec = some y) (hgoes : y.ended = false) (hof : y.launch = ln) (hidle : (s.sect (ship * 64 + sec)).gathering = false)
    (hroom : y.chunk - min (s.spm.readN (spKey (ship * 64 + sec) (g.ctrl + 4)) 4) y.chunk < g.chunks)
    (hheld : ∀ j ∈ y.chunkRows (g.units / y.len), s.rowHeld ship l y (y.chunk * (g.units / y.len) + j) = false)
    (hkept : ((s.gatherChunkRows ship sec l g y).stream? ship sec).isNone = false) :
    execGatherChunk ship sec s = .next ((s.gatherChunkRows ship sec l g y).chunkReady ship sec ln g y) := by
  have none_held : ¬ (y.chunkRows (g.units / y.len)).any (fun j => s.rowHeld ship l y (y.chunk * (g.units / y.len) + j)) = true := by
    simpa using hheld
  simp only [Stream.chunkRows, State.gatherChunkRows] at none_held hkept
  rw [execGatherChunk]
  simp only [hlaunch, hstream, hgather, hgoes, hof, hidle, decide_eq_false (Nat.not_le.mpr hroom), bne_self_eq_false, Bool.or_false,
    Bool.false_eq_true, if_false, if_neg none_held, hkept]
  rfl

/-! ### CTX_RETIRE (R360, R420) -/

variable {q i n : Nat} {x : Queue} {c : Cmd} {y : Context}

/-- Steps 1 to 3 of a retirement, and its XINVs. -/
def State.retireBegun (s : State) (n : Nat) (y : Context) : State := ((s.retireStop n y).dropTlb n).sendXinv n y

/-- What a retirement remembers: its context, the commands it aborted, and the works left at sites that do not cancel them. -/
def State.retireCounts (s : State) (n : Nat) (y : Context) : List Nat :=
  [n, ((s.ctxQueues (ctxHandle n y)).map (fun k => ((s.queues.get? k).map Queue.uncompleted).getD 0)).sum,
    ((s.worksOf n).filter (fun w => !((s.site w.1).sb.getD 8 0).toNat.testBit 13)).length]

/-- CTX_RETIRE ends once no XINV of its context is out, and else waits. -/
theorem execCtxRetire_begins (hruns : s.runs q i 0x021 x c) (hnamed : s.named c n y) (hcheck : packetCheck c.pkt [] [] [] = none) {z : Context}
    (hz : (s.retireBegun n y).ctxs.get? n = some z) :
    execCtxRetire q i s = .next (if z.xinv = 0 then (s.retireBegun n y).retireEnd n (s.req q i x c) (s.retireCounts n y)
      else (s.retireBegun n y).modCmd q i (fun c => { c with st := .serving (s.retireCounts n y) })) := by
  simp only [State.retireBegun] at hz
  rw [execCtxRetire, serve_runs hruns, withCtx_named hnamed]
  simp only [hcheck, hz, Option.any_some, beq_iff_eq, keepServing_req]
  rfl

end Sys2Proof.Machine

open Sys2Proof Sys2Proof.Machine

/-- Settles O36, from the start of a stream at its bound, the copy of a chunk, and the outcome of a retirement's XINVs. -/
theorem gatherStreamsAndRetirement : Obligations.GatherStreamsAndRetirement := by
  refine ⟨?_, ?_, ?_⟩
  · intro s t sec ln l g hlaunch hgather hnew hsec hplaced item k b v
    obtain ⟨hof, hseq, hfirst, hchunk, hstatus⟩ := s.startedStream_fields ln l item
    exact ⟨s.startedStream ln l item, execGatherStreamStart_starts hlaunch hgather hnew hsec hplaced rfl, hof, hseq, hfirst,
      fun live => (State.startedStream_live ln live).1, fun dead => (State.startedStream_none ln dead).1, hchunk, hstatus,
      fun live => (State.startedStream_live ln live).2, fun dead => (State.startedStream_none ln dead).2⟩
  · intro s t sec ln l g y hlaunch hgather hstream hgoes hof hidle k per chunk rows hroom hheld s1 hkept
    exact execGatherChunk_copies hlaunch hgather hstream hgoes hof hidle hroom hheld hkept
  · intro s q i n x c y hruns hnamed hcheck s1 aborted left
    exact ⟨fun z hz hnone => (execCtxRetire_begins hruns hnamed hcheck hz).trans (congrArg _ (if_pos hnone)),
      fun z hz hsome => (execCtxRetire_begins hruns hnamed hcheck hz).trans (congrArg _ (if_neg hsome))⟩
end

section
/-! PROOFS. The home of a line: the request that it grants, forwards or performs in memory (R240, R243, R245, R246, R251 to R253), and the
messages by which a transaction of it goes on (R244, R245, R248, R249). -/

namespace Sys2Proof.Machine

variable {s t u : State} {m : Msg} {ch : Nat}

/-! ### What a memory access counts and notes on its way leaves memory as it was -/

/-- Two states with the same memory, and the same channels failed and bursts poisoned. -/
structure State.SameMemory (s t : State) : Prop where
  mem : t.mem = s.mem
  failedAt : ∀ a, t.failedAt a = s.failedAt a
  memPoisoned : ∀ a, t.memPoisoned a = s.memPoisoned a

theorem State.SameMemory.trans (h : s.SameMemory t) (g : t.SameMemory u) : s.SameMemory u :=
  ⟨g.mem.trans h.mem, fun a => (g.failedAt a).trans (h.failedAt a), fun a => (g.memPoisoned a).trans (h.memPoisoned a)⟩

theorem State.booked_badBursts (h : s.booked t) : t.badBursts = s.badBursts := by obtain ⟨_, _, _, _, _, _, _, _, _, _, rfl⟩ := h; rfl

/-- Book-keeping that fails no channel leaves memory as it was. -/
theorem State.SameMemory.of_booked (h : s.booked t) (hf : ∀ a, t.failedAt a = s.failedAt a) : s.SameMemory t :=
  ⟨State.booked_mem h, hf, fun a => by simp only [State.memPoisoned, State.booked_poison h, State.booked_badBursts h, hf]⟩

theorem State.granted_sameMemory (s : State) (m : Msg) : s.SameMemory (s.granted m) := .of_booked (s.granted_booked m) (fun _ => rfl)

theorem State.burst_sameMemory {a : Nat} (h : s.failedAt a = false) (n : Nat) (w : Bool) : s.SameMemory (s.burst a n w) :=
  .of_booked (s.burst_booked a n w) (fun b => s.failedAt_burst a b n w h)

/-- The old value of a request's line kept for later fetches; what an engine writes was noted when it was asked for. -/
def State.noteFor (s : State) (m : Msg) : State := if m.fromEngine then s else s.note (m.dpa / 128)

theorem State.noteFor_sameMemory (s : State) (m : Msg) : s.SameMemory (s.noteFor m) := by
  unfold State.noteFor State.note
  split
  · exact ⟨rfl, fun _ => rfl, fun _ => rfl⟩
  · split <;> exact ⟨rfl, fun _ => rfl, fun _ => rfl⟩

theorem State.memWrite_mem {a : Nat} (h : s.failedAt a = false) (n v : Nat) : (s.memWrite a n v).mem = s.mem.writeN a n v := by
  simp [State.memWrite, h]

theorem State.answerMaster_mem (s : State) (m : Msg) : (s.answerMaster m).mem = s.mem := State.booked_mem (s.answerMaster_booked m)

/-! ### The memory access of an uncached request (R252, R253) -/

/-- The bursts of an uncached access of memory counted, once its channel has granted it a slot. -/
def State.nearBurst (s : State) (m : Msg) (write : Bool) : State := (s.granted m).burst m.dpa m.size write

theorem State.nearBurst_sameMemory (h : s.failedAt m.dpa = false) (write : Bool) : s.SameMemory (s.nearBurst m write) :=
  (s.granted_sameMemory m).trans (State.burst_sameMemory (((s.granted_sameMemory m).failedAt _).trans h) _ _)

/-- RdU changes no byte of memory. -/
theorem State.memAccess_rdU_mem (hk : m.kind = .rdU) (others : Bool) : (s.memAccess m others).mem = s.mem := by
  simp only [State.memAccess, hk, reduceCtorEq, if_true, if_false, decide_true, Bool.true_or]
  rw [State.answerMaster_mem]
  exact State.booked_mem (State.booked_trans (s.granted_booked m) (State.burst_booked _ _ _ _))

/-- WrU without byte enables writes its payload. -/
theorem State.memAccess_wrU_mem (hk : m.kind = .wrU) (hflag : m.flag = false) (h : s.failedAt m.dpa = false) (others : Bool) :
    (s.memAccess m others).mem = s.mem.writeN m.dpa m.size (m.pay.getD 0) := by
  have kept := (State.nearBurst_sameMemory h true).trans (State.noteFor_sameMemory _ m)
  have made : (s.memAccess m others).mem = (((s.nearBurst m true).noteFor m).memWrite m.dpa m.size (m.pay.getD 0)).mem := by
    simp [State.memAccess, State.noteFor, State.nearBurst, hk, hflag, State.answerMaster_mem]
  rw [made, State.memWrite_mem ((kept.failedAt _).trans h), kept.mem]

/-- AtN on bytes that carry no POISON writes the result of its operation on the old value. -/
theorem State.memAccess_atN_mem (hk : m.kind = .atN) (hop : m.op ≠ 16) (h : s.failedAt m.dpa = false) (hfirst : s.memPoisoned m.dpa = false)
    (hlast : s.memPoisoned (m.dpa + m.size - 1) = false) (others : Bool) :
    (s.memAccess m others).mem =
      s.mem.writeN m.dpa m.size (atomResult m.op m.size (s.mem.readN m.dpa m.size) (m.pay.getD 0) m.cmp) := by
  have read := State.nearBurst_sameMemory h false
  have readable := (read.failedAt m.dpa).trans h
  have kept := (read.trans (State.burst_sameMemory readable m.size true)).trans (State.noteFor_sameMemory _ m)
  have old : (s.nearBurst m false).memN m.dpa m.size = s.mem.readN m.dpa m.size := by simp [State.memN, readable, read.mem]
  have clean : ((s.nearBurst m false).memPoisoned m.dpa || (s.nearBurst m false).memPoisoned (m.dpa + m.size - 1)) = false := by
    simp [read.memPoisoned, hfirst, hlast]
  have made : (s.memAccess m others).mem = ((((s.nearBurst m false).burst m.dpa m.size true).noteFor m).memWrite m.dpa m.size
      (atomResult m.op m.size (s.mem.readN m.dpa m.size) (m.pay.getD 0) m.cmp)).mem := by
    rw [← old]
    simp only [State.nearBurst] at clean
    simp [State.memAccess, State.noteFor, State.nearBurst, hk, hop, clean, State.answerMaster_mem]
  rw [made, State.memWrite_mem ((kept.failedAt _).trans h), kept.mem]

/-! ### A request at the home of a line (Table 08-4) -/

/-- A request that its home serves as it arrives: its checks pass, its channel is not held, and neither its line nor its slice makes it wait. -/
structure ServedAtHome (s : State) (m : Msg) (ch : Nat) : Prop where
  deliverable : s.deliverable m = true
  dst : m.dst = .home ch
  enters : s.mayEnter m = true
  owner : (s.take m).ownerOk m = true
  unheld : (s.take m).channelHeld ((s.take m).channelOf m.dpa) = false
  first : (s.take m).waitq.getD (m.dpa / 128) [] = []
  room : (s.take m).sliceBusy ((s.take m).channelOf m.dpa) < 128

theorem ServedAtHome.arrive {k : MsgKind} (h : ServedAtHome s m ch) (hk : m.kind = k) : s.arrive k m = (s.take m).serveHome m false :=
  (arrive_home h.deliverable hk h.dst h.enters).trans (onRequest_serve h.owner h.unheld h.first h.room)

/-- The command of a request that its home serves ends in what serving it gives. -/
theorem ServedAtHome.next {k : MsgKind} {v : State} (h : ServedAtHome s m ch) (hk : m.kind = k) (hv : (s.take m).serveHome m false = v) :
    (.next (s.arrive k m) : Host.Outcome State Fault Refusal) = .next v := congrArg _ ((h.arrive hk).trans hv)

theorem State.serveHome_uncached (hdir : s.dir.get? (m.dpa / 128) = none) (hk : m.kind = .rdU ∨ m.kind = .wrU ∨ m.kind = .atN) (others : Bool) :
    s.serveHome m others = s.memAccess m others := by
  obtain hk | hk | hk := hk <;> simp [State.serveHome, hdir, hk]

/-- The entry made for a line that no agent holds. -/
def State.newEntry (s : State) (m : Msg) : DirEntry := ⟨0, .B, m.tag, s.easeLine m.dpa, s.tick, none⟩

/-- The transaction of a request that gets the line alone, over at its CmpAck. -/
def lineTaken (m : Msg) : Txn := ⟨m, true, false, 0, .X, vecOnly (m.src.agent?.getD 0), false, none, false⟩

/-- The next number of the order in which a home serves requests taken. -/
def State.ticked (s : State) : State := { s with tick := s.tick + 1 }

/-- A read of a free line that may only be shared gets it in S (R243). -/
theorem State.serveHome_shares (hdir : s.dir.get? (m.dpa / 128) = none) (hset : (s.dirSet (m.dpa / 128)).length < 8) (hk : m.kind = .rdS)
    (hshared : m.sonly = true ∨ s.easeLine m.dpa = true) (others : Bool) :
    s.serveHome m others = (s.ticked.busy (m.dpa / 128) (s.newEntry m) { lineTaken m with next := .S }).grantMem m .S 0 true := by
  simp [State.serveHome, hdir, hk, Nat.not_le.mpr hset, hshared, State.newEntry, lineTaken, State.ticked]

/-- Another request for a free line gets it in E. -/
theorem State.serveHome_grants (hdir : s.dir.get? (m.dpa / 128) = none) (hset : (s.dirSet (m.dpa / 128)).length < 8)
    (hk : (m.kind = .rdS ∧ m.sonly = false ∧ s.easeLine m.dpa = false) ∨ m.kind = .rdX ∨ m.kind = .upg) (others : Bool) :
    s.serveHome m others = (s.ticked.busy (m.dpa / 128) (s.newEntry m) (lineTaken m)).grantMem m .E 0 true := by
  have place := Nat.not_le.mpr hset
  obtain ⟨hk, hsonly, hease⟩ | hk | hk := hk <;> simp [State.serveHome, State.newEntry, lineTaken, State.ticked, *]

section Owned
variable {e : DirEntry} (hdir : s.dir.get? (m.dpa / 128) = some e) (hX : e.st = .X)
include hdir hX

/-- An S-only read of an owned line is put off (R251). -/
theorem State.serveHome_specWait (hk : m.kind = .rdS) (hsonly : m.sonly = true) (others : Bool) :
    s.serveHome m others = s.ticked.send (homeMsg s.ticked .specWait m m.src) := by
  simp [State.serveHome, markHeld, hdir, hX, hk, hsonly, State.ticked]

/-- Another read of an owned line is forwarded, and the owner keeps a shared copy (R245). -/
theorem State.serveHome_fwdS (hk : m.kind = .rdS) (hsonly : m.sonly = false) (others : Bool) :
    s.serveHome m others = (s.ticked.busy (m.dpa / 128) { e with use := s.tick }
      { lineTaken m with dataH := true, next := .S, nextVec := vecSet e.vec (m.src.agent?.getD 0), fwdTo := some ((vecList e.vec).headD 0) }).send
      (homeMsg s.ticked .fwdS m (.agent ((vecList e.vec).headD 0))) := by
  simp [State.serveHome, markHeld, hdir, hX, hk, hsonly, State.ticked, lineTaken]

/-- A request that takes an owned line away is forwarded to its owner (R246). -/
theorem State.serveHome_fwdX (hk : m.kind = .rdX ∨ m.kind = .upg) (others : Bool) :
    s.serveHome m others = (s.ticked.busy (m.dpa / 128) { e with use := s.tick } { lineTaken m with fwdTo := some ((vecList e.vec).headD 0) }).send
      (homeMsg s.ticked .fwdX m (.agent ((vecList e.vec).headD 0))) := by
  obtain hk | hk := hk <;> simp [State.serveHome, markHeld, hdir, hX, hk, State.ticked, lineTaken]

end Owned

/-! ### Messages that move a transaction on -/

theorem execDatah_written (hd : s.deliverable m = true) (hk : m.kind = .dataH) :
    execDatah m s = .next (((s.take m).writeHome m).txnStep (m.dpa / 128) (fun x => { x with dataH := false })) := by
  simp [execDatah, hd, hk]

/-- A write-back of the owner of a line ends the line's entry (R249). -/
theorem execWb_frees {e : DirEntry} (hd : s.deliverable m = true) (hk : m.kind = .wb) (hdir : (s.take m).dir.get? (m.dpa / 128) = some e)
    (hX : e.st = .X) (howner : vecBit e.vec (m.src.agent?.getD 0) = true) :
    execWb m s = .next ((({ (s.take m).writeHome m with dir := ((s.take m).writeHome m).dir.erase (m.dpa / 128) } : State).send
      (homeMsg ((s.take m).writeHome m) .wbAck m m.src)).serveSet (m.dpa / 128)) := by
  simp [execWb, State.onWb, hd, hk, hdir, hX, howner]

theorem execInvack_counted (hh : m.dst = .home ch) (hd : s.deliverable m = true) (hk : m.kind = .invAck) :
    execInvack m s = .next ((s.take m).txnStep (m.dpa / 128) (fun x => { x with invAcks := x.invAcks - 1 })) := by
  simp [execInvack, hh, hd, hk]

theorem execCmpack_ends (hd : s.deliverable m = true) (hk : m.kind = .cmpAck) :
    execCmpack m s = .next ((s.take m).txnStep (m.dpa / 128) (fun x => { x with cmpAck := false })) := by
  simp [execCmpack, hd, hk]

/-- A request of a township that has waited too long carries AGED, and is counted (R244). -/
theorem execAged_marks {n : Nat} (hnet : s.net.contains m = true) (hyoung : m.aged = false) (hcls : m.kind.cls = 0) (hsrc : m.src = .agent n)
    (hn : n < 256) :
    execAged m s = .next
      (({ s with net := s.net.map (fun x => if x = m then { x with aged := true } else x) } : State).transit (Reg.cohCnt n 4) 1) := by
  simp only [execAged, hnet, hyoung, hcls, hsrc, if_pos hn, Bool.not_false, beq_self_eq_true, Bool.and_self, if_true]

end Sys2Proof.Machine

open Sys2Proof Sys2Proof.Machine

/-- Settles O19: RdU, WrU and AtN of a line that no agent holds are the memory access of their kind, which the counting on its way leaves alone. -/
theorem nearMemoryAccessIsPerformedAtTheHome : Obligations.NearMemoryAccessIsPerformedAtTheHome := by
  intro s m ch hdeliverable hdst henters u line howner hunheld hfirst hroom hdir hfailed
  have served : ServedAtHome s m ch := ⟨hdeliverable, hdst, henters, howner, hunheld, hfirst, hroom⟩
  have hmem : u.mem = s.mem := State.booked_mem (s.take_booked hdst)
  have access := fun huncached => State.serveHome_uncached hdir huncached false
  refine ⟨fun hk => ⟨_, served.next hk (access (.inl hk)), (State.memAccess_rdU_mem hk false).trans hmem⟩, fun hk hflag => ?_,
    fun hk hclean hcleanEnd hop => ?_⟩
  · have written := hmem ▸ State.memAccess_wrU_mem hk hflag hfailed false
    exact ⟨_, served.next hk (access (.inr (.inl hk))), written, fun a hout => written ▸ Memory.read_writeN_out _ _ _ _ a hout⟩
  · have written := hmem ▸ State.memAccess_atN_mem hk hop hfailed hclean hcleanEnd false
    exact ⟨_, served.next hk (access (.inr (.inr hk))), written, fun a hout => written ▸ Memory.read_writeN_out _ _ _ _ a hout⟩

/-- Settles O18, by the state of the line's entry: absent with room in its set, absent for an uncached request, and owned. -/
theorem homeServesARequest : Obligations.HomeServesARequest := by
  intro s m ch hdeliverable hdst henters u line src howner hunheld hfirst hroom
  have served : ServedAtHome s m ch := ⟨hdeliverable, hdst, henters, howner, hunheld, hfirst, hroom⟩
  refine ⟨fun hdir hset => ⟨?_, ?_, ?_, ?_⟩, fun hdir => ⟨?_, ?_, ?_⟩, fun e hdir hX => ⟨?_, ?_, ?_, ?_⟩⟩
  · exact fun hk hshared => served.next hk (State.serveHome_shares hdir hset hk hshared false)
  · exact fun hk hsonly hease => served.next hk (State.serveHome_grants hdir hset (.inl ⟨hk, hsonly, hease⟩) false)
  · exact fun hk => served.next hk (State.serveHome_grants hdir hset (.inr (.inl hk)) false)
  · exact fun hk => served.next hk (State.serveHome_grants hdir hset (.inr (.inr hk)) false)
  · exact fun hk => served.next hk (State.serveHome_uncached hdir (.inl hk) false)
  · exact fun hk => served.next hk (State.serveHome_uncached hdir (.inr (.inl hk)) false)
  · exact fun hk => served.next hk (State.serveHome_uncached hdir (.inr (.inr hk)) false)
  · exact fun hk hsonly => served.next hk (State.serveHome_specWait hdir hX hk hsonly false)
  · exact fun hk hsonly => served.next hk (State.serveHome_fwdS hdir hX hk hsonly false)
  · exact fun hk => served.next hk (State.serveHome_fwdX hdir hX (.inl hk) false)
  · exact fun hk => served.next hk (State.serveHome_fwdX hdir hX (.inr hk) false)

/-- Settles O21, message by message. -/
theorem homeCollectsAcknowledgements : Obligations.HomeCollectsAcknowledgements := by
  intro s m ch hdst
  refine ⟨fun hd => ⟨execDatah_written hd, fun hk e hdir hX howner v hv => ?_, execInvack_counted hdst hd, execCmpack_ends hd⟩,
    fun n hnet hyoung hcls hsrc hn => execAged_marks hnet hyoung hcls hsrc hn⟩
  subst hv
  exact execWb_frees hd hk hdir hX howner
end

section
/-! PROOFS. Sleep and wake: an idle township or engine goes to sleep, a packet that reaches it is held and starts the wake, and the wake ends
(R282, R546); and a refused header sent again (R284). -/

namespace Sys2Proof.Machine

variable {s : State}

/-! ### Going to sleep (R546) -/

theorem execTownshipSleep_idle {ship : Nat} (hship : ship < 256) (hawake : (s.ship ship).asleep = false) (hidle : ship ∉ s.busyShips)
    (hstreams : (s.ship ship).streams = []) (hheld : (s.ship ship).held = []) (hthreads : ∀ e ∈ s.threads, shipOf e.1 ≠ ship) :
    execTownshipSleep ship s = .next ((s.modShip ship (fun x => { x with asleep := true })).setBit (Reg.pwrT ship) 7 true) := by
  have none_runs : s.threads.any (fun e => shipOf e.1 == ship) = false := by
    rw [List.any_eq_false]
    exact fun e he => by simpa using hthreads e he
  simp [execTownshipSleep, Nat.not_le.mpr hship, hawake, hidle, hstreams, hheld, none_runs]

theorem execSelfRefreshEntry_idle {e : Nat} (he : e < 192) (hawake : s.engSleep.has e = false) (hheld : s.engHeld.has e = false)
    (hnet : ∀ m ∈ s.net, ∀ c, m.dst = .home c → c / 2 ≠ e) (hwaitq : s.waitq = []) (heven : s.channelHeld (2 * e) = false)
    (hodd : s.channelHeld (2 * e + 1) = false) :
    execSelfRefreshEntry e s = .next { s with engSleep := s.engSleep.set e false } := by
  refine congrArg _ (if_neg ?_)
  simp only [Nat.not_le.mpr he, hawake, hheld, hwaitq, heven, hodd, decide_false, List.any_nil, Bool.false_or, Bool.or_false, List.any_eq_true]
  rintro ⟨m, hm, hcomes⟩
  split at hcomes
  · next c hc => exact hnet m hm c hc (beq_iff_eq.mp hcomes)
  · exact Bool.false_ne_true hcomes

/-! ### The wake (R282) -/

/-- An interface that holds no packet leaves the whole fabric ahead of one that comes. -/
theorem State.comesNext_unheld {dst : Node} (h : s.heldFor dst = []) (free : State → Bool) (seq : Nat) : s.comesNext dst free seq = free s := by
  simp [State.comesNext, h]

/-- A message that none before it on its route keeps back, and that comes to a sleeping interface with empty buffers, is held there. -/
theorem execWake_holds {m : Msg} {dst : Node} (hdst : m.dst = dst) (hsleeps : s.sleeps dst = true) (hnet : s.net.contains m = true)
    (hempty : s.heldFor m.dst = []) (hfirst : s.overtakes m.src m.dst m.kind.cls m.hdr false = false) :
    execWake (.coh m) s = .next (s.holdPkt dst ⟨m.kind.cls, m.hdr.lastVc, m.hdr.seq⟩) := by
  subst hdst
  simp only [execWake, State.comesNext_unheld hempty, hsleeps, hnet, hfirst, Bool.not_false, Bool.and_self, if_true]

theorem execWakeDone_township {t : Nat} (h : (s.ship t).waking = true) :
    execWakeDone false t s = .next ((s.modShip t (fun x => { x with asleep := false, waking := false })).setBit (Reg.pwrT t) 7 false) := by
  simp [execWakeDone, h]

theorem execWakeDone_engine {e : Nat} (h : s.engSleep.get? e = some true) :
    execWakeDone true e s = .next { s with engSleep := s.engSleep.erase e } := by
  simp [execWakeDone, Tbl.getD, h]

/-! ### Header checks (R284) -/

/-- A header sent again, counted at the logical township of the router that refused it. -/
def State.resent (s : State) (router : Nat) : State := (s.shipAtRouter router).elim s (fun t => s.transit (Reg.nocCnt t 6) 1)

theorem execHeaderResend_resent {router : Nat} (tries : Nat) (h : router < 260) :
    execHeaderResend router tries s = .next (if 4 ≤ tries then (s.resent router).deviceError 0x0B 0 router 5 else s.resent router) := by
  unfold execHeaderResend State.resent
  rw [if_neg (Nat.not_le.mpr h)]
  cases s.shipAtRouter router <;> rfl

end Sys2Proof.Machine

open Sys2Proof Sys2Proof.Machine

/-- Settles O22, event by event; a packet is held at the kind of end that it is sent to. -/
theorem sleepAndWake : Obligations.SleepAndWake := by
  refine ⟨fun s ship => execTownshipSleep_idle, fun s e => execSelfRefreshEntry_idle, fun s m hnet hempty hfirst => ⟨?_, ?_⟩,
    fun s t => execWakeDone_township, fun s e => execWakeDone_engine, ?_⟩
  · exact fun t hdst hasleep => execWake_holds hdst hasleep hnet hempty hfirst
  · exact fun c hdst hasleep => execWake_holds hdst hasleep hnet hempty hfirst
  · rintro s router tries hrouter s1 rfl
    have resent := execHeaderResend_resent (s := s) tries hrouter
    exact ⟨fun few => resent.trans (congrArg _ (if_neg (Nat.not_le.mpr few))), fun fourth => resent.trans (congrArg _ (if_pos fourth))⟩
end

section
/-! PROOFS. The fields of a register word after a write of one of them, and what an interrupt leaves of the block registers. -/

namespace Sys2Proof

theorem testBit_fld (v hi lo i : Nat) : (fld v hi lo).testBit i = (decide (i < hi + 1 - lo) && v.testBit (lo + i)) := by
  rw [fld, Nat.testBit_mod_two_pow, Nat.testBit_shiftRight]

theorem fld_lt (v hi lo : Nat) : fld v hi lo < 2 ^ (hi + 1 - lo) := Nat.mod_lt _ (Nat.two_pow_pos _)

/-- A number with a field replaced, as the bits above the field, the new field and the bits below it. -/
theorem putFld_eq (v x : Nat) {hi lo : Nat} (h : lo ≤ hi) :
    putFld v hi lo x = 2 ^ (hi + 1) * (v / 2 ^ (hi + 1)) + (2 ^ lo * (x % 2 ^ (hi + 1 - lo)) + v % 2 ^ lo) := by
  have width : 2 ^ (hi + 1) = 2 ^ lo * 2 ^ (hi + 1 - lo) := by rw [← pow_add, Nat.add_sub_cancel' (by omega)]
  have parts : v = 2 ^ (hi + 1) * (v / 2 ^ (hi + 1)) + (2 ^ lo * (v / 2 ^ lo % 2 ^ (hi + 1 - lo)) + v % 2 ^ lo) := by
    rw [width, ← Nat.div_div_eq_div_mul, Nat.mul_assoc, ← Nat.add_assoc, ← Nat.mul_add, Nat.div_add_mod, Nat.div_add_mod]
  simp only [putFld, fld, Nat.shiftRight_eq_div_pow, Nat.shiftLeft_eq, Nat.mul_comm _ (2 ^ lo)]
  omega

/-- A bit of a number with a field replaced. -/
theorem testBit_putFld (v x i : Nat) {hi lo : Nat} (h : lo ≤ hi) :
    (putFld v hi lo x).testBit i = if lo ≤ i ∧ i ≤ hi then x.testBit (i - lo) else v.testBit i := by
  have below : v % 2 ^ lo < 2 ^ lo := Nat.mod_lt _ (Nat.two_pow_pos _)
  have upToField : 2 ^ lo * (x % 2 ^ (hi + 1 - lo)) + v % 2 ^ lo < 2 ^ (hi + 1) := by
    have field : x % 2 ^ (hi + 1 - lo) < 2 ^ (hi + 1 - lo) := Nat.mod_lt _ (Nat.two_pow_pos _)
    calc 2 ^ lo * (x % 2 ^ (hi + 1 - lo)) + v % 2 ^ lo < 2 ^ lo * (x % 2 ^ (hi + 1 - lo) + 1) := by rw [Nat.mul_add]; omega
      _ ≤ 2 ^ lo * 2 ^ (hi + 1 - lo) := Nat.mul_le_mul_left _ field
      _ = 2 ^ (hi + 1) := by rw [← pow_add, Nat.add_sub_cancel' (by omega)]
  rw [putFld_eq v x h, Nat.testBit_two_pow_mul_add _ upToField, Nat.testBit_two_pow_mul_add _ below]
  by_cases above : hi < i
  · rw [if_neg (by omega), if_neg (by omega), Nat.testBit_div_two_pow, Nat.sub_add_cancel above]
  · rw [if_pos (by omega)]
    by_cases under : i < lo
    · rw [if_pos under, if_neg (by omega), Nat.testBit_mod_two_pow, decide_eq_true under, Bool.true_and]
    · rw [if_neg under, if_pos (by omega), Nat.testBit_mod_two_pow, decide_eq_true (by omega), Bool.true_and]

namespace Machine

variable {s : State} {off at_ hi lo : Nat}

theorem State.fieldOf_lt (s : State) (off hi lo : Nat) : s.fieldOf off hi lo < 2 ^ (hi + 1 - lo) := fld_lt _ _ _

theorem State.setField_reg (s : State) (off hi lo x : Nat) :
    (s.setField off hi lo x).reg off = BitVec.ofNat 64 (putFld (s.reg off).toNat hi lo x) := Tbl.getD_set_self _ _ _ _

theorem State.testBit_fieldOf_setField (s : State) (off x a b i : Nat) (h : lo ≤ hi) :
    ((s.setField off hi lo x).fieldOf off a b).testBit i = (decide (i < a + 1 - b) && (decide (b + i < 64) &&
      if lo ≤ b + i ∧ b + i ≤ hi then x.testBit (b + i - lo) else (s.reg off).toNat.testBit (b + i))) := by
  rw [State.fieldOf, State.setField_reg, testBit_fld, BitVec.toNat_ofNat, Nat.testBit_mod_two_pow, testBit_putFld _ _ _ h]

/-- A field holds what was written to it, as far as its width goes. -/
theorem State.fieldOf_setField_same (s : State) (off x : Nat) (h : lo ≤ hi) (hword : hi < 64) :
    (s.setField off hi lo x).fieldOf off hi lo = x % 2 ^ (hi + 1 - lo) := by
  refine Nat.eq_of_testBit_eq fun i => ?_
  rw [State.testBit_fieldOf_setField s off x hi lo i h, Nat.testBit_mod_two_pow]
  by_cases inside : i < hi + 1 - lo
  · rw [decide_eq_true (by omega : lo + i < 64), if_pos (by omega), Nat.add_sub_cancel_left, Bool.true_and]
  · rw [decide_eq_false inside, Bool.false_and, Bool.false_and]

/-- A write of one field leaves a field that shares no bit with it. -/
theorem State.fieldOf_setField_apart (s : State) (off x : Nat) {a b : Nat} (h : lo ≤ hi) (apart : a < lo ∨ hi < b) :
    (s.setField off hi lo x).fieldOf off a b = s.fieldOf off a b := by
  refine Nat.eq_of_testBit_eq fun i => ?_
  rw [State.testBit_fieldOf_setField s off x a b i h, State.fieldOf, testBit_fld]
  by_cases inside : i < a + 1 - b
  · rw [if_neg (by omega), ← Nat.testBit_mod_two_pow, Nat.mod_eq_of_lt (s.reg off).isLt]
  · rw [decide_eq_false inside, Bool.false_and, Bool.false_and]

/-! ### What an interrupt and an event of PWR_EVENT leave of the block registers -/

theorem State.signalNow_reg_ne (n v : Nat) (h : at_ ≠ pbaKey n v) : (s.signalNow n v).reg at_ = s.reg at_ := by
  unfold State.signalNow
  split_ifs
  · exact State.reg_setReg_ne _ _ h
  all_goals rfl

theorem State.interrupt_reg_ne (n v : Nat) (h : at_ ≠ pbaKey n v) : (s.interrupt n v).reg at_ = s.reg at_ := by
  unfold State.interrupt
  split_ifs
  · rfl
  · exact State.signalNow_reg_ne n v h

/-- PWR_EVENT and the pending bits of vector 0 of the PF are all that an event changes of the block registers. -/
theorem State.pwrEvent_reg_ne (k : Nat) (hevent : at_ ≠ Reg.pwrEvent) (hpending : at_ ≠ pbaKey 0 0) : (s.pwrEvent k).reg at_ = s.reg at_ := by
  have marked : (s.setBit Reg.pwrEvent k true).reg at_ = s.reg at_ := State.reg_setReg_ne _ _ hevent
  unfold State.pwrEvent
  dsimp only
  split_ifs
  · rfl
  · exact (State.interrupt_reg_ne 0 0 hpending).trans marked
  · exact marked

end Machine

end Sys2Proof
end

section
/-! PROOFS. Refresh steps: the step that a reading puts a stack at, from the step that it has (R296). -/

namespace Sys2Proof.Machine

variable {t : Int}

/-! ### Rise and fall (Table 10-3) -/

theorem stepFor_le_three (t : Int) : stepFor t ≤ 3 := by
  unfold stepFor
  split_ifs <;> decide

/-- A reading is at least the threshold of a step that it calls for. -/
theorem stepThreshold_stepFor_le (h : 0 < stepFor t) : stepThreshold (stepFor t) ≤ t := by
  unfold stepFor at h ⊢
  split_ifs at h ⊢ with hot warm mild
  · exact hot
  · exact warm
  · exact mild
  · exact absurd h (by decide)

theorem stepFall_le (t : Int) : ∀ k, stepFall t k ≤ k
  | 0 => le_rfl
  | k + 1 => by
    unfold stepFall
    split_ifs
    · exact (stepFall_le t k).trans k.le_succ
    · exact le_rfl

/-- A fall ends at a step that the reading does not leave, or at step 0. -/
theorem lt_of_stepFall_pos : ∀ k, 0 < stepFall t k → stepThreshold (stepFall t k) - 3 < t
  | 0, h => absurd h (lt_irrefl 0)
  | k + 1, h => by
    unfold stepFall at h ⊢
    split_ifs at h ⊢ with leaves
    · exact lt_of_stepFall_pos k h
    · exact lt_of_not_ge leaves

/-- The reading is 3 °C below the threshold of every step that a fall leaves. -/
theorem le_of_stepFall_lt : ∀ {k j : Nat}, stepFall t k < j → j ≤ k → t ≤ stepThreshold j - 3
  | 0, _, h, hj => absurd (h.trans_le hj) (Nat.not_lt_zero _)
  | k + 1, j, h, hj => by
    unfold stepFall at h
    split_ifs at h with leaves
    · obtain rfl | hlow := hj.eq_or_lt
      · exact leaves
      · exact le_of_stepFall_lt h (Nat.le_of_lt_succ hlow)
    · exact absurd h (Nat.not_lt.mpr hj)

/-- A fall leaves no step that the reading calls for: it is not below such a step's threshold. -/
theorem stepFor_le_stepFall {k : Nat} (h : stepFor t ≤ k) : stepFor t ≤ stepFall t k := by
  by_contra below
  have left := le_of_stepFall_lt (Nat.lt_of_not_le below) h
  have reached := stepThreshold_stepFor_le (Nat.zero_lt_of_lt (Nat.lt_of_not_le below))
  omega

/-! ### The step of a reading -/

/-- The refresh step that a reading puts a stack at. -/
def refreshStep (t : Int) (old : Nat) : Nat := if old < stepFor t then stepFor t else stepFall t old

theorem refreshStep_lt_four {old : Nat} (h : old < 4) : refreshStep t old < 4 := by
  unfold refreshStep
  split_ifs
  · exact Nat.lt_succ_of_le (stepFor_le_three t)
  · exact (stepFall_le t old).trans_lt h

theorem stepFor_le_refreshStep (t : Int) (old : Nat) : stepFor t ≤ refreshStep t old := by
  unfold refreshStep
  split_ifs with rises
  · exact le_rfl
  · exact stepFor_le_stepFall (Nat.le_of_not_lt rises)

/-- A step above the one that the reading calls for was there before, and the reading is not yet 3 °C below its threshold. -/
theorem refreshStep_kept {old : Nat} (h : stepFor t < refreshStep t old) :
    refreshStep t old ≤ old ∧ stepThreshold (refreshStep t old) - 3 < t := by
  unfold refreshStep at h ⊢
  split_ifs at h ⊢
  · exact absurd h (lt_irrefl _)
  · exact ⟨stepFall_le t old, lt_of_stepFall_pos old (Nat.zero_lt_of_lt h)⟩

/-- The reading is 3 °C below the threshold of every step that it leaves. -/
theorem refreshStep_left {old j : Nat} (h : refreshStep t old < j) (hj : j ≤ old) : t ≤ stepThreshold j - 3 := by
  unfold refreshStep at h
  split_ifs at h with rises
  · omega
  · exact le_of_stepFall_lt h hj

/-! ### REFRESH_STEP_CHANGE below the thermal trip -/

variable {s : State} {stack : Nat} {temp : BitVec 8}

/-- TEMP and STEP of a stack written. -/
def State.stackRead (s : State) (stack temp step : Nat) : State :=
  (s.setField (Reg.memStack stack) 7 0 temp).setField (Reg.memStack stack) 9 8 step

theorem State.stackRead_temp (s : State) (stack step : Nat) (temp : BitVec 8) :
    (s.stackRead stack temp.toNat step).fieldOf (Reg.memStack stack) 7 0 = temp.toNat :=
  calc (s.stackRead stack temp.toNat step).fieldOf (Reg.memStack stack) 7 0
    _ = (s.setField (Reg.memStack stack) 7 0 temp.toNat).fieldOf (Reg.memStack stack) 7 0 :=
      State.fieldOf_setField_apart _ _ _ (by decide) (by decide)
    _ = temp.toNat % 2 ^ 8 := State.fieldOf_setField_same _ _ _ (by decide) (by decide)
    _ = temp.toNat := Nat.mod_eq_of_lt temp.isLt

theorem State.stackRead_step (s : State) (stack temp : Nat) {step : Nat} (h : step < 4) :
    (s.stackRead stack temp step).fieldOf (Reg.memStack stack) 9 8 = step :=
  (State.fieldOf_setField_same _ _ _ (by decide) (by decide)).trans (Nat.mod_eq_of_lt h)

/-- Step 3 that a stack was not at is an event of PWR_EVENT. -/
def State.stepEvent (s : State) (new old : Nat) : State := if new = 3 ∧ old ≠ 3 then s.pwrEvent 2 else s

theorem State.stepEvent_fieldOf_memStack (s : State) (new old stack hi lo : Nat) (h : stack < 12) :
    (s.stepEvent new old).fieldOf (Reg.memStack stack) hi lo = s.fieldOf (Reg.memStack stack) hi lo := by
  have kept : (s.stepEvent new old).reg (Reg.memStack stack) = s.reg (Reg.memStack stack) := by
    unfold State.stepEvent
    split_ifs
    · refine State.pwrEvent_reg_ne 2 ?_ ?_ <;> simp only [Reg.memStack, Reg.pwrEvent, pbaKey, if_true] <;> omega
    · rfl
  rw [State.fieldOf, State.fieldOf, kept]

theorem execRefreshStepChange_untripped (hstack : stack < 12) (htemp : temp.toInt < 115) :
    execRefreshStepChange stack temp s = .next
      ((s.stackRead stack temp.toNat (refreshStep temp.toInt (s.fieldOf (Reg.memStack stack) 9 8))).stepEvent
        (refreshStep temp.toInt (s.fieldOf (Reg.memStack stack) 9 8)) (s.fieldOf (Reg.memStack stack) 9 8)) := by
  rw [execRefreshStepChange, if_neg (Nat.not_le.mpr hstack)]
  exact congrArg _ (if_neg (not_le.mpr htemp))

end Sys2Proof.Machine

open Sys2Proof Sys2Proof.Machine

/-- Settles O24: STEP reads back as `refreshStep` of the reading and the old step, and below 115 °C no event touches the stack's register. -/
theorem refreshStepsFollowTheTemperature : Obligations.RefreshStepsFollowTheTemperature := by
  intro s stack temp hstack htemp
  have step_lt := refreshStep_lt_four (t := temp.toInt) (s.fieldOf_lt (Reg.memStack stack) 9 8)
  refine ⟨_, execRefreshStepChange_untripped hstack htemp, ?_, ?_⟩
  · rw [State.stepEvent_fieldOf_memStack _ _ _ _ _ _ hstack, State.stackRead_temp]
  · rw [State.stepEvent_fieldOf_memStack _ _ _ _ _ _ hstack, State.stackRead_step _ _ _ step_lt]
    exact ⟨stepFor_le_refreshStep _ _, refreshStep_kept, fun _ => refreshStep_left⟩
end

section
/-! PROOFS. Read reports of the stacks, the reload of a poisoned page, and what the driver writes of both (R297, R299, R566, R569 to R572). -/

namespace Sys2Proof.Machine

variable {s : State} {dpa page o c v : Nat} {w : WeightSet}

/-! ### Read reports (R299, R566) -/

theorem execHbmReadBurst_outside {u : Bool} (h : s.hbmTop ≤ dpa ∨ 384 ≤ s.channelOf dpa) : execHbmReadBurst dpa u s = .next s :=
  congrArg _ (if_pos h)

theorem execHbmReadBurst_corrected (hmem : dpa < s.hbmTop) (hch : s.channelOf dpa < 384) :
    execHbmReadBurst dpa false s = .next (s.addSat (Reg.memCh (s.channelOf dpa)) 31 16 1) :=
  congrArg _ (if_neg (not_or.mpr ⟨Nat.not_le.mpr hmem, Nat.not_le.mpr hch⟩))

/-- UE counted, and MAPOUT_NEXT set where the count reaches a UE_MAPOUT that is not 0. -/
def State.countUe (s : State) (c : Nat) : State :=
  let s1 := s.addSat (Reg.memCh c) 15 8 1
  let lim := s.fieldOf Reg.memRetrainCtrl 55 48
  if lim ≠ 0 ∧ lim ≤ s1.fieldOf (Reg.memCh c) 15 8 then s1.mapoutNext c else s1

theorem execHbmReadBurst_uncorrectable (hmem : dpa < s.hbmTop) (hch : s.channelOf dpa < 384) :
    execHbmReadBurst dpa true s = .next
      ((({ s.countUe (s.channelOf dpa) with
          badBursts := if s.badBursts.contains (dpa / 64) then s.badBursts else dpa / 64 :: s.badBursts } : State).record 0x01 1
        (if s.granOwner (dpa / 2 ^ 30) < 16 then s.granOwner (dpa / 2 ^ 30) else 16) dpa (s.channelOf dpa) 1 (s.poisonDetail dpa)).poisonAdd dpa) :=
  congrArg _ (if_neg (not_or.mpr ⟨Nat.not_le.mpr hmem, Nat.not_le.mpr hch⟩))

/-! ### What the driver writes (R297, R569) -/

theorem execMapoutNext_driver (hc : c < 384) (hdriver : s.driverRow = true) : execMapoutNext c s = .next (s.mapoutNext c) := by
  simp [execMapoutNext, Nat.not_le.mpr hc, hdriver]

theorem State.mapoutNext_new (h : s.bit (Reg.memCh c) 3 = false) :
    s.mapoutNext c = (s.setBit (Reg.memCh c) 3 true).recMod (fun r => { r with pendOut := c :: r.pendOut.erase c }) :=
  if_neg (Bool.eq_false_iff.mp h)

theorem State.mapoutNext_again (h : s.bit (Reg.memCh c) 3 = true) : s.mapoutNext c = s := if_pos h

theorem execPoisonClear_driver (h : s.driverRow = true) : execPoisonClear page s = .next (s.poisonDrop page) := congrArg _ (if_pos h)

theorem execPoisonClear_unready (h : s.driverRow = false) : execPoisonClear page s = .next s := congrArg _ (if_neg (Bool.eq_false_iff.mp h))

theorem execMapoutNext_unready (h : s.driverRow = false) : execMapoutNext c s = .next s := by simp [execMapoutNext, h]

/-! ### Reload of a poisoned page (R570 to R572) -/

theorem State.readPageSource_sent {x : Context} (h : s.ctxOf w.sctx = some x) :
    s.readPageSource page w = s.hostGet x.fn x.pasid 18
      (hostAddr x (if w.sealed then w.source + w.pageNo page * 65600 else w.source + w.pageNo page * 65536)) (if w.sealed then 65600 else 65536) := by
  cases sealed : w.sealed <;> simp [State.readPageSource, WeightSet.pageAt, h, sealed]

section Listed
variable (hset : s.setOfPage page = some (o, w))
include hset

theorem execPoisonReloadStart_reads (hnew : s.poison.get? page = some 0) (hsource : w.source ≠ 0) :
    execPoisonReloadStart page s = .next (({ s with poison := s.poison.set page 1 } : State).readPageSource page w) := by
  simp only [execPoisonReloadStart, hnew, hset, if_neg hsource]

/-- A reload whose reads came, and whose seal holds, goes on to the directory entries of the page's lines and then to its last write. -/
theorem execPoisonReloadDone_goes (hlisted : s.poison.get? page = some 1) (hseal : s.sealOk w = true) (hreads : s.sourceWaits w = false) :
    execPoisonReloadDone page s = .next (if s.linesHeld (fun l => l / 512 == page) then s.evictLines (fun l => l / 512 == page)
      else ((({ s with tick := s.tick + 1 } : State).writePage page s.tick).poisonDrop page).addWrap Reg.rasPoisonStat 47 32 1) := by
  simp [execPoisonReloadDone, State.stamp, hlisted, hset, hseal, hreads]

theorem execPoisonReloadDone_again (hlisted : s.poison.get? page = some 2) :
    execPoisonReloadDone page s = .next (({ s with poison := s.poison.set page 1 } : State).readPageSource page w) := by
  simp only [execPoisonReloadDone, hlisted, hset]

theorem execPoisonReloadFail_keeps (hlisted : s.poison.get? page = some v) (hfails : v ≠ 0 ∨ w.source = 0) :
    execPoisonReloadFail page s = .next
      ((({ s with poison := s.poison.set page 0 } : State).addSat Reg.rasPoisonStat 63 48 1).record 0x10 0 16 (page * 65536) w.ease 8 0) := by
  have not_startable : ¬ (v = 0 ∧ w.source ≠ 0) := by tauto
  simp only [execPoisonReloadFail, hlisted, hset, if_neg not_startable]

end Listed

/-- A page that is not listed, or of no resident set, is in no reload. -/
theorem execPoisonReload_none (h : s.poison.get? page = none ∨ s.setOfPage page = none) :
    execPoisonReloadStart page s = .next s ∧ execPoisonReloadDone page s = .next s ∧ execPoisonReloadFail page s = .next s := by
  unfold execPoisonReloadStart execPoisonReloadDone execPoisonReloadFail
  obtain unlisted | no_set := h
  · simp only [unlisted, and_self]
  · rw [no_set]
    rcases s.poison.get? page with _ | ⟨_ | _ | _ | _⟩ <;> exact ⟨rfl, rfl, rfl⟩

end Sys2Proof.Machine

open Sys2Proof Sys2Proof.Machine

/-- Settles O23, command by command; a reload in progress by whether the directory still holds a line of its page. -/
theorem stackReportsAndPoison : Obligations.StackReportsAndPoison := by
  refine ⟨?_, ?_, ?_, ?_, ?_, ?_, ?_⟩
  · exact fun s dpa hmem hch => ⟨execHbmReadBurst_corrected hmem hch, execHbmReadBurst_uncorrectable hmem hch⟩
  · exact fun s dpa u => execHbmReadBurst_outside
  · intro s c hc hdriver
    have marks := execMapoutNext_driver hc hdriver
    exact ⟨fun new => marks.trans (congrArg _ (State.mapoutNext_new new)), fun again => marks.trans (congrArg _ (State.mapoutNext_again again))⟩
  · intro s page o w hset
    refine ⟨fun x hnew hsource hctx => ?_, fun hlisted hseal hreads => ?_, execPoisonReloadDone_again hset, fun v => execPoisonReloadFail_keeps hset⟩
    · exact (execPoisonReloadStart_reads hset hnew hsource).trans (congrArg _ (State.readPageSource_sent hctx))
    · have goes := execPoisonReloadDone_goes hset hlisted hseal hreads
      exact ⟨fun held => goes.trans (congrArg _ (if_pos held)), fun free => goes.trans (congrArg _ (if_neg (Bool.eq_false_iff.mp free)))⟩
  · exact fun s page => execPoisonReload_none
  · exact fun s page => execPoisonClear_driver
  · exact fun s page c hunready => ⟨execPoisonClear_unready hunready, execMapoutNext_unready hunready⟩
end

section
/-! PROOFS. Bring-up of a chiplet site and the ways it goes down (R320 to R334, R363, R365, R368). -/

namespace Sys2Proof.Machine

variable {s t : State} {n : Nat}

/-! ### What the hub knows of a site -/

@[simp] theorem State.site_modSite_same (s : State) (n : Nat) (f : SiteSt → SiteSt) : (s.modSite n f).site n = f (s.site n) := by
  simp [State.site]

theorem State.booked_site (h : s.booked t) (n : Nat) : t.site n = s.site n := by obtain ⟨_, _, _, _, _, _, _, _, _, _, rfl⟩ := h; rfl

theorem State.modStats_booked (s : State) (n : Nat) : s.booked (s.modStats n) :=
  State.foldl_booked _ (fun s _ => s.setField_booked _ _ _ _) _ _

/-- The site record changes the modules in use and their widths; its report in SITE_STAT and SITE_MOD_STAT is registers only. -/
theorem State.siteRecord_site (s : State) (n active half : Nat) :
    (s.siteRecord n active half).site n = { s.site n with active := active, half := half } :=
  (State.booked_site (State.modStats_booked _ n) n).trans (s.site_modSite_same n _)

/-! ### Bring-up (Table 11-3) -/

theorem execSiteRailGood_rail (hn : n < 8) (hrail : s.siteSt n = 1) :
    execSiteRailGood n s = .next ((s.modSite n (fun x => { x with rail := 650 + 5 * fld (s.siteConf n) 14 8 })).siteState n 2) :=
  congrArg _ (if_pos ⟨hn, hrail⟩)

theorem execSiteResetRelease_reset (hn : n < 8) (hreset : s.siteSt n = 2) (hrail : (s.site n).rail ≠ 0) (hboot : s.boot.step = 7 ∨ s.boot.step = 10) :
    execSiteResetRelease n s = .next
      (((s.modSite n (fun x => { x with sb := [(0, BitVec.ofNat 64 (0x10 * 2 ^ 40))], stage := 0, retried := false })).siteState n 3).emit
        (.pin (0x100 + n) true)) :=
  congrArg _ (if_pos ⟨hn, hreset, hrail, hboot⟩)

theorem execNoSideband_training (hn : n < 8) (htraining : s.siteSt n = 3) (hstage : (s.site n).stage = 0) :
    execNoSideband n s = .next (s.siteAbsent n 4).bootCheck :=
  congrArg _ (if_pos ⟨hn, htraining, hstage⟩)

/-- The chiplet's registers as the hub holds them once it has read them over the sideband. -/
def sidebandRegs (regs : List (Nat × Nat)) : Tbl W64 :=
  (regs.filter (fun (e : Nat × Nat) => decide (e.1 < 0x400))).foldl (fun (m : Tbl W64) (e : Nat × Nat) => m.set e.1 (BitVec.ofNat 64 e.2)) []

theorem execSidebandReady_training (hn : n < 8) (htraining : s.siteSt n = 3) (hstage : (s.site n).stage = 0) (regs : List (Nat × Nat)) :
    execSidebandReady n regs s = .next (s.modSite n (fun x =>
      { x with sb := sidebandRegs regs, stage := 1, width := s.siteWidth n (fld (((sidebandRegs regs).getD 8 0).toNat) 12 10) })).modMaps :=
  congrArg _ (if_pos ⟨hn, htraining, hstage⟩)

theorem execRestart_down (hn : n < 8) (hdown : s.siteSt n = 5) :
    execRestart n s = .next ((s.modSite n (fun x => { x with restart := true })).beginRestart n) :=
  congrArg _ (if_pos ⟨hn, hdown⟩)

theorem execRestart_not_down (hdown : s.siteSt n ≠ 5) : execRestart n s = .next s :=
  congrArg _ (if_neg fun h => hdown h.2)

/-- After start-up the modules of the record are trained again; where all of them come back and the width read is that of the record, the
record takes its half-width modules anew and the credit exchange is next. What was counted before, in `t`, is no part of the site. -/
theorem execSiteTrainingDone_matched {active half read : Nat} (repairs scratch : Nat) (hn : n < 8) (htraining : s.siteSt n = 3)
    (hstage : (s.site n).stage = 1) (hboot : s.boot.step = 10) (hfirst : (s.site n).retried = false)
    (hall : active &&& (s.site n).active = (s.site n).active) (hsome : (s.site n).active ≠ 0)
    (hread : read = (s.site n).active + (half &&& (s.site n).active) * 2 ^ 12) (hlt : read < 2 ^ 24) :
    ∃ t : State, t.site n = s.site n ∧ execSiteTrainingDone n active half repairs scratch read s = .next
      ((t.siteRecord n (s.site n).active (half &&& (s.site n).active)).modSite n (fun y => { y with stage := 2 })) := by
  have counts := State.booked_trans (s.transit_booked (Reg.siteCnt n 5) 1) (State.transit_booked _ (Reg.siteCnt n 4) repairs)
  have warm : ¬ (s.boot.step = 7 ∧ (!false) = true) := by omega
  have same : read % 2 ^ 24 = (s.site n).active + (half &&& (s.site n).active) * 2 ^ 12 := (Nat.mod_eq_of_lt hlt).trans hread
  unfold execSiteTrainingDone
  simp only [hn, htraining, hstage, and_self, if_true, hfirst, if_neg warm, hall, if_neg hsome, if_pos same]
  refine ⟨_, ?_, rfl⟩
  exact State.booked_site counts n

/-- The credits in headers and in data units that a chiplet advertises, class by class. -/
def State.offerH (s : State) (n : Nat) : List Nat := (upTo 5).map (fun c => fld (s.sbRead n 0x18) (8 * c + 7) (8 * c))
def State.offerD (s : State) (n : Nat) : List Nat := (upTo 4).map (fun c => fld (s.sbRead n 0x20) (16 * c + 15) (16 * c)) ++ [0]

/-- Whether some class of the credits is below the least that a chiplet may advertise. -/
def creditShort (h d : List Nat) : Bool := (upTo 5).any (fun c => decide (h.getD c 0 < minH.getD c 0) || decide (d.getD c 0 < minD.getD c 0))

/-- A site that becomes UP: its link starts with the chiplet's credits and the hub's first flit, and a site in no parcel waits with FLUSH set
(R327). -/
def State.openLink (s : State) (n : Nat) : State :=
  let s1 := if (s.parcelOfSite n).isNone then s.setFlush n true else s
  let s2 := s1.modSite n (fun x => { x with
    credH := s.offerH n, credD := s.offerD n, grantH := hubH, grantD := hubD, rxSeq := 0, rxHold := [], rxPkt := [], rxNeed := 0
    txSlots := [(3, controlSlot hubH hubD)], txSeq := 0, txMod := 0 })
  ((s2.sendFlit n).clearAgents n).siteState n 4

theorem creditShort_iff (h d : List Nat) :
    creditShort h d = true ↔ ∃ c, c < 5 ∧ (h.getD c 0 < minH.getD c 0 ∨ d.getD c 0 < minD.getD c 0) := by
  simp [creditShort, upTo]

theorem creditShort_eq_false {h d : List Nat} (enough : ∀ c, c < 5 → minH.getD c 0 ≤ h.getD c 0 ∧ minD.getD c 0 ≤ d.getD c 0) :
    creditShort h d = false := by
  refine Bool.eq_false_iff.mpr fun short => ?_
  obtain ⟨c, hc, below⟩ := (creditShort_iff h d).mp short
  have least := enough c hc
  omega

theorem execCreditExchange_trained (hn : n < 8) (htraining : s.siteSt n = 3) (hstage : (s.site n).stage = 2) :
    execCreditExchange n s = .next (if creditShort (s.offerH n) (s.offerD n) then s.siteFall n 3 else (s.openLink n).bootCheck) :=
  congrArg _ (if_pos ⟨hn, htraining, hstage⟩)

/-! ### Going down -/

theorem execSiteDown_listed {k : Nat} (hn : n < 8) (hcause : (s.siteSt n = 4 ∧ 1 ≤ k ∧ k ≤ 4) ∨ (s.rising n = true ∧ 3 ≤ k ∧ k ≤ 5)) :
    execSiteDown n k s = .next (s.siteFall n k) :=
  congrArg _ (if_pos ⟨hn, hcause⟩)

theorem State.railOff_on (hn : n < 8) (hon : (s.site n).rail ≠ 0) :
    s.railOff n = (s.siteFall n 4).modSite n (fun x => { x with rail := 0 }) := if_pos ⟨hn, hon⟩

theorem State.railOff_off (hoff : (s.site n).rail = 0) : s.railOff n = s := if_neg fun h => h.2 hoff

theorem execRailTrip_under (s : State) (n : Nat) : execRailTrip (.under n) s = .next (s.railOff n) := rfl

theorem execRailTrip_over_above (h : s.overPower n = true) : execRailTrip (.over n) s = .next (s.railOff n) := congrArg _ (if_pos h)

theorem execRailTrip_over_within (h : s.overPower n = false) : execRailTrip (.over n) s = .next s :=
  congrArg _ (if_neg (Bool.eq_false_iff.mp h))

theorem execReplayExhausted_up (hn : n < 8) (hup : s.siteSt n = 4) : execReplayExhausted n s = .next (s.siteFall n 2) :=
  congrArg _ (if_pos ⟨hn, hup⟩)

theorem execRespUsExpiry_owed (hn : n < 8) (hup : s.siteSt n = 4) (howed : (s.site n).owed ≠ []) :
    execRespUsExpiry n s = .next (s.siteFall n 1) := by
  simp [execRespUsExpiry, hn, hup, howed]

/-- Nothing at a site waits for an answer. -/
theorem execRespUsExpiry_answered (howed : (s.site n).owed = []) (hcancels : (s.site n).cancels = []) (hxinv : (s.site n).xinv = []) :
    execRespUsExpiry n s = .next s := by
  simp [execRespUsExpiry, howed, hcancels, hxinv]

/-- The hub's copy of BLK_ERR takes the word read. -/
def State.storeErr (s : State) (n err : Nat) : State := s.modSite n (fun x => { x with sb := x.sb.set 0x40 (BitVec.ofNat 64 err) })

theorem State.readErr_ue {err : Nat} (hn : n < 8) (hup : s.siteSt n = 4) (hue : err.testBit 16 = true) :
    s.readErr n err = (s.storeErr n err).siteFall n 3 := (if_pos ⟨hn, hup⟩).trans (if_pos hue)

theorem State.readErr_no_ue {err : Nat} (hn : n < 8) (hup : s.siteSt n = 4) (hue : err.testBit 16 = false) :
    s.readErr n err = s.storeErr n err := (if_pos ⟨hn, hup⟩).trans (if_neg (Bool.eq_false_iff.mp hue))

end Sys2Proof.Machine

open Sys2Proof Sys2Proof.Machine

/-- Settles O57, command by command; the trained site by what the site record leaves of it, the credit exchange by whether a class falls
short. -/
theorem sitesComeUpAndGoDown : Obligations.SitesComeUpAndGoDown := by
  refine ⟨?_, ?_, ?_, ?_⟩
  · intro s n hn
    exact ⟨execSiteRailGood_rail hn, execSiteResetRelease_reset hn,
      fun training stage => ⟨execNoSideband_training hn training stage, execSidebandReady_training hn training stage⟩,
      execRestart_down hn, execRestart_not_down⟩
  · intro s n active half repairs scratch read hn htraining hstage hboot hfirst hall hsome hread hlt
    obtain ⟨t, kept, trained⟩ := execSiteTrainingDone_matched repairs scratch hn htraining hstage hboot hfirst hall hsome hread hlt
    refine ⟨_, trained, ?_⟩
    simp [State.siteRecord_site, kept, hfirst]
  · intro s n hn htraining hstage h d
    have exchange := execCreditExchange_trained hn htraining hstage
    exact ⟨fun short => exchange.trans (congrArg _ (if_pos ((creditShort_iff h d).mpr short))),
      fun enough => exchange.trans (congrArg _ (if_neg (Bool.eq_false_iff.mp (creditShort_eq_false enough))))⟩
  · intro s n hn
    refine ⟨fun k => execSiteDown_listed hn, fun on => ?_, fun off => ?_, execReplayExhausted_up hn, execRespUsExpiry_owed hn,
      fun _ => execRespUsExpiry_answered, fun err up => ?_⟩
    · rw [← State.railOff_on hn on]
      exact ⟨execRailTrip_under s n, execRailTrip_over_above, execRailTrip_over_within⟩
    · have stays := State.railOff_off off
      refine ⟨congrArg _ stays, ?_⟩
      cases power : s.overPower n
      · exact execRailTrip_over_within power
      · exact (execRailTrip_over_above power).trans (congrArg _ stays)
    · exact ⟨fun ue => ⟨congrArg _ (State.readErr_ue hn up ue), congrArg _ (State.readErr_ue hn up ue)⟩,
        fun clean => ⟨congrArg _ (State.readErr_no_ue hn up clean), congrArg _ (State.readErr_no_ue hn up clean)⟩⟩
end

section
/-! PROOFS. Flits and credits of a chiplet site, the messages of its foreign engines, flushes, drops and measurement reports (R341 to R369). -/

namespace Sys2Proof.Machine

variable {s t : State} {n : Nat}

theorem State.modSite_congr {f g : SiteSt → SiteSt} (h : f (s.site n) = g (s.site n)) : s.modSite n f = s.modSite n g := by
  simp only [State.modSite, h]

/-! ### Flits (R341, R345) -/

/-- A flit counted as received, with the replays asked for and started. -/
def State.flitCounted (s : State) (n replays : Nat) : State := (s.transit (Reg.siteCnt n 1) 1).transit (Reg.siteCnt n 3) replays

@[simp] theorem State.flitCounted_site (s : State) (n k : Nat) : (s.flitCounted n k).site n = s.site n :=
  State.booked_site (State.booked_trans (s.transit_booked _ _) (State.transit_booked _ _ _)) n

/-- No flit is read while the next in order has not come. -/
theorem State.flitsIn_none_next (hnext : ∀ f ∈ (s.site n).rxHold, f.seq ≠ (s.site n).rxSeq) (k : Nat) : s.flitsIn n k = s := by
  have absent : (s.site n).rxHold.find? (fun f => f.seq == (s.site n).rxSeq) = none := by simpa using hnext
  cases k with
  | zero => rfl
  | succ k => simp only [State.flitsIn, absent]

theorem execFlitReceived_linked (seq ctrl : Nat) (bad nak : Bool) (slots : List Nat) (hn : n < 8) (hup : s.siteSt n = 4) :
    execFlitReceived n seq bad nak ctrl slots s = .next (
      let s1 := s.flitCounted n (b2n nak + b2n bad)
      if bad then s1.transit (Reg.siteCnt n 2) 1
      else if seq < (s1.site n).rxSeq ∨ (s1.site n).rxHold.any (fun f => f.seq == seq) then s1
      else (s1.modSite n (fun y => { y with rxHold := y.rxHold ++ [⟨seq, ctrl, slots⟩] })).flitsIn n ((s1.site n).rxHold.length + 1)) :=
  congrArg _ (if_pos (by simp [hn, hup]))

theorem execFlitReceived_crcBad (seq ctrl : Nat) (nak : Bool) (slots : List Nat) (hn : n < 8) (hup : s.siteSt n = 4) :
    execFlitReceived n seq true nak ctrl slots s = .next ((s.flitCounted n (b2n nak + 1)).transit (Reg.siteCnt n 2) 1) :=
  execFlitReceived_linked seq ctrl true nak slots hn hup

/-- A flit that has been read already is counted only. -/
theorem execFlitReceived_behind {seq : Nat} (ctrl : Nat) (nak : Bool) (slots : List Nat) (hn : n < 8) (hup : s.siteSt n = 4)
    (hseq : seq < (s.site n).rxSeq) : execFlitReceived n seq false nak ctrl slots s = .next (s.flitCounted n (b2n nak)) := by
  rw [execFlitReceived_linked seq ctrl false nak slots hn hup]
  simp [hseq, b2n]

/-- A flit ahead of its turn is held behind those held before, while the next in order has not come. -/
theorem execFlitReceived_ahead {seq : Nat} (ctrl : Nat) (nak : Bool) (slots : List Nat) (hn : n < 8) (hup : s.siteSt n = 4)
    (hseq : (s.site n).rxSeq < seq) (hnew : ∀ f ∈ (s.site n).rxHold, f.seq ≠ seq) (hnext : ∀ f ∈ (s.site n).rxHold, f.seq ≠ (s.site n).rxSeq) :
    execFlitReceived n seq false nak ctrl slots s = .next
      ((s.flitCounted n (b2n nak)).modSite n (fun y => { y with rxHold := y.rxHold ++ [⟨seq, ctrl, slots⟩] })) := by
  have fresh : ¬ (seq < (s.site n).rxSeq ∨ (s.site n).rxHold.any (fun f => f.seq == seq) = true) := by
    simpa using ⟨hseq.le, hnew⟩
  rw [execFlitReceived_linked seq ctrl false nak slots hn hup]
  simp only [State.flitCounted_site, Bool.false_eq_true, if_false, if_neg fresh]
  refine congrArg _ (State.flitsIn_none_next (fun f hf => ?_) _)
  simp only [State.site_modSite_same, State.flitCounted_site, List.mem_append, List.mem_singleton] at hf ⊢
  obtain held | rfl := hf
  · exact hnext f held
  · exact hseq.ne'

/-! ### Credits and waiting packets (R344, R346) -/

/-- The credits of a control slot added to those that the hub holds towards the chiplet. -/
def State.creditBack (s : State) (n w : Nat) : State := s.modSite n (fun x => { x with
  credH := x.credH.mapIdx (fun c v => v + fld w (24 * c + 7) (24 * c))
  credD := x.credD.mapIdx (fun c v => v + fld w (24 * c + 23) (24 * c + 8)) })

theorem execControlSlot_reserved {w : Nat} (hn : n < 8) (hup : s.siteSt n = 4) (hw : fld w 127 120 ≠ 0) :
    execControlSlot n w s = .next (s.siteFall n 3) := by
  simp [execControlSlot, State.creditSlot, hn, hup, hw]

theorem execControlSlot_credits {w : Nat} (hn : n < 8) (hup : s.siteSt n = 4) (hw : fld w 127 120 = 0) :
    execControlSlot n w s = .next ((s.creditBack n w).txCopies n (s.site n).tx.length) := by
  simp [execControlSlot, State.creditSlot, State.creditBack, hn, hup, hw]

/-- A waiting packet sent: its credit spent, and its slots put in line for the chiplet. -/
def State.txSent (s : State) (n : Nat) (m : TxMsg) : State :=
  (s.modSite n (fun y => { (y.spend m.cls m.data.length) with tx := y.tx.erase m })).toSite n (packetSlots m.head m.data)

/-- The one packet that waits is sent where it has credit. -/
theorem State.txGo_only {m : TxMsg} {code : Nat} (hm : (s.site n).tx = [m]) (hcode : m.code = code)
    (hcredit : (s.site n).credit m.cls m.data.length = true) : s.txGo n code = s.txSent n m := by
  simp [State.txGo, State.txSent, hm, hcode, hcredit]

/-! ### Foreign engines (R357 to R360, R362) -/

theorem execWorkMessage_up (hup : s.siteSt n = 4) : execWorkMessage n s = .next (s.txGo n 0x28) := congrArg _ (if_pos hup)
theorem execXinv_up (hup : s.siteSt n = 4) : execXinv n s = .next (s.txGo n 0x2E) := congrArg _ (if_pos hup)
theorem execXlated_up (hup : s.siteSt n = 4) : execXlated n s = .next (s.txGo n 0x2D) := congrArg _ (if_pos hup)

/-- A CANCEL that is sent is held until its answer. -/
theorem execCancel_only {m : TxMsg} (hup : s.siteSt n = 4) (hm : (s.site n).tx = [m]) (hcode : m.code = 0x2A)
    (hcredit : (s.site n).credit m.cls m.data.length = true) (hroom : (s.site n).credit 1 0 = true) :
    execCancel n s = .next ((s.txSent n m).modSite n (fun x => { x with cancels := x.cancels ++ [(m.who, m.txid)] })) := by
  simp [execCancel, hup, hm, hcode, hroom, State.txGo_only hm hcode hcredit]

/-- A received packet taken off the list of those that wait for their commands. -/
def State.rxTaken (s : State) (n code txid : Nat) (l : List Nat) : State :=
  s.modSite n (fun x => { x with rxq := x.rxq.erase (code, txid, l) })

theorem State.rxTake_waiting {code txid : Nat} {l : List Nat} (hup : s.siteSt n = 4) (hmem : (code, txid, l) ∈ (s.site n).rxq) :
    s.rxTake n code txid l = some (s.rxTaken n code txid l) := if_pos ⟨hup, List.contains_iff_mem.mpr hmem⟩

@[simp] theorem State.rxTaken_site (s : State) (n code txid : Nat) (l : List Nat) :
    (s.rxTaken n code txid l).site n = { s.site n with rxq := (s.site n).rxq.erase (code, txid, l) } := s.site_modSite_same n _

/-- The statuses that a DONE may bring (R357). -/
def doneStatuses : List Nat := [0x00, 0x01, 0x11, 0x50, 0x42, 0xF0]

theorem execDone_outstanding {txid st detail result : Nat} {w : WorkOut} (hup : s.siteSt n = 4)
    (hmem : (0x29, txid, [st, detail, result]) ∈ (s.site n).rxq) (hwork : (s.site n).works.get? txid = some w) :
    execDone n txid st detail result s = .next
      ((w.refs.foldl State.devDrop ((s.rxTaken n 0x29 txid [st, detail, result]).modSite n (fun x => { x with works := x.works.erase txid }))).answer
        w.queue w.idx ⟨if st ∈ doneStatuses then st else 0xF0, detail, result⟩) := by
  simp [execDone, State.rxTake_waiting hup hmem, hwork, doneStatuses, or_assoc]

theorem execCancelled_taken {txid who : Nat} (hup : s.siteSt n = 4) (hmem : (0x2B, txid, [who]) ∈ (s.site n).rxq) :
    execCancelled n txid who s = .next (
      let s1 := s.rxTaken n 0x2B txid [who]
      if who < 256 then s1.modShip who (fun x => { x with returns := x.returns.modify txid (fun e => { e with answer := some 0, cancelled := true }) })
      else s1.modSite n (fun x => { x with works := x.works.erase txid })) := by
  simp only [execCancelled, State.rxTake_waiting hup hmem]

theorem execXinvack_taken {txid ctx : Nat} (hup : s.siteSt n = 4) (hmem : (0x2F, txid, [ctx]) ∈ (s.site n).rxq) :
    execXinvack n txid ctx s = .next (
      let k := (s.site n).xinv.getD txid 0
      ((((s.rxTaken n 0x2F txid [ctx]).modSite n (fun x => { x with xinv := if k ≤ 1 then x.xinv.erase txid else x.xinv.set txid (k - 1) })).modCtx txid
        (fun c => { c with xinv := c.xinv - 1 })).xinvEnd txid)) := by
  simp only [execXinvack, State.rxTake_waiting hup hmem, State.modSite, State.rxTaken_site]

/-! ### XLATE (R358, R359) -/

/-- The XLATED that answers an XLATE, put in line for the chiplet. -/
def State.xlateReply (s : State) (n txid code w dpa : Nat) : State :=
  s.txPush n (txPacket 0x2D 3 (s.parcelTag n) (672 + n) 0 txid 0 (code + w * 2 ^ 8 + dpa / 16 * 2 ^ 10) [])

/-- The translation of a block for an engine, which may not name the host window. -/
def State.xlateBlock (s : State) (c : Context) (pva write : Nat) : Except Xfault (Xlat × Nat × Nat) :=
  if inHost pva then .error ⟨0x07, 0⟩ else s.translateFresh c none pva write

theorem State.xlateBlock_host (s : State) (c : Context) {pva : Nat} (write : Nat) (h : inHost pva = true) :
    s.xlateBlock c pva write = .error ⟨0x07, 0⟩ := if_pos h

theorem State.xlateBlock_inside (s : State) (c : Context) {pva : Nat} (write : Nat) (h : inHost pva = false) :
    s.xlateBlock c pva write = s.translateFresh c none pva write := if_neg (Bool.eq_false_iff.mp h)

section Xlate
variable {txid ctx page write : Nat}

theorem execXlate_no_context (htake : s.rxTake n 0x2C txid [ctx, page, write] = some t) (hctx : t.ctxs.get? ctx = none) :
    execXlate n txid ctx page write s = .next (t.xlateReply n txid 0x01 0 0) := by
  simp only [execXlate, htake, hctx, State.xlateReply]

variable {c : Context}

theorem execXlate_other_parcel (htake : s.rxTake n 0x2C txid [ctx, page, write] = some t) (hctx : t.ctxs.get? ctx = some c)
    (hparcel : t.parcelOfSite n ≠ some c.parcel) : execXlate n txid ctx page write s = .next (t.xlateReply n txid 0x01 0 0) := by
  simp only [execXlate, htake, hctx, if_pos hparcel, State.xlateReply]

theorem execXlate_ok {x : Xlat} {leaf sh : Nat} (htake : s.rxTake n 0x2C txid [ctx, page, write] = some t) (hctx : t.ctxs.get? ctx = some c)
    (hparcel : t.parcelOfSite n = some c.parcel) (hblock : t.xlateBlock c (page * 65536) write = .ok (x, leaf, sh)) :
    execXlate n txid ctx page write s = .next (t.xlateReply n txid 0 (b2n (leaf.testBit 2 && !x.ease)) (x.dpa / 65536 * 65536)) := by
  unfold State.xlateBlock at hblock
  simp only [execXlate, htake, hctx, if_neg (not_not_intro hparcel), hblock, State.xlateReply]

theorem execXlate_fault {f : Xfault} (htake : s.rxTake n 0x2C txid [ctx, page, write] = some t) (hctx : t.ctxs.get? ctx = some c)
    (hparcel : t.parcelOfSite n = some c.parcel) (hblock : t.xlateBlock c (page * 65536) write = .error f) :
    execXlate n txid ctx page write s = .next
      ((t.xlateReply n txid f.code 0 0).engineLoss ctx ⟨f.code, write, page * 65536, f.ppa, 0xFFFFFFFF⟩) := by
  unfold State.xlateBlock at hblock
  simp only [execXlate, htake, hctx, if_neg (not_not_intro hparcel), hblock, State.xlateReply]

end Xlate

/-! ### Flush and drop (R352, R353) -/

theorem execFlush_idle (hn : n < 8) (hup : s.siteSt n = 4) (hask : (s.site n).ask = true) (hworks : (s.site n).works = []) :
    execFlush n s = .next ((s.setFlush n true).modSite n (fun x => { x with ask := false })) :=
  congrArg _ (if_pos ⟨hn, hup, hask, List.isEmpty_iff.mpr hworks⟩)

/-- A site without a parcel keeps FLUSH; its FLUSH_DONE is cleared. -/
theorem execFlushDone_no_parcel (hn : n < 8) (hup : s.siteSt n = 4) (hflush : (s.site n).flush = true) (hparcel : s.parcelOfSite n = none) :
    execFlushDone n s = .next (s.modSite n (fun x => { x with sb := x.sb.set 0x38 (BitVec.ofNat 64 (putFld (s.sbRead n 0x38) 0 0 1)) })) :=
  congrArg _ ((if_pos ⟨hn, hup, hflush⟩).trans (if_pos (Option.isNone_iff_eq_none.mpr hparcel)))

theorem execDrop_wanted (hn : n < 8) (hup : s.siteSt n = 4) (hdrop : (s.site n).drop = true) : execDrop n s = .next (s.setDrop n true) :=
  congrArg _ (if_pos ⟨hn, hup, hdrop⟩)

theorem execDropDone_dropped (hn : n < 8) (hup : s.siteSt n = 4) (hdrop : (s.site n).drop = true) (hbit : (s.sbRead n 0x30).testBit 1 = true) :
    execDropDone n s = .next ((s.setDrop n false).clearAgents n) := congrArg _ (if_pos ⟨hn, hup, hdrop, hbit⟩)

theorem execFlushMsExpiry_awaited (hn : n < 8) (hup : s.siteSt n = 4)
    (hwait : ((s.site n).flush = true ∧ (s.sbRead n 0x38).testBit 0 = false) ∨ ((s.site n).drop = true ∧ (s.sbRead n 0x30).testBit 1 = true)) :
    execFlushMsExpiry n s = .next (s.siteFall n 1) :=
  congrArg _ (if_pos ⟨hn, hup, by simpa using hwait⟩)

/-! ### Measurement reports (R369) -/

theorem execMeasReady_asked (report : List Nat) (hn : n < 8) (hmeas : (s.site n).meas = true) :
    execMeasReady n report s = .next
      ((s.blkCtrl n 2 false).modSite n (fun x => { x with meas := false, report := (report.map (· % 256)).take 1024 })) :=
  congrArg _ (if_pos ⟨hn, hmeas⟩)

theorem execMeasTimeout_asked (hn : n < 8) (hmeas : (s.site n).meas = true) :
    execMeasTimeout n s = .next ((s.blkCtrl n 2 false).modSite n (fun x => { x with meas := false, report := [] })) :=
  congrArg _ (if_pos ⟨hn, hmeas⟩)

end Sys2Proof.Machine

open Sys2Proof Sys2Proof.Machine

/-- Settles O58, command by command; an XLATE by its context, its parcel, and what the translation of its block gives. -/
theorem flitsMessagesAndFlushes : Obligations.FlitsMessagesAndFlushes := by
  refine ⟨?flits, ?credits, ?messages, ?done, ?cancelled, ?xlate, ?xinvack, ?flushes, ?reports⟩
  case flits =>
    intro s n seq ctrl nak slots hn hup
    refine ⟨execFlitReceived_crcBad seq ctrl nak slots hn hup, fun empty ahead => ?_, execFlitReceived_behind ctrl nak slots hn hup⟩
    have held := execFlitReceived_ahead ctrl nak slots hn hup ahead (by simp [empty]) (by simp [empty])
    exact held.trans (congrArg _ (State.modSite_congr (by simp [empty])))
  case credits =>
    intro s n w hn hup
    refine ⟨execControlSlot_reserved hn hup, fun clear idle => ?_⟩
    have credits := execControlSlot_credits hn hup clear
    rwa [idle] at credits
  case messages =>
    intro s n m hn hup only credit
    exact ⟨fun code => (execWorkMessage_up hup).trans (congrArg _ (State.txGo_only only code credit)),
      fun code => (execXinv_up hup).trans (congrArg _ (State.txGo_only only code credit)),
      fun code => (execXlated_up hup).trans (congrArg _ (State.txGo_only only code credit)),
      fun code room => execCancel_only hup only code credit room⟩
  case done =>
    intro s n txid st detail result w hup received work
    have answered := execDone_outstanding hup received work
    exact ⟨fun (allowed : st ∈ doneStatuses) => by rwa [if_pos allowed] at answered, fun (other : st ∉ doneStatuses) => by rwa [if_neg other] at answered⟩
  case cancelled =>
    intro s n txid who hup received
    have taken := execCancelled_taken hup received
    exact ⟨fun site => taken.trans (congrArg _ (if_neg (Nat.not_lt.mpr site))), fun ship => taken.trans (congrArg _ (if_pos ship))⟩
  case xlate =>
    intro s n txid ctx page write hup received
    have taken := State.rxTake_waiting hup received
    refine ⟨execXlate_no_context taken, fun c known => ⟨execXlate_other_parcel taken known, fun own host => ?_, fun own inside => ?_⟩⟩
    · exact execXlate_fault (f := ⟨0x07, 0⟩) taken known own (State.xlateBlock_host _ c write host)
    · have walked := State.xlateBlock_inside (s.rxTaken n 0x2C txid [ctx, page, write]) c write inside
      exact ⟨fun x leaf sh ok => execXlate_ok taken known own (walked.trans ok),
        fun f fault => execXlate_fault taken known own (walked.trans fault)⟩
  case xinvack =>
    intro s n txid ctx hup received
    exact execXinvack_taken hup received
  case flushes =>
    intro s n hn hup
    exact ⟨execFlush_idle hn hup, execFlushDone_no_parcel hn hup, execDrop_wanted hn hup,
      fun drop bit => ⟨execDropDone_dropped hn hup drop bit, execFlushMsExpiry_awaited hn hup (.inr ⟨drop, bit⟩)⟩,
      fun flush open_ => execFlushMsExpiry_awaited hn hup (.inl ⟨flush, open_⟩)⟩
  case reports =>
    intro s n report hn meas
    exact ⟨execMeasReady_asked report hn meas, execMeasTimeout_asked hn meas⟩
end

section
/-! PROOFS. The step of the block, and the scalar registers and predicates of a thread after a write (R75, Table 03-1). -/

namespace Sys2Proof.Machine

variable {th : Thread} {d p r : Nat}

/-! ### Scalar registers and pairs -/

/-- Register r of a list of scalar registers; s0 reads as zero. -/
theorem Thread.sr_eq (th : Thread) (r : Nat) : th.sr r = if r = 0 then 0 else th.s.getD r 0 := rfl

theorem Thread.apply_sc_zero (th : Thread) (x : W32) : th.apply (Eff.sc 0 x) = th := rfl

theorem Thread.apply_sc_s (hd : d ≠ 0) (x : W32) : (th.apply (Eff.sc d x)).s = th.s.set d x := if_neg hd

theorem Thread.sr_apply_sc (hlen : th.s.length = 16) (hd : d < 16) (x : W32) :
    (th.apply (Eff.sc d x)).sr r = if r = 0 then 0 else if r = d then x else th.sr r := by
  rcases eq_or_ne r 0 with rfl | hr
  · rfl
  rcases eq_or_ne d 0 with rfl | hd0
  · rw [Thread.apply_sc_zero, if_neg hr, if_neg hr]
  rw [Thread.sr_eq, Thread.sr_eq, Thread.apply_sc_s hd0, if_neg hr, if_neg hr, if_neg hr]
  rcases eq_or_ne r d with rfl | hne
  · simp [List.getD, hlen, hd]
  · simp [List.getD, List.getElem?_set_ne hne.symm, hne]

theorem Thread.pr_zero (th : Thread) : th.pr 0 = 0 := rfl

/-- A pair is written as its low word and then its high word. -/
theorem Thread.apply_pr (hp : p ≠ 0) (x : Nat) :
    th.apply (Eff.pr p x) = (th.apply (Eff.sc p (BitVec.ofNat 32 x))).apply (Eff.sc (p + 1) (BitVec.ofNat 32 (x / 2 ^ 32))) := by
  rw [Eff.pr, if_neg hp]
  rfl

theorem Thread.pr_apply_pr {x : Nat} (hlen : th.s.length = 16) (heven : p % 2 = 0) (hp : p < 16) (hx : x < 2 ^ 64) :
    (th.apply (Eff.pr p x)).pr p = if p = 0 then 0 else x := by
  rcases eq_or_ne p 0 with rfl | hp0
  · exact Thread.pr_zero _
  have hlow : (th.apply (Eff.sc p (BitVec.ofNat 32 x))).s.length = 16 := by rw [Thread.apply_sc_s hp0, List.length_set, hlen]
  have low : (th.apply (Eff.pr p x)).sr p = BitVec.ofNat 32 x := by
    rw [Thread.apply_pr hp0, Thread.sr_apply_sc hlow (by omega), if_neg hp0, if_neg (by omega), Thread.sr_apply_sc hlen hp, if_neg hp0, if_pos rfl]
  have high : (th.apply (Eff.pr p x)).sr (p + 1) = BitVec.ofNat 32 (x / 2 ^ 32) := by
    rw [Thread.apply_pr hp0, Thread.sr_apply_sc hlow (by omega), if_neg (by omega), if_pos rfl]
  rw [Thread.pr, if_neg hp0, if_neg hp0, low, high, BitVec.toNat_ofNat, BitVec.toNat_ofNat]
  omega

/-! ### Predicates -/

theorem Thread.pred_apply_pd (hd : d < 4) (hr : r < 4) (b : Bool) :
    (th.apply (Eff.pd th d b)).pred r = if r = d then b else th.pred r := by
  have written : (th.apply (Eff.pd th d b)).pred r = (BitVec.ofNat 4 (putFld th.p.toNat d d (b2n b))).getLsbD r := rfl
  rw [written, BitVec.getLsbD_ofNat, decide_eq_true hr, Bool.true_and, testBit_putFld _ _ _ le_rfl]
  rcases eq_or_ne r d with rfl | hne
  · cases b <;> simp [b2n]
  · rw [if_neg (by omega), if_neg hne]
    exact (BitVec.testBit_toNat _)

end Sys2Proof.Machine

open Sys2Proof Sys2Proof.Machine

/-- Settles O1: the two cases of the queue. -/
theorem stepRunsTheFrontCommand : Obligations.StepRunsTheFrontCommand := by
  refine ⟨fun c r s front => ?_, fun s empty => ?_⟩
  · simp only [step, front]
  · simp only [step, empty]

/-- Settles O2, from the reads after one write, a pair being two of them. -/
theorem registerFileReadsWhatIsWritten : Obligations.RegisterFileReadsWhatIsWritten := by
  refine ⟨fun th d r x hlen hd => Thread.sr_apply_sc hlen hd x, fun th p x => Thread.pr_apply_pr, fun th d x => ?_, fun th d r b hd hr => Thread.pred_apply_pd hd hr b⟩
  exact ⟨rfl, rfl, rfl, rfl, rfl, rfl, rfl⟩
end

section
/-! PROOFS. Frames of the traverse ring: the fields of a frame that is sent on, what a station takes from a frame, and the ways in and out of
the ring (R536, R554 to R559). -/

namespace Sys2Proof

/-! ### Fields of a number after a write of one of them -/

theorem fld_putFld_same (v x : Nat) {hi lo : Nat} (h : lo ≤ hi) : fld (putFld v hi lo x) hi lo = x % 2 ^ (hi + 1 - lo) := by
  refine Nat.eq_of_testBit_eq fun i => ?_
  rw [testBit_fld, testBit_putFld v x (lo + i) h, Nat.testBit_mod_two_pow]
  by_cases inside : i < hi + 1 - lo
  · rw [if_pos (by omega), Nat.add_sub_cancel_left]
  · rw [decide_eq_false inside, Bool.false_and, Bool.false_and]

theorem fld_putFld_apart (v x : Nat) {hi lo a b : Nat} (h : lo ≤ hi) (apart : a < lo ∨ hi < b) :
    fld (putFld v hi lo x) a b = fld v a b := by
  refine Nat.eq_of_testBit_eq fun i => ?_
  rw [testBit_fld, testBit_fld, testBit_putFld v x (b + i) h]
  by_cases inside : i < a + 1 - b
  · rw [if_neg (by omega)]
  · rw [decide_eq_false inside, Bool.false_and, Bool.false_and]

namespace Machine

/-- The CRC of a frame is its byte 15; the other bytes of a sealed frame are those it had. -/
theorem fld_frSeal (f : Nat) {a b : Nat} (h : a < 120) : fld (frSeal f) a b = fld f a b := by
  rw [frSeal, fld_putFld_apart _ _ (by omega) (.inl h)]
  refine Nat.eq_of_testBit_eq fun i => ?_
  rw [testBit_fld, testBit_fld, Nat.testBit_mod_two_pow]
  by_cases inside : i < a + 1 - b
  · rw [decide_eq_true (by omega : b + i < 128), Bool.true_and]
  · rw [decide_eq_false inside, Bool.false_and, Bool.false_and]

variable {s : State} {f : Nat} {act : State → State × Nat}

/-! ### A frame at a joined station (R554) -/

/-- A frame as this station sends it on: one more hop, and sealed again. -/
def frNext (g : Nat) : Nat := frSeal (putFld g 31 24 (frByte g 3 + 1))

theorem fld_frNext (g : Nat) {a b : Nat} (ha : a < 120) (hb : 31 < b) : fld (frNext g) a b = fld g a b := by
  rw [frNext, fld_frSeal _ ha, fld_putFld_apart _ _ (by omega) (.inr hb)]

/-- The state once a frame is counted and sent on. -/
def State.sentOn (s : State) (g : Nat) : State := (s.addWrap Reg.pwrTrvStat 63 48 1).emit (.frame (frByte g 1) [frNext g])

section
variable (hjoined : s.bit Reg.pwrTrvStat 0 = true)
include hjoined

theorem State.ringTake_crcBad (act : State → State × Nat) (hcrc : frByte f 15 ≠ frCrc f) : s.ringTake f act = s.addSat Reg.pwrTrvStat 47 32 1 := by
  simp [State.ringTake, hjoined, hcrc]

theorem State.ringType_crcBad (type : Nat) (act : State → State × Nat) (hcrc : frByte f 15 ≠ frCrc f) :
    s.ringType type f act = s.addSat Reg.pwrTrvStat 47 32 1 :=
  (if_pos (.inr hcrc)).trans (State.ringTake_crcBad hjoined act hcrc)

variable (hcrc : frByte f 15 = frCrc f)
include hcrc

theorem State.ringTake_own (act : State → State × Nat) (hown : frByte f 2 = s.fieldOf Reg.pwrTrvCfg 15 8) : s.ringTake f act = s := by
  simp [State.ringTake, hjoined, hcrc, hown]

theorem State.ringType_own (type : Nat) (act : State → State × Nat) (hown : frByte f 2 = s.fieldOf Reg.pwrTrvCfg 15 8) :
    s.ringType type f act = s := by
  unfold State.ringType
  rw [State.ringTake_own hjoined hcrc act hown, ite_self]

variable (hother : frByte f 2 ≠ s.fieldOf Reg.pwrTrvCfg 15 8)
include hother

theorem State.ringTake_acts (act : State → State × Nat) : s.ringTake f act = (act s).1.sentOn (act s).2 := by
  simp [State.ringTake, hjoined, hcrc, hother, State.sentOn, frNext]

theorem State.ringType_acts {type : Nat} (htype : frByte f 1 = type) (act : State → State × Nat) :
    s.ringType type f act = (act s).1.sentOn (act s).2 :=
  (if_pos (.inl htype)).trans (State.ringTake_acts hjoined hcrc hother act)

end

/-! ### POOL (R555) -/

/-- The tokens that a station holds after a POOL frame, and the FREE that it leaves in the frame. -/
def poolHeld (h want free : Nat) : Nat := if h < want then h + min free (want - h) else want
def poolFree (h want free : Nat) : Nat := if h < want then free - min free (want - h) else free + (h - want)

theorem poolAct_eq (f : Nat) (s : State) :
    poolAct f s = (({ s with power := { s.power with pool := true } } : State).setField Reg.pwrTrvStat 31 16
        (poolHeld (s.fieldOf Reg.pwrTrvStat 31 16) (s.fieldOf Reg.pwrTrvCfg 31 16) (fld f 63 48)),
      putFld f 63 48 (poolFree (s.fieldOf Reg.pwrTrvStat 31 16) (s.fieldOf Reg.pwrTrvCfg 31 16) (fld f 63 48))) := by
  unfold poolAct poolHeld poolFree
  dsimp only
  split <;> rfl

theorem State.sentOn_out (s : State) {g type : Nat} (h : frByte g 1 = type) : (s.sentOn g).out = .frame type [frNext g] :: s.out := by
  rw [State.sentOn, h]
  rfl

theorem State.sentOn_held (s : State) (g : Nat) : (s.sentOn g).fieldOf Reg.pwrTrvStat 31 16 = s.fieldOf Reg.pwrTrvStat 31 16 :=
  s.fieldOf_setField_apart _ _ (by omega) (.inl (by omega))

theorem State.sentOn_reg_ne (s : State) (g : Nat) {off : Nat} (h : off ≠ Reg.pwrTrvStat) : (s.sentOn g).reg off = s.reg off :=
  State.reg_setReg_ne _ _ h

theorem poolHeld_lt {h want : Nat} (free : Nat) (hwant : want < 2 ^ 16) : poolHeld h want free < 2 ^ 16 := by
  unfold poolHeld
  split <;> omega

/-- A POOL frame taken: the tokens that the station holds then, and the frame that it sends on. -/
theorem execPool_acts {f : BitVec 128} (hjoined : s.bit Reg.pwrTrvStat 0 = true) (hcrc : frByte f.toNat 15 = frCrc f.toNat) (htype : frByte f.toNat 1 = 1)
    (hother : frByte f.toNat 2 ≠ s.fieldOf Reg.pwrTrvCfg 15 8) :
    let h := s.fieldOf Reg.pwrTrvStat 31 16
    let want := s.fieldOf Reg.pwrTrvCfg 31 16
    ∃ u g, execPool f s = .next u ∧ u.out = .frame 1 [g] :: s.out ∧ u.fieldOf Reg.pwrTrvStat 31 16 = poolHeld h want (fld f.toNat 63 48) ∧
      fld g 63 48 = poolFree h want (fld f.toNat 63 48) % 2 ^ 16 ∧ fld g 79 64 = fld f.toNat 79 64 ∧
      ∀ off, off ≠ Reg.pwrTrvStat → u.reg off = s.reg off := by
  intro h want
  have taken := State.ringType_acts hjoined hcrc hother htype (poolAct f.toNat)
  rw [poolAct_eq] at taken
  refine ⟨_, frNext (putFld f.toNat 63 48 (poolFree h want (fld f.toNat 63 48))), congrArg Host.Outcome.next taken, ?_, ?_, ?_, ?_, fun off hoff => ?_⟩
  · have type : frByte (putFld f.toNat 63 48 (poolFree h want (fld f.toNat 63 48))) 1 = 1 :=
      (fld_putFld_apart _ _ (by omega) (.inl (by omega))).trans htype
    exact State.sentOn_out _ type
  · rw [State.sentOn_held, State.fieldOf_setField_same _ _ _ (by omega) (by omega)]
    exact Nat.mod_eq_of_lt (poolHeld_lt _ (s.fieldOf_lt Reg.pwrTrvCfg 31 16))
  · rw [fld_frNext _ (by omega) (by omega), fld_putFld_same _ _ (by omega)]
  · rw [fld_frNext _ (by omega) (by omega), fld_putFld_apart _ _ (by omega) (.inr (by omega))]
  · exact (State.sentOn_reg_ne _ _ hoff).trans (State.reg_setReg_ne _ _ hoff)

/-! ### The other frames (R554, R556) -/

section
variable {f : BitVec 128} (hjoined : s.bit Reg.pwrTrvStat 0 = true)
include hjoined

theorem execTraverseFrameForward_crcBad (hcrc : frByte f.toNat 15 ≠ frCrc f.toNat) :
    execTraverseFrameForward f s = .next (s.addSat Reg.pwrTrvStat 47 32 1) :=
  congrArg _ ((if_neg fun h => hcrc h.2).trans (State.ringTake_crcBad hjoined _ hcrc))

variable (hcrc : frByte f.toNat 15 = frCrc f.toNat) (hother : frByte f.toNat 2 ≠ s.fieldOf Reg.pwrTrvCfg 15 8)
include hcrc hother

theorem execCensus_adds (htype : frByte f.toNat 1 = 2) : execCensus f s = .next (s.sentOn (censusAct f.toNat s).2) :=
  congrArg _ (State.ringType_acts hjoined hcrc hother htype _)

/-- A level of at most 3 is held for its origin. -/
theorem execThrottle_holds (htype : frByte f.toNat 1 = 3) (hlevel : frByte f.toNat 6 ≤ 3) :
    execThrottle f s = .next
      ((({ s with free := s.free + 1 } : State).setLevel (s.power.levels.set (frByte f.toNat 2) (frByte f.toNat 6))).sentOn f.toNat) := by
  have taken := State.ringType_acts hjoined hcrc hother htype (throttleAct f.toNat)
  simp only [throttleAct, State.pick, if_pos hlevel] at taken
  exact congrArg _ taken

theorem execRelease_passes (htype : frByte f.toNat 1 = 4) : execRelease f s = .next (s.sentOn f.toNat) :=
  congrArg _ (State.ringType_acts hjoined hcrc hother htype _)

theorem execTraverseFrameForward_passes (htype : 5 ≤ frByte f.toNat 1) : execTraverseFrameForward f s = .next (s.sentOn f.toNat) :=
  congrArg _ ((if_neg (by omega)).trans (State.ringTake_acts hjoined hcrc hother _))

end

/-! ### In and out of the ring (R536, R554, R556, R558, R559) -/

theorem execThrottleExpiry_lapses (s : State) (o : Nat) : execThrottleExpiry o s = .next (s.setLevel (s.power.levels.erase o)) := rfl

section
variable (hjoined : s.bit Reg.pwrTrvStat 0 = true)
include hjoined

theorem execRingLost_joined : execRingLost s = .next (({ s with power := { s.power with pool := false } } : State).pwrEvent 3) :=
  congrArg _ (if_pos hjoined)

theorem execThrottleOriginate_sends (hcause : s.bit Reg.pwrEvent 0 = true ∨ s.bit Reg.pwrEvent 1 = true) (hout : s.bit Reg.pwrThermCfg 16 = true) :
    execThrottleOriginate s = .next (s.ringSend 3 2) := by
  have asked : (s.bit Reg.pwrEvent 0 || s.bit Reg.pwrEvent 1) = true := by simpa using hcause
  simp [execThrottleOriginate, hjoined, asked, hout]

theorem State.closeBypass_joined :
    s.closeBypass = (({ s with power := { s.power with pool := false, levels := [] } } : State).setField Reg.pwrTrvStat 31 0 0).emit (.pin 0x200 false) :=
  if_pos hjoined

theorem State.ringRelease_joined : s.ringRelease = (s.ringSend 4 (s.fieldOf Reg.pwrTrvStat 31 16)).closeBypass := if_pos hjoined

end

theorem execTraverseJoin_opens (hout : s.bit Reg.pwrTrvStat 0 = false) (hready : s.bit Reg.glbStatus 0 = true) (hen : s.bit Reg.pwrTrvCfg 0 = true) :
    execTraverseJoin s = .next
      ((({ s with power := { s.power with pool := false } } : State).setBit Reg.pwrTrvStat 0 true).emit (.pin 0x200 true)) := by
  simp [execTraverseJoin, hout, hready, hen]

/-- The writable fields of PWR_TRV_CFG stored, in the register and in the record. -/
def State.trvStore (s : State) (w : Nat) : State := (s.setReg Reg.pwrTrvCfg (BitVec.ofNat 64 w)).recMod (fun r => { r with trv := w })

/-- PWR_TRV_CFG as a write leaves it. -/
def State.trvWord (s : State) (v : Nat) : Nat := putFld (putFld (s.reg Reg.pwrTrvCfg).toNat 0 0 v) 47 8 (fld v 47 8)

theorem execTraverseConfigWrite_enabled {v : W64} (hdriver : s.driverRow = true) (hen : v.toNat.testBit 0 = true) :
    execTraverseConfigWrite v s = .next (s.trvStore (s.trvWord v.toNat)) := by
  simp [execTraverseConfigWrite, hdriver, State.trvWrite, hen, State.trvStore, State.trvWord]

theorem execTraverseConfigWrite_leaves {v : W64} (hdriver : s.driverRow = true) (hen : v.toNat.testBit 0 = false) :
    execTraverseConfigWrite v s = .next (s.ringRelease.trvStore (s.trvWord v.toNat)) := by
  simp [execTraverseConfigWrite, hdriver, State.trvWrite, hen, State.trvStore, State.trvWord]

end Machine

end Sys2Proof

open Sys2Proof Sys2Proof.Machine

/-- Settles O55: the tokens held and FREE after a POOL frame, by whether the station holds fewer than, more than, or as many as it wants. -/
theorem poolTokensAreTakenAndReturned : Obligations.PoolTokensAreTakenAndReturned := by
  intro s f hjoined hcrc htype hother H WANT FREE
  obtain ⟨u, g, taken, out, held, free, budget, kept⟩ := execPool_acts hjoined hcrc htype hother
  have hfree : FREE < 2 ^ 16 := fld_lt _ 63 48
  refine ⟨u, g, taken, out, fun below => ?_, fun above => ?_, fun same => ?_, budget, kept⟩
  · rw [held, free, poolHeld, poolFree, if_pos below, if_pos below]
    exact ⟨rfl, Nat.mod_eq_of_lt (by omega)⟩
  · rw [held, free, poolHeld, poolFree, if_neg (by omega), if_neg (by omega)]
    exact ⟨rfl, rfl⟩
  · rw [held, free, poolHeld, poolFree, if_neg (by omega), if_neg (by omega), Nat.sub_eq_zero_of_le (by omega : H ≤ WANT)]
    exact ⟨same.symm, Nat.mod_eq_of_lt hfree⟩

/-- Settles O56: frames by their CRC, their origin and their type, then the ways in and out of the ring. -/
theorem theTraverseRing : Obligations.TheTraverseRing := by
  refine ⟨?badCrc, ?frames, execThrottleExpiry_lapses, ?joined, ?join, ?config⟩
  case badCrc =>
    intro s f hjoined hcrc u
    have counted (type : Nat) (act : State → State × Nat) : Host.Outcome.next (ρ := Refusal) (φ := Fault) (s.ringType type f.toNat act) = .next u :=
      congrArg _ (State.ringType_crcBad hjoined type act hcrc)
    exact ⟨counted _ _, counted _ _, counted _ _, counted _ _, execTraverseFrameForward_crcBad hjoined hcrc⟩
  case frames =>
    intro s f hjoined hcrc
    refine ⟨fun hown => ⟨congrArg _ (State.ringType_own hjoined hcrc _ _ hown), congrArg _ (State.ringType_own hjoined hcrc _ _ hown)⟩,
      fun hother => ?_⟩
    intro hop
    refine ⟨execCensus_adds hjoined hcrc hother, fun htype hlevel => ?_, fun htype => ?_, execTraverseFrameForward_passes hjoined hcrc hother⟩
    · rw [← htype]
      exact execThrottle_holds hjoined hcrc hother htype hlevel
    · rw [← htype]
      exact execRelease_passes hjoined hcrc hother htype
  case joined =>
    intro s hjoined
    exact ⟨execRingLost_joined hjoined, execThrottleOriginate_sends hjoined, congrArg _ (State.closeBypass_joined hjoined)⟩
  case join =>
    intro s hout hready hen
    exact execTraverseJoin_opens hout hready hen
  case config =>
    intro s v hdriver w
    refine ⟨execTraverseConfigWrite_enabled hdriver, fun hen hjoined => ?_⟩
    exact State.ringRelease_joined hjoined ▸ execTraverseConfigWrite_leaves hdriver hen
end

section
/-! PROOFS. Tables with a free number, and the creation of easements in ascending order (R472). -/

namespace Sys2Proof

variable {α : Type}

theorem Tbl.mem_keys_of_has {t : Tbl α} {k : Nat} (h : t.has k = true) : k ∈ t.keys := by
  induction t with
  | nil => cases h
  | cons e r ih =>
    by_cases same : e.1 = k
    · exact same ▸ List.mem_cons_self
    · have later : Tbl.has r k = true := by simpa [Tbl.has, Tbl.get?, same] using h
      exact List.mem_cons_of_mem _ (ih later)

/-- As many numbers as a table has entries, and one more, hold one that is no key. -/
theorem Tbl.exists_free (t : Tbl α) : ∃ k, k < t.length + 1 ∧ t.has k = false := by
  by_contra none_free
  push Not at none_free
  have all_keys : List.range (t.length + 1) ⊆ t.keys := fun k hk =>
    Tbl.mem_keys_of_has (Bool.eq_true_of_not_eq_false (none_free k (List.mem_range.mp hk)))
  have := (List.nodup_range.subperm all_keys).length_le
  simp only [Tbl.keys, List.length_range, List.length_map] at this
  omega

/-- In a table with fewer than n entries the free key is the least number that is no key, and it is below n. -/
theorem Tbl.freeKey_spec (t : Tbl α) {n : Nat} (h : t.length < n) :
    t.freeKey n < n ∧ t.has (t.freeKey n) = false ∧ ∀ k, k < t.freeKey n → t.has k = true := by
  have range : min n (t.length + 1) = t.length + 1 := by omega
  obtain ⟨free, hfree, hno⟩ := t.exists_free
  unfold Tbl.freeKey
  rw [range]
  cases found : (upTo (t.length + 1)).find? (fun k => !t.has k) with
  | none =>
    have := List.find?_eq_none.mp found free (List.mem_range.mpr hfree)
    simp [hno] at this
  | some e =>
    have mem := List.mem_range.mp (List.mem_of_find?_eq_some found)
    refine ⟨by simp only [Option.getD_some]; omega, by simpa using List.find?_some found, fun k hk => ?_⟩
    obtain ⟨-, i, hi, rfl, before⟩ := List.find?_eq_some_iff_getElem.mp found
    simp only [Option.getD_some, upTo, List.getElem_range] at hk before
    simpa using before k hk

namespace Machine

variable {s : State} {q i : Nat} {x : Queue} {c : Cmd}

/-- EASE_CREATE names no parcel, and so none that is halted. -/
theorem haltedFor_easeCreate (s : State) (q i : Nat) : s.haltedFor q i 0x074 = false := rfl

/-- What EASE_CREATE of a size in range comes to: NO_MEMORY, or a new easement of the free number. -/
theorem execEaseCreate_outcome (hidle : s.parcelBusy = false) (hruns : s.runs q i 0x074 x c) (hreserved : reservedByte c.pkt [(8, 9)] = none)
    (hleast : 1 ≤ pb c.pkt 9 8) (hmost : pb c.pkt 9 8 ≤ 1024) (hconf : s.confidential = false) :
    execEaseCreate q i s = .next (if 256 ≤ s.eases.length then s.answer q i ⟨0x30, 0, 0⟩
      else ({ s with eases := s.eases.set (s.eases.freeKey 256) ⟨pb c.pkt 9 8, [], 0⟩ }).gate.answer q i ⟨0, 0, s.eases.freeKey 256⟩) := by
  have size_ok : firstBad [(pb c.pkt 9 8 == 0 || decide (1024 < pb c.pkt 9 8), 8)] = none := by
    have not_zero : (pb c.pkt 9 8 == 0) = false := by simp; omega
    rw [not_zero, Bool.false_or, firstBad_atMost hmost, firstBad_nil]
  rw [execEaseCreate, parcelServe_runs hruns hidle (haltedFor_easeCreate s q i)]
  simp only [packetCheck_none hreserved firstBad_nil size_ok, hconf]
  rfl

end Machine

end Sys2Proof

open Sys2Proof Sys2Proof.Machine

/-- Settles O39: the free key of a table with fewer than 256 entries is its least number without one. -/
theorem easementsAreCreatedInOrder : Obligations.EasementsAreCreatedInOrder := by
  intro s q i x c hidle hruns hreserved hleast hmost hconf
  have outcome := execEaseCreate_outcome hidle hruns hreserved hleast hmost hconf
  refine ⟨fun full => outcome.trans (congrArg _ (if_pos full)), fun room => ?_⟩
  obtain ⟨below, free, least⟩ := s.eases.freeKey_spec room
  exact ⟨s.eases.freeKey 256, below, free, least, outcome.trans (congrArg _ (if_neg (Nat.not_le.mpr room)))⟩
end

section
/-! PROOFS. Share guarantees, misses and expiries: SHARE_SET, the end of a slot window, the expiry of slack, and what a recorded miss leaves of the
block registers and of the messages out (R478 to R484). -/

namespace Sys2Proof.Machine

variable {s : State}

/-! ### One bit of a register -/

theorem State.bit_setBit (s : State) (off i j : Nat) (b : Bool) (hj : j < 64) :
    (s.setBit off i b).bit off j = if j = i then b else s.bit off j := by
  rw [State.bit, State.setBit, State.setField_reg, BitVec.toNat_ofNat, Nat.testBit_mod_two_pow, decide_eq_true hj, Bool.true_and,
    testBit_putFld _ _ _ le_rfl]
  rcases eq_or_ne j i with rfl | hne
  · cases b <;> simp [b2n]
  · rw [if_neg (by omega), if_neg hne, State.bit]

theorem State.bit_congr {s t : State} {off : Nat} (h : t.reg off = s.reg off) (i : Nat) : t.bit off i = s.bit off i := by
  rw [State.bit, State.bit, h]

/-! ### Messages to the host of the PF leave the block registers -/

theorem State.writeTlps_regs (n : Nat) (pasid : Option Pasid) (xlat : Bool) : ∀ (k : Nat) (s : State) (addr : Nat) (bs : List Byte),
    (s.writeTlps n pasid xlat k addr bs).regs = s.regs
  | 0, _, _, _ => rfl
  | k + 1, s, addr, bs => by
    unfold State.writeTlps
    dsimp only
    split
    · rfl
    · exact State.writeTlps_regs n pasid xlat k _ _ _

/-- No page is logged for a write of the PF. -/
theorem State.dirtyLog_pf (s : State) (addr len : Nat) : s.dirtyLog 0 addr len = s := if_neg (by omega)

theorem State.hostPutRaw_pf_regs (s : State) (addr : Nat) (bs : List Byte) : (s.hostPutRaw 0 addr bs).regs = s.regs := by
  unfold State.hostPutRaw
  split
  · rfl
  · rw [State.hostWrite, State.dirtyLog_pf]
    exact State.writeTlps_regs ..

theorem State.fnEvent_pf_regs (s : State) (code detail : Nat) : (s.fnEvent 0 code detail).regs = s.regs := by
  unfold State.fnEvent
  split
  · rfl
  · exact State.hostPutRaw_pf_regs ..

theorem State.reg_of_regs {s t : State} (h : t.regs = s.regs) (off : Nat) : t.reg off = s.reg off := by
  rw [State.reg, State.reg, h]

/-- A trace record changes no register but TRN_STAT, in which a record that is dropped counts. -/
theorem State.trace_reg_ne (s : State) (kind domain unit : Nat) (payload : List Byte) {off : Nat} (h : off ≠ Reg.trnStat) :
    (s.trace kind domain unit payload).reg off = s.reg off := by
  unfold State.trace
  dsimp only
  split
  · split
    · exact State.reg_setReg_ne _ _ h
    · exact State.reg_of_regs (State.hostPutRaw_pf_regs ..) off
  · rfl

theorem State.trace_off (kind domain unit : Nat) (payload : List Byte) (h : s.bit Reg.trnCtrl 0 = false) :
    s.trace kind domain unit payload = s := by
  simp [State.trace, h]

/-! ### A miss or an expiry recorded -/

/-- A recorded miss changes SHR_MISS_STATUS, and else no register but TRN_STAT and the pending bits of vector 0 of the PF. -/
theorem State.shareEvent_reg (s : State) (m : Nat) (expiry : Bool) {off : Nat} (htrace : off ≠ Reg.trnStat) (hpending : off ≠ pbaKey 0 0) :
    (s.shareEvent m expiry).reg off = (s.setBit Reg.shrMissStatus m true).reg off := by
  unfold State.shareEvent
  dsimp only
  split
  · rw [State.interrupt_reg_ne 0 0 hpending, State.reg_of_regs (State.fnEvent_pf_regs ..), State.trace_reg_ne _ _ _ _ _ htrace]
  · exact State.trace_reg_ne _ _ _ _ _ htrace

/-- Nothing is sent for a miss that has been recorded before or that nobody asks for, while trace is off. -/
theorem State.shareEvent_silent {m : Nat} (expiry : Bool) (hoff : s.bit Reg.trnCtrl 0 = false)
    (hsilent : s.bit Reg.shrMissStatus m = true ∨ (s.bit Reg.shrMissMask m = false ∧ s.bit Reg.shrGlobal 15 = false)) :
    (s.shareEvent m expiry).out = s.out := by
  have still_off : (s.setBit Reg.shrMissStatus m true).bit Reg.trnCtrl 0 = false :=
    (State.bit_congr (State.reg_setReg_ne _ _ (by decide)) 0).trans hoff
  have not_asked : (!s.bit Reg.shrMissStatus m && (s.bit Reg.shrMissMask m || s.bit Reg.shrGlobal 15)) = false := by
    rcases hsilent with seen | ⟨unmasked, unforced⟩
    · rw [seen]; rfl
    · rw [unmasked, unforced, Bool.or_self, Bool.and_false]
  unfold State.shareEvent
  dsimp only
  rw [State.trace_off _ _ _ _ still_off, if_neg (Bool.eq_false_iff.mp not_asked)]
  rfl

/-! ### SLACK_EXPIRED (R478) -/

/-- The request's slack at its home set to 0, in its place. -/
def State.slackGone (s : State) (m : Msg) : State :=
  { s with waitq := s.waitq.set (m.dpa / 128) ((s.waitq.getD (m.dpa / 128) []).map (fun x =>
      if x = m then { x with hdr := { x.hdr with slack := 0 } } else x)) }

theorem execSlackExpired_waiting {m : Msg} (hwaits : (s.waitq.getD (m.dpa / 128) []).contains m = true) (htag : m.tag < 16) (hslack : 0 < m.hdr.slack)
    (hset : m.hdr.slack ≠ 0x3FF) :
    execSlackExpired m s = .next (((s.slackGone m).count (Reg.shrMCnt (4 * m.tag + m.prio % 4) 1) 1).shareEvent (4 * m.tag + m.prio % 4) true) := by
  have expires : ((s.waitq.getD (m.dpa / 128) []).contains m && decide (m.tag < 16) && decide (0 < m.hdr.slack) && m.hdr.slack != 0x3FF) = true := by
    simp only [hwaits, decide_eq_true htag, decide_eq_true hslack, bne_iff_ne.mpr hset, Bool.and_self]
  exact congrArg _ (if_pos expires)

/-- The count of an expiry is a register of its own. -/
theorem State.slackCounted_reg (s : State) (m : Msg) {k off : Nat} (hk : k < 64) (h : off < 0x303000 ∨ 0x304000 ≤ off) :
    ((s.slackGone m).count (Reg.shrMCnt k 1) 1).reg off = s.reg off :=
  State.reg_setReg_ne _ _ (by unfold Reg.shrMCnt; omega)

/-! ### The end of a slot window, and the driver's clear (R479, R480) -/

theorem execSlotWindowEnd_ungranted {ch m : Nat} (hch : ch < 384) (hm : m < 64) (hguarantee : 0 < s.fieldOf (Reg.shrMApplied m) 8 0) :
    execSlotWindowEnd ch [m] [] s = .next
      ((({ s with slots := s.slots.keep (fun k _ => k / 64 != ch && k != 24576 + ch) } : State).count (Reg.shrMCnt m 0) 1).shareEvent m false) := by
  have only : ([m].filter (fun m => decide (m < 64))).eraseDups = [m] := by simp [hm, List.eraseDups_cons]
  simp only [execSlotWindowEnd, if_neg (Nat.not_le.mpr hch), only]
  exact congrArg _ (if_pos hguarantee)

/-! ### SHARE_SET (R482 to R484) -/

/-- A list of checks passes where each of them does. -/
theorem firstBad_none {l : List (Bool × Nat)} (h : ∀ e ∈ l, e.1 = false) : firstBad l = none := by
  rw [firstBad, Option.map_eq_none_iff, List.find?_eq_none]
  intro e he
  simp [h e he]

/-- A value of a SHARE_SET: the field at offset o of priority k. -/
def shareValue (pkt k o : Nat) : Nat := pb pkt (16 + 10 * k + o + 1) (16 + 10 * k + o)

/-- The words of SHR_M_CFG and SHR_M_SLACK that a SHARE_SET of a parcel writes. -/
def shareWords (pkt p : Nat) : List (Nat × Nat) :=
  ((upTo 4).map (fun k => [(Reg.shrMCfg (4 * p + k), shareValue pkt k 0 + shareValue pkt k 2 * 2 ^ 16 + shareValue pkt k 4 * 2 ^ 32 + shareValue pkt k 6 * 2 ^ 48),
    (Reg.shrMSlack (4 * p + k), shareValue pkt k 8)])).flatten

/-- The checks of a SHARE_SET on the values of one priority. -/
def shareRange (pkt k : Nat) : List (Bool × Nat) :=
  [(decide (256 < shareValue pkt k 0), 16 + 10 * k + 0), (decide (shareValue pkt k 0 < shareValue pkt k 2), 16 + 10 * k + 2),
    (decide (256 < shareValue pkt k 4), 16 + 10 * k + 4), (decide (shareValue pkt k 4 < shareValue pkt k 6), 16 + 10 * k + 6)]

/-- The values of one priority in their ranges. -/
def ShareInRange (pkt k : Nat) : Prop :=
  shareValue pkt k 0 ≤ 256 ∧ shareValue pkt k 2 ≤ shareValue pkt k 0 ∧ shareValue pkt k 4 ≤ 256 ∧ shareValue pkt k 6 ≤ shareValue pkt k 4 ∧
    shareValue pkt k 8 ≤ 0x3FF

section
variable {pkt p : Nat} (hvalues : ∀ k, k < 4 → ShareInRange pkt k)
include hvalues

theorem shareRange_passes (hp : p < 16) : firstBad ((decide (15 < p), 8) :: ((upTo 4).map (shareRange pkt)).flatten) = none := by
  rw [firstBad_atMost (Nat.le_of_lt_succ hp)]
  refine firstBad_none fun e he => ?_
  obtain ⟨l, hl, mem⟩ := List.mem_flatten.mp he
  obtain ⟨k, hk, rfl⟩ := List.mem_map.mp hl
  obtain ⟨slots, slots_part, ways, ways_part, -⟩ := hvalues k (List.mem_range.mp hk)
  simp only [shareRange, List.mem_cons, List.not_mem_nil, or_false] at mem
  rcases mem with rfl | rfl | rfl | rfl <;> simpa

theorem shareSlack_passes (hforce : pb pkt 9 9 = 0) :
    firstBad ((decide (1 < pb pkt 9 9), 9) :: (upTo 4).map (fun c => (decide (0x3FF < shareValue pkt c 8), 16 + 10 * c + 8))) = none := by
  rw [firstBad_atMost (by omega)]
  refine firstBad_none fun e he => ?_
  obtain ⟨k, hk, rfl⟩ := List.mem_map.mp he
  obtain ⟨-, -, -, -, slack⟩ := hvalues k (List.mem_range.mp hk)
  simpa

variable {q i : Nat} {x : Queue} {c : Cmd} (hpkt : c.pkt = pkt)
include hpkt

/-- What an unforced SHARE_SET of values in range comes to, for an existing parcel. -/
theorem execShareSet_outcome (hidle : s.parcelBusy = false) (hhalted : s.haltedFor q i 0x078 = false) (hruns : s.runs q i 0x078 x c)
    (hreserved : reservedByte pkt [(8, 9), (16, 55)] = none) (hparcel : pb pkt 8 8 = p) (hp : p < 16) (hforce : pb pkt 9 9 = 0) (hexists : s.parcels.has p = true) :
    execShareSet q i s = .next (
      let s1 := s.putActive ((Reg.shrPFlags p, 0) :: shareWords pkt p)
      if 256 < s1.slotSum ∨ 256 < s1.waySum p then
        s.answer q i ⟨0x70, if 256 < s1.slotSum then 65536 / s1.slotSum else 65536 / s1.waySum p + 2 ^ 16, 0⟩
      else if s.shareBusy p || (s.commitOf (Reg.shrPCommit p)).pending.isSome then s
      else ((s1.applied (Reg.shrPCommit p)).reShare).answer q i ⟨0, 0, 0⟩) := by
  subst hpkt hparcel
  have checked := packetCheck_none hreserved (shareSlack_passes hvalues hforce) (shareRange_passes hvalues hp)
  rw [execShareSet, parcelServe_runs hruns hidle hhalted]
  dsimp only
  split
  · next o failed => cases checked.symm.trans failed
  · refine congrArg _ ((if_neg (by simp [hexists])).trans ?_)
    simp only [hforce, true_and]
    rfl

end

end Sys2Proof.Machine

open Sys2Proof Sys2Proof.Machine

/-- Settles O41: the expiry is recorded by one write of its bit, and what else it does is sent only where asked. -/
theorem missesReportOnceUntilCleared : Obligations.MissesReportOnceUntilCleared := by
  intro s m hwaits htag hslack hset k
  have hk : k < 64 := by omega
  have kept (off : Nat) (h : off < 0x303000 ∨ 0x304000 ≤ off) := State.slackCounted_reg s m hk h
  have status (j : Nat) (hj : j < 64) : ((((s.slackGone m).count (Reg.shrMCnt k 1) 1).shareEvent k true).bit Reg.shrMissStatus j) =
      if j = k then true else s.bit Reg.shrMissStatus j := by
    rw [State.bit_congr (State.shareEvent_reg _ k true (by decide) (by decide)), State.bit_setBit _ _ _ _ _ hj,
      State.bit_congr (kept Reg.shrMissStatus (by decide))]
  refine ⟨_, execSlackExpired_waiting hwaits htag hslack hset, ?_, fun j hj hne => ?_, fun hoff hsilent => ?_⟩
  · exact (status k hk).trans (if_pos rfl)
  · exact (status j hj).trans (if_neg hne)
  · rw [State.shareEvent_silent]
    · rfl
    · exact (State.bit_congr (kept Reg.trnCtrl (by decide)) 0).trans hoff
    · rwa [State.bit_congr (kept Reg.shrMissStatus (by decide)), State.bit_congr (kept Reg.shrMissMask (by decide)),
        State.bit_congr (kept Reg.shrGlobal (by decide))]

/-- Settles O40: SHARE_SET by the two sums, then the expiry, the window in which a master got nothing, and the driver's clear. -/
theorem sharesAndTheirMisses : Obligations.SharesAndTheirMisses := by
  refine ⟨?shareSet, fun s m hwaits htag hslack hset => execSlackExpired_waiting hwaits htag hslack hset,
    fun s ch m hch hm hguarantee => execSlotWindowEnd_ungranted hch hm hguarantee, fun s v => rfl⟩
  case shareSet =>
    intro s q i x c hidle hhalted hruns p v hreserved hp hforce hexists hvalues l s1
    have outcome := execShareSet_outcome hvalues rfl hidle hhalted hruns hreserved rfl hp hforce hexists
    have oversubscribed {d d' : Nat} (h : d = d') : s.answer q i ⟨0x70, d, 0⟩ = s.answer q i ⟨0x70, d', 0⟩ := by rw [h]
    refine ⟨fun slots_over => ?_, fun slots_fit ways_over => ?_, fun slots_fit ways_fit idle settled => ?_⟩
    · exact outcome.trans (congrArg _ ((if_pos (.inl slots_over)).trans (oversubscribed (if_pos slots_over))))
    · exact outcome.trans (congrArg _ ((if_pos (.inr ways_over)).trans (oversubscribed (if_neg (Nat.not_lt.mpr slots_fit)))))
    · have not_busy : ¬ (s.shareBusy p || (s.commitOf (Reg.shrPCommit p)).pending.isSome) = true := by simp [idle, settled]
      exact outcome.trans (congrArg _ ((if_neg (not_or.mpr ⟨Nat.not_lt.mpr slots_fit, Nat.not_lt.mpr ways_fit⟩)).trans (if_neg not_busy)))
end

section
/-! PROOFS. Start-up, the board's rails and the benchmark record (R527, R529, R535, R536, R590 to R594). -/

namespace Sys2Proof.Machine

variable {s : State} {f : BootFacts}

/-! ### START_UP (R527, R529) -/

/-- A start-up held at step 4 until VIN48 is in range. -/
def State.holdsStartUp (s : State) : State := { (s.phase 4) with boot := { s.boot with step := 4, held := true } }

theorem State.holdsStartUp_phase (s : State) : s.holdsStartUp.fieldOf Reg.glbStatus 11 8 = 4 :=
  s.fieldOf_setField_same Reg.glbStatus 4 (by omega) (by omega)

section
variable (hfirst : s.boot.step = 0) (halive : s.boot.dead = false)
include hfirst halive

/-- The first start-up after a reset, by what steps 1 to 3 and VIN48 say. -/
theorem execStartUp_first : execStartUp f s = .next (
    let s1 := (s.boot123 f).2
    if (s.boot123 f).1 = false then s1 else if s1.vin48 = false then s1.holdsStartUp else s1.boot4567 f) := by
  have begins : ¬ (s.boot.step ≠ 0 ∨ s.boot.dead = true) := by simp [hfirst, halive]
  simp only [execStartUp, if_neg begins, Bool.not_eq_eq_eq_not, Bool.not_true, State.holdsStartUp]

theorem execStartUp_stopped (hstop : (s.boot123 f).1 = false) : execStartUp f s = .next (s.boot123 f).2 :=
  (execStartUp_first hfirst halive).trans (congrArg _ (if_pos hstop))

variable (hok : (s.boot123 f).1 = true)
include hok

theorem execStartUp_powered (hvin : (s.boot123 f).2.vin48 = true) : execStartUp f s = .next ((s.boot123 f).2.boot4567 f) := by
  rw [execStartUp_first hfirst halive]
  simp [hok, hvin]

theorem execStartUp_held (hvin : (s.boot123 f).2.vin48 = false) : execStartUp f s = .next (s.boot123 f).2.holdsStartUp := by
  rw [execStartUp_first hfirst halive]
  simp [hok, hvin]

end

theorem execStartUp_again (h : s.boot.step ≠ 0 ∨ s.boot.dead = true) : execStartUp f s = .next s := congrArg _ (if_pos h)

/-! ### Rails and module reset (R590 to R594) -/

theorem execVin48InRange_goes (hfacts : s.boot.facts = some f) (hheld : s.boot.held = true) :
    execVin48InRange s = .next (({ s with vin48 := true } : State).boot4567 f) := by
  simp [execVin48InRange, hfacts, hheld]

theorem execVin48InRange_nothing_held (h : s.boot.facts = none ∨ s.boot.held = false) :
    execVin48InRange s = .next { s with vin48 := true } := by
  cases facts : s.boot.facts with
  | none => simp only [execVin48InRange, facts]
  | some f =>
    have not_held : s.boot.held = false := h.resolve_left (by simp [facts])
    simp [execVin48InRange, facts, not_held]

theorem execVin48Loss_running (h : s.boot.held = false) : execVin48Loss s = .next ({ s with vin48 := false } : State).railsOff :=
  congrArg _ (if_neg (Bool.eq_false_iff.mp h))

theorem execVin48Loss_held (h : s.boot.held = true) : execVin48Loss s = .next { s with vin48 := false } := congrArg _ (if_pos h)

/-! ### The record (R535, R536) -/

/-- The contents of the next record: those in force, one generation on. -/
def State.nextRec (s : State) : BmRec := { s.recNow with generation := s.recNow.generation + 1 }

theorem State.recWrite_keepsA {a : BmRec} (ha : s.recA = some a) (hold : ∀ b, s.recB = some b → b.generation < a.generation) :
    s.recWrite = { s with recB := some s.nextRec, recNow := s.nextRec, recDue := false } := by
  unfold State.recWrite
  cases hb : s.recB with
  | none => simp only [ha, State.nextRec]; rfl
  | some b => simp only [ha, decide_eq_true (hold b hb), State.nextRec]; rfl

theorem State.recWrite_keepsB {a b : BmRec} (ha : s.recA = some a) (hb : s.recB = some b) (hold : a.generation ≤ b.generation) :
    s.recWrite = { s with recA := some s.nextRec, recNow := s.nextRec, recDue := false } := by
  simp only [State.recWrite, ha, hb, decide_eq_false (Nat.not_lt.mpr hold), State.nextRec]
  rfl

theorem State.recWrite_missingA (ha : s.recA = none) : s.recWrite = { s with recA := some s.nextRec, recNow := s.nextRec, recDue := false } := by
  simp only [State.recWrite, ha, State.nextRec]
  rfl

theorem execBenchmarkRecordWrite_due (h : s.recDue = true) : execBenchmarkRecordWrite s = .next s.recWrite := congrArg _ (if_pos h)

theorem execBootCtrlWrite_served {v : W64} (hbits : v.toNat % 32 ≠ 0) (hserved : s.scrapped = false) :
    execBootCtrlWrite v s = .next
      ((s.setReg Reg.glbBootCtrl (s.reg Reg.glbBootCtrl ||| BitVec.ofNat 64 (v.toNat % 32))).recMod (fun r => { r with ctl := r.ctl ||| (v.toNat % 32) })) :=
  congrArg _ ((if_neg (Bool.eq_false_iff.mp hserved)).trans (if_neg hbits))

end Sys2Proof.Machine

open Sys2Proof Sys2Proof.Machine

/-- Settles O53: the start-up by where it stops, the rails event by event, and the record by which copy is the older. -/
theorem startUpRailsAndTheRecord : Obligations.StartUpRailsAndTheRecord := by
  refine ⟨?startUp, fun s f => execStartUp_again, ?rails, ?record, fun s v hbits hserved => execBootCtrlWrite_served hbits hserved⟩
  case startUp =>
    intro s f hfirst halive
    refine ⟨execStartUp_stopped hfirst halive, execStartUp_powered hfirst halive, fun hok hvin => ?_⟩
    exact ⟨_, execStartUp_held hfirst halive hok hvin, rfl, rfl, State.holdsStartUp_phase _⟩
  case rails =>
    intro s
    exact ⟨fun f => execVin48InRange_goes, execVin48InRange_nothing_held, execVin48Loss_running, execVin48Loss_held, rfl, rfl, rfl⟩
  case record =>
    intro s hdue r
    have written := execBenchmarkRecordWrite_due hdue
    refine ⟨fun a b ha hb older => ?_, fun a b ha hb older => ?_, fun a ha hb => ?_, fun ha => ?_⟩
    · exact written.trans (congrArg _ (State.recWrite_keepsA ha fun b' hb' => Option.some.inj (hb.symm.trans hb') ▸ older))
    · exact written.trans (congrArg _ (State.recWrite_keepsB ha hb older))
    · exact written.trans (congrArg _ (State.recWrite_keepsA ha fun b hb' => by simp [hb] at hb'))
    · exact written.trans (congrArg _ (State.recWrite_missingA ha))
end

section
/-! PROOFS. The power caps and heat: VCEIL against the hub budget, the fast check, FLOOR, and the sensors (R547 to R553). -/

namespace Sys2Proof.Machine

variable {s : State}

/-! ### VCEIL against the hub budget (R549, R550) -/

/-- The budget and the average of the newest k samples, brought to one denominator. -/
def State.budgetSide (s : State) (k : Nat) : Nat := s.hubBudget.1 * (s.hubSum k).2
def State.averageSide (s : State) (k : Nat) : Nat := (s.hubSum k).1 * s.hubBudget.2

/-- A comparison above the budget counts towards FLOOR while VCEIL is at its lowest; any other starts the count again. -/
def State.floorCounted (s : State) : State :=
  { s with power := { s.power with floor := if s.fieldOf Reg.pwrStatus 55 48 = 0 then s.power.floor + 1 else 0 } }
def State.floorRestarted (s : State) : State := { s with power := { s.power with floor := 0 } }

theorem execVceilAdjust_above (h : s.budgetSide 10 < s.averageSide 10) :
    execVceilAdjust s = .next (if 105 * s.budgetSide 10 < 100 * s.averageSide 10 then s.floorCounted.setVceil (s.fieldOf Reg.pwrStatus 55 48 - 5)
      else s.floorCounted.setVceil (s.fieldOf Reg.pwrStatus 55 48 - 1)) := by
  unfold State.budgetSide State.averageSide at *
  simp only [execVceilAdjust, h, decide_true, Bool.true_and, if_true, beq_iff_eq, State.floorCounted]

theorem execVceilAdjust_within (h : s.averageSide 10 ≤ s.budgetSide 10) :
    execVceilAdjust s = .next (if 100 * s.averageSide 10 < 97 * s.budgetSide 10 then
        (if s.anyStack3 then s.floorRestarted else s.floorRestarted.setVceil (min 70 (s.fieldOf Reg.pwrStatus 55 48 + 1)))
      else s.floorRestarted) := by
  unfold State.budgetSide State.averageSide at *
  have not_far : ¬ 105 * (s.hubBudget.1 * (s.hubSum 10).2) < 100 * ((s.hubSum 10).1 * s.hubBudget.2) := by omega
  simp only [execVceilAdjust, if_neg not_far, decide_eq_false (Nat.not_lt.mpr h), Bool.false_and, Bool.false_eq_true, if_false]
  rfl

theorem execStack3Step_eq (s : State) :
    execStack3Step s = .next (if s.anyStack3 = true then s.setVceil (s.fieldOf Reg.pwrStatus 55 48 - 1) else s) := rfl

theorem execVceilFastDrop_eq (s : State) :
    execVceilFastDrop s = .next (if 12 * s.budgetSide 2 < 10 * s.averageSide 2 then s.setVceil (s.fieldOf Reg.pwrStatus 55 48 - 10) else s) := rfl

theorem execFloor_eq (s : State) : execFloor s = .next (if 100 ≤ s.power.floor then s.pwrEvent 0 else s) := rfl

/-! ### SENSOR_READ (R553) -/

/-- The temperatures of the townships after one sensor's reading. -/
def State.heatRead (s : State) (n : Nat) (v : BitVec 16) : State :=
  (upTo 256).foldl (fun (s : State) t => s.heatShip t)
    (s.setField (Reg.pwrContour (n / 4)) (16 * (n % 4) + 15) (16 * (n % 4)) v.toNat)

theorem execSensorRead_one {n : Nat} (hn : n < 1040) (v : BitVec 16) :
    execSensorRead [(n, v)] s = .next (if 500 ≤ v.toInt then (s.heatRead n v).thermalTrip false n else s.heatRead n v) := by
  have sensed : s.sense n v = s.setField (Reg.pwrContour (n / 4)) (16 * (n % 4) + 15) (16 * (n % 4)) v.toNat := if_pos hn
  simp only [execSensorRead, List.foldl_cons, List.foldl_nil, sensed, List.find?_cons, List.find?_nil, hn, decide_true, Bool.true_and, State.heatRead]
  by_cases hot : 500 ≤ v.toInt
  · simp only [hot, decide_true, if_true]
  · simp only [hot, decide_false, if_false]

end Sys2Proof.Machine

open Sys2Proof Sys2Proof.Machine

/-- Settles O54: each event by how the average stands to the budget, or the reading to 125 °C. -/
theorem powerCapsAndHeat : Obligations.PowerCapsAndHeat := by
  refine ⟨fun s hub sites => rfl, ?adjust, ?stack3, ?fast, ?floor, fun s => rfl, ?sensor⟩
  case adjust =>
    intro s b a v none_
    refine ⟨fun far => ?_, fun above near => ?_, fun near within => ?_, fun under cool => ?_, fun under hot => ?_⟩
    · change 105 * s.budgetSide 10 < 100 * s.averageSide 10 at far
      exact (execVceilAdjust_above (by omega)).trans (congrArg _ (if_pos far))
    · exact (execVceilAdjust_above above).trans (congrArg _ (if_neg (Nat.not_lt.mpr near)))
    · exact (execVceilAdjust_within within).trans (congrArg _ (if_neg (Nat.not_lt.mpr near)))
    · change 100 * s.averageSide 10 < 97 * s.budgetSide 10 at under
      exact (execVceilAdjust_within (by omega)).trans (congrArg _ ((if_pos under).trans (if_neg (Bool.eq_false_iff.mp cool))))
    · change 100 * s.averageSide 10 < 97 * s.budgetSide 10 at under
      exact (execVceilAdjust_within (by omega)).trans (congrArg _ ((if_pos under).trans (if_pos hot)))
  case stack3 =>
    intro s
    exact ⟨fun hot => (execStack3Step_eq s).trans (congrArg _ (if_pos hot)),
      fun cool => (execStack3Step_eq s).trans (congrArg _ (if_neg (Bool.eq_false_iff.mp cool)))⟩
  case fast =>
    intro s b a
    exact ⟨fun above => (execVceilFastDrop_eq s).trans (congrArg _ (if_pos above)),
      fun within => (execVceilFastDrop_eq s).trans (congrArg _ (if_neg (Nat.not_lt.mpr within)))⟩
  case floor =>
    intro s
    exact ⟨fun full => (execFloor_eq s).trans (congrArg _ (if_pos full)), fun short => (execFloor_eq s).trans (congrArg _ (if_neg (Nat.not_le.mpr short)))⟩
  case sensor =>
    intro s n v hn s2
    exact ⟨fun hot => (execSensorRead_one hn v).trans (congrArg _ (if_pos hot)), fun cool => (execSensorRead_one hn v).trans (congrArg _ (if_neg (not_le.mpr cool)))⟩
end

section
/-! PROOFS. Management: snapshots, addresses on the bus, MCTP and sensor messages, the firmware update, and debug access (R575 to R586). -/

namespace Sys2Proof.Machine

variable {s : State}

/-! ### Snapshots (R578, R579) -/

theorem execSnap_confidential (h : s.confidential = true) : execSnap s = .next s := by
  simp [execSnap, State.snapshot, h]

theorem execSnap_unready (h : s.driverRow = false) : execSnap s = .next s := congrArg _ (if_neg (Bool.eq_false_iff.mp h))

/-- A write to untranslated host memory goes out at once where none of its function waits. -/
theorem State.hostPutRaw_free {n : Nat} (addr : Nat) (bs : List Byte) (h : s.hostBusy n = false) : s.hostPutRaw n addr bs = s.hostWrite n none addr bs :=
  if_neg (Bool.eq_false_iff.mp h)

theorem execSnap_writes (hopen : s.confidential = false) (hready : s.driverRow = true) (hfree : s.hostBusy 0 = false) :
    execSnap s = .next ((s.hostWrite 0 none (s.reg Reg.trnSnapBase).toNat
      ((transitOffsets.map (fun o => bytesOf 8 (s.view .datum o).toNat)).flatten)).addWrap Reg.trnStat 63 32 1) := by
  rw [← State.hostPutRaw_free _ _ hfree]
  exact congrArg _ ((if_pos hready).trans (if_neg (Bool.eq_false_iff.mp hopen)))

/-! ### The management bus and its messages (R575 to R577) -/

theorem execEntdaa_unassigned (a : BitVec 7) (h : s.fieldOf Reg.mgtI3c 6 0 = 0) : execEntdaa a s = .next (s.setField Reg.mgtI3c 6 0 a.toNat) :=
  congrArg _ (if_pos h)

theorem execEntdaa_assigned (a : BitVec 7) (h : s.fieldOf Reg.mgtI3c 6 0 ≠ 0) : execEntdaa a s = .next s := congrArg _ (if_neg h)

theorem execSetaasa_unassigned (h : s.fieldOf Reg.mgtI3c 6 0 = 0) : execSetaasa s = .next (s.setField Reg.mgtI3c 6 0 0x4A) := congrArg _ (if_pos h)

theorem execSetaasa_assigned (h : s.fieldOf Reg.mgtI3c 6 0 ≠ 0) : execSetaasa s = .next s := congrArg _ (if_neg h)

theorem execMctpMessage_setEid (pcie : Bool) {e : Nat} (hserved : s.scrapped = false) (hleast : 8 ≤ e) (hmost : e ≤ 254) :
    execMctpMessage pcie (.setEid e) s = .next ((s.setField Reg.mgtI3c 15 8 e).mctp pcie 0x10 [e]) :=
  congrArg _ (if_neg (by simp only [hserved, Bool.false_eq_true, false_or]; omega))

section
variable (hserved : s.scrapped = false)
include hserved

theorem execPldmSensorRead_known {id v : Nat} (h : s.sensor id = some v) : execPldmSensorRead id s = .next (s.emit (.mgmt 0x52 [id, v])) := by
  simp [execPldmSensorRead, hserved, h]

theorem execPldmSensorRead_unknown {id : Nat} (h : s.sensor id = none) : execPldmSensorRead id s = .next (s.emit (.mgmt 0x5F [id])) := by
  simp [execPldmSensorRead, hserved, h]

/-! ### Firmware update (R584 to R586) -/

theorem execRequestUpdate_second (cs : List Nat) (h : s.fwu.active = true) : execRequestUpdate cs s = .next (s.emit (.mgmt 0x5E [])) := by
  simp [execRequestUpdate, hserved, h]

/-- The components of a request that an update takes. -/
def offeredOf (cs : List Nat) : List Nat := cs.filter (fun c => decide (1 ≤ c) && decide (c ≤ 3))

/-- MGT_FWU_STAT as a new update leaves it: ACTIVE set, nothing received, PENDING and FAIL kept. -/
def State.updateWord (s : State) : W64 := BitVec.ofNat 64 (1 + s.fieldOf Reg.mgtFwuStat 4 3 * 8)

theorem execRequestUpdate_first (cs : List Nat) (h : s.fwu.active = false) :
    execRequestUpdate cs s = .next
      ((({ s with fwu := ⟨true, offeredOf cs, []⟩ } : State).setReg Reg.mgtFwuStat s.updateWord).emit (.mgmt 0x50 (offeredOf cs))) := by
  simp [execRequestUpdate, hserved, h, State.updateWord, offeredOf]

end

theorem State.testBit_updateWord (s : State) {i : Nat} (hi : i < 64) :
    s.updateWord.toNat.testBit i = if i < 3 then Nat.testBit 1 i else (s.fieldOf Reg.mgtFwuStat 4 3).testBit (i - 3) := by
  rw [State.updateWord, BitVec.toNat_ofNat, Nat.testBit_mod_two_pow, decide_eq_true hi, Bool.true_and, Nat.add_comm, Nat.mul_comm]
  exact Nat.testBit_two_pow_mul_add _ (by decide : 1 < 2 ^ 3) i

theorem State.updateWord_active (s : State) : s.updateWord.toNat.testBit 0 = true := s.testBit_updateWord (by omega)

theorem State.updateWord_pending (s : State) : s.updateWord.toNat.testBit 3 = s.bit Reg.mgtFwuStat 3 := by
  rw [State.testBit_updateWord s (by omega), if_neg (by omega), State.fieldOf, testBit_fld, decide_eq_true (by omega), Bool.true_and]
  rfl

theorem State.updateWord_received (s : State) : fld s.updateWord.toNat 31 8 = 0 := by
  have small : s.updateWord.toNat < 2 ^ 8 := by
    have := s.fieldOf_lt Reg.mgtFwuStat 4 3
    rw [State.updateWord, BitVec.toNat_ofNat]
    omega
  rw [fld, Nat.shiftRight_eq_div_pow, Nat.div_eq_of_lt small, Nat.zero_mod]

section
variable {c : Nat} {bytes : List Byte}

/-- The bytes of a component received so far, with those of a request, and the state that has stored them. -/
def State.received (s : State) (c : Nat) (bytes : List Byte) : List Byte := s.fwu.got.getD c [] ++ bytes
def State.storeImage (s : State) (c : Nat) (bytes : List Byte) : State :=
  { s with fwu := { s.fwu with got := s.fwu.got.set c (s.received c bytes) }, flash := s.flash.set (imageKey s.newSlot c) (s.received c bytes) }

theorem execRequestFirmwareData_offered (hactive : s.fwu.active = true) (hoffered : c ∈ s.fwu.offered) :
    execRequestFirmwareData c bytes s = .next (if slotBytes < (s.storeImage c bytes).slotUsed s.newSlot then s
      else (s.storeImage c bytes).setField Reg.mgtFwuStat 31 8 (((s.storeImage c bytes).fwu.got.map (fun e => e.2.length)).sum / 1024)) := by
  have taken : (!s.fwu.active || !s.fwu.offered.contains c) = false := by simp [hactive, hoffered]
  exact congrArg _ (if_neg (Bool.eq_false_iff.mp taken))

theorem execRequestFirmwareData_refused (h : s.fwu.active = false ∨ c ∉ s.fwu.offered) : execRequestFirmwareData c bytes s = .next s := by
  have refused : (!s.fwu.active || !s.fwu.offered.contains c) = true := by simpa using h
  exact congrArg _ (if_pos refused)

end

theorem execActivateFirmware_none (own : Bool) (h : s.fwu.active = false) : execActivateFirmware own s = .next (s.emit (.mgmt 0x5F [])) := by
  simp [execActivateFirmware, h]

/-- The images of the new slot verified, and the state once the update has ended. -/
def State.imagesOk (s : State) : Bool := [1, 2, 3].all (fun c => s.copyImages.imageOk c (s.copyImages.flash.getD (imageKey s.newSlot c) []))
def State.updateEnded (s : State) : State := ({ s.copyImages with fwu := ⟨false, [], []⟩ } : State).setField Reg.mgtFwuStat 2 0 0

theorem execActivateFirmware_active (own : Bool) (h : s.fwu.active = true) :
    execActivateFirmware own s = .next (if s.imagesOk then
        (((s.updateEnded.setBit Reg.mgtFwuStat 3 true).setBit Reg.mgtFwuStat 4 false).recMod (fun r => { r with slot := s.newSlot })).emit (.mgmt 0x51 [0])
      else (s.updateEnded.setBit Reg.mgtFwuStat 4 true).emit (.mgmt 0x51 [1])) := by
  simp only [execActivateFirmware, h, Bool.not_true, Bool.false_eq_true, if_false]
  rfl

/-! ### Debug access (R582, R583) -/

theorem execDebugAttach_open (p : DebugPath) (hopen : s.confidential = false) (hpaths : s.bit Reg.secStatus 1 = false) :
    execDebugAttach p s = .next ((s.setBit Reg.mgtDbgStat (pathBit p) true).setBit Reg.mgtDbgStat 0 true) := by
  simp [execDebugAttach, hopen, hpaths]

theorem execDebugAttach_closed (p : DebugPath) (h : s.confidential = true ∨ s.bit Reg.secStatus 1 = true) : execDebugAttach p s = .next s :=
  congrArg _ (if_pos (by simpa using h))

section
variable {t : Nat} (hopen : s.debugOpen = true) (hsession : s.bit Reg.mgtDbgStat 0 = true)
include hopen hsession

theorem execDebugHalt_open (ht : t < 256) (hpresent : s.bit (Reg.nocCoord t) 12 = false) :
    execDebugHalt t s = .next (s.modShip t (fun x => { x with halted := true })) := by
  simp [execDebugHalt, hopen, hsession, ht, hpresent]

theorem execDebugResume_open (hhalted : (s.ship t).halted = true) :
    execDebugResume t s = .next (s.modShip t (fun x => { x with halted := false })) := by
  simp [execDebugResume, hopen, hsession, hhalted]

end

theorem execDebugHalt_closed (t : Nat) (h : s.debugOpen = false) : execDebugHalt t s = .next s := by simp [execDebugHalt, h]

theorem execDebugResume_closed (t : Nat) (h : s.debugOpen = false) : execDebugResume t s = .next s := by simp [execDebugResume, h]

end Sys2Proof.Machine

open Sys2Proof Sys2Proof.Machine

/-- Settles O52, message by message; the new update by the bits of its word in MGT_FWU_STAT. -/
theorem managementDebugAndFirmware : Obligations.ManagementDebugAndFirmware := by
  refine ⟨fun s => ⟨execSnap_confidential, execSnap_unready, execSnap_writes⟩,
    fun s a h => ⟨execEntdaa_unassigned a h, execSetaasa_unassigned h⟩, fun s a h => ⟨execEntdaa_assigned a h, execSetaasa_assigned h⟩,
    ?mctp, ?sensors, ?request, ?data, fun s c bytes => execRequestFirmwareData_refused, ?activate, fun s => execActivateFirmware_none, ?paths, ?halts⟩
  case mctp =>
    intro s pcie e ibi
    exact ⟨execMctpMessage_setEid pcie, rfl, rfl⟩
  case sensors =>
    intro s id hserved
    exact ⟨fun v => execPldmSensorRead_known hserved, execPldmSensorRead_unknown hserved⟩
  case request =>
    intro s cs hserved
    refine ⟨execRequestUpdate_second hserved cs, fun idle => ⟨_, execRequestUpdate_first hserved cs idle, rfl, ?_⟩⟩
    have word (t : State) : ((t.setReg Reg.mgtFwuStat s.updateWord).emit (.mgmt 0x50 (offeredOf cs))).reg Reg.mgtFwuStat = s.updateWord :=
      Tbl.getD_set_self _ _ _ _
    simp only [State.bit, State.fieldOf, word]
    exact ⟨s.updateWord_active, s.updateWord_received, s.updateWord_pending⟩
  case data =>
    intro s c bytes hactive hoffered all s1
    have stored := execRequestFirmwareData_offered (bytes := bytes) hactive hoffered
    exact ⟨fun fits => stored.trans (congrArg _ (if_neg (Nat.not_lt.mpr fits))), fun full => stored.trans (congrArg _ (if_pos full))⟩
  case activate =>
    intro s own hactive
    exact execActivateFirmware_active own hactive
  case paths =>
    intro s p
    exact ⟨execDebugAttach_open p, execDebugAttach_closed p, rfl⟩
  case halts =>
    intro s t
    exact ⟨fun hopen hsession ht hpresent => ⟨execDebugHalt_open hopen hsession ht hpresent, execDebugResume_open hopen hsession⟩,
      fun closed => ⟨execDebugHalt_closed t closed, execDebugResume_closed t closed⟩⟩
end

section
/-! PROOFS. The keys of sealed weight sets: the outcomes of KEY_INSTALL in the order of its checks, and KEY_RETIRE (R488, R506 to R510). -/

namespace Sys2Proof.Machine

variable {s t : State} {q i blob : Nat} {x : Queue} {c : Cmd}

/-- A command answered with its gate request performed or refused, as its status says. -/
theorem State.gateReply_req (a : Answer) : t.gateReply (s.req q i x c) a = (t.gateDone (a.status == 0 || a.status == 1)).answer q i a := rfl

/-! ### KEY_INSTALL (R508, R509) -/

/-- The fields of a key blob. -/
def blobEpoch (blob : Nat) : Nat := pb blob 7 4
def blobTagOk (s : State) (blob : Nat) : Bool := Config.tagOk (s.kek blob) (pb blob 1171 1160) (pb blob 1203 1172) (pb blob 1219 1204)
def blobKey (s : State) (blob : Nat) : Nat := Config.decrypt (s.kek blob) (pb blob 1171 1160) (pb blob 1203 1172)

/-- The key slots of an easement, and those slots with a blob's key as the current one. -/
def State.slotsOf (s : State) (e : Nat) : KeySlots := s.keys.getD e ⟨none, none⟩
def State.installedSlots (s : State) (e blob : Nat) : KeySlots :=
  ⟨some ⟨blobEpoch blob, blob.testBit 16, blobKey s blob⟩, (s.slotsOf e).cur.orElse (fun _ => (s.slotsOf e).prev)⟩

/-- The reads of the host for a blob. -/
def State.blobAsked (s : State) (fn : Nat) (c : Cmd) : State := s.hostAsk fn none (pb c.pkt 23 16) 1224 noAcc

section
variable {e : Nat} (hruns : s.runs q i 0x090 x c) (hreserved : reservedByte c.pkt [(8, 8), (16, 23)] = none) (haligned : pb c.pkt 23 16 % 8 = 0)
  (he : pb c.pkt 8 8 = e)
include hruns hreserved haligned he

/-- The checks of a KEY_INSTALL, in the order of R509. -/
theorem execKeyInstall_checks : execKeyInstall q i blob s = .next (
    if !s.eases.has e then (s.gateDone false).answer q i ⟨0x20, 8, 0⟩
    else if !s.hostOpen x.fn then s
    else if pb blob 39 8 ≠ s.identity then ((s.blobAsked x.fn c).gateDone false).answer q i ⟨0x61, 0x10, 0⟩
    else if !blobTagOk s blob then ((s.blobAsked x.fn c).gateDone false).answer q i ⟨0x61, 0x11, 0⟩
    else if blob.testBit 16 && !s.confidential then ((s.blobAsked x.fn c).gateDone false).answer q i ⟨0x60, 0x20, 0⟩
    else if (s.slotsOf e).cur.any (fun w => decide (blobEpoch blob ≤ w.epoch)) then ((s.blobAsked x.fn c).gateDone false).answer q i ⟨0x11, 16, 0⟩
    else if (s.slotsOf e).cur.isSome && (s.slotsOf e).prev.isSome then ((s.blobAsked x.fn c).gateDone false).answer q i ⟨0x21, 0, 0⟩
    else (({ s.blobAsked x.fn c with keys := s.keys.set e (s.installedSlots e blob), attest := none } : State).gateDone true).answer q i ⟨0, 0, 0⟩) := by
  subst he
  have aligned : firstBad [(pb c.pkt 23 16 % 8 != 0, 16)] = none := by rw [haligned]; rfl
  rw [execKeyInstall, serve_runs hruns]
  simp only [packetCheck_none hreserved firstBad_nil aligned]
  rfl

theorem execKeyInstall_noEasement (h : s.eases.has e = false) : execKeyInstall q i blob s = .next ((s.gateDone false).answer q i ⟨0x20, 8, 0⟩) := by
  rw [execKeyInstall_checks hruns hreserved haligned he]
  simp [h]

variable (hexists : s.eases.has e = true) (hopen : s.hostOpen x.fn = true)
include hexists hopen

theorem execKeyInstall_otherUnit (h : pb blob 39 8 ≠ s.identity) :
    execKeyInstall q i blob s = .next (((s.blobAsked x.fn c).gateDone false).answer q i ⟨0x61, 0x10, 0⟩) := by
  rw [execKeyInstall_checks hruns hreserved haligned he]
  simp [hexists, hopen, h]

variable (hunit : pb blob 39 8 = s.identity)
include hunit

theorem execKeyInstall_badTag (h : blobTagOk s blob = false) :
    execKeyInstall q i blob s = .next (((s.blobAsked x.fn c).gateDone false).answer q i ⟨0x61, 0x11, 0⟩) := by
  rw [execKeyInstall_checks hruns hreserved haligned he]
  simp [hexists, hopen, hunit, h]

variable (htag : blobTagOk s blob = true)
include htag

theorem execKeyInstall_needsMode (h : blob.testBit 16 = true) (hconf : s.confidential = false) :
    execKeyInstall q i blob s = .next (((s.blobAsked x.fn c).gateDone false).answer q i ⟨0x60, 0x20, 0⟩) := by
  rw [execKeyInstall_checks hruns hreserved haligned he]
  simp [hexists, hopen, hunit, htag, h, hconf]

variable (hmode : blob.testBit 16 = true → s.confidential = true)
include hmode

theorem execKeyInstall_oldEpoch {w : WKey} (hcur : (s.slotsOf e).cur = some w) (hold : blobEpoch blob ≤ w.epoch) :
    execKeyInstall q i blob s = .next (((s.blobAsked x.fn c).gateDone false).answer q i ⟨0x11, 16, 0⟩) := by
  rw [execKeyInstall_checks hruns hreserved haligned he]
  have permitted : (blob.testBit 16 && !s.confidential) = false := by simpa using hmode
  simp only [hexists, hopen, hunit, htag, permitted, hcur, Option.any_some, hold, decide_true, ne_eq, not_true_eq_false, Bool.not_true,
    Bool.false_eq_true, if_false, if_true]

theorem execKeyInstall_installs (hnew : ∀ w, (s.slotsOf e).cur = some w → w.epoch < blobEpoch blob)
    (hroom : (s.slotsOf e).cur = none ∨ (s.slotsOf e).prev = none) :
    execKeyInstall q i blob s = .next
      ((({ s.blobAsked x.fn c with keys := s.keys.set e (s.installedSlots e blob), attest := none } : State).gateDone true).answer q i ⟨0, 0, 0⟩) := by
  rw [execKeyInstall_checks hruns hreserved haligned he]
  have permitted : (blob.testBit 16 && !s.confidential) = false := by simpa using hmode
  have newer : (s.slotsOf e).cur.any (fun w => decide (blobEpoch blob ≤ w.epoch)) = false := by
    rw [Option.any_eq_false]
    intro w hw
    simpa using hnew w hw
  have room : ((s.slotsOf e).cur.isSome && (s.slotsOf e).prev.isSome) = false := by
    rcases hroom with none | none <;> simp [none]
  simp only [hexists, hopen, hunit, htag, permitted, newer, room, ne_eq, not_true_eq_false, Bool.not_true, Bool.false_eq_true, if_false]

end

/-! ### KEY_RETIRE (R510) -/

theorem execKeyRetire_erases {e slot : Nat} (hruns : s.runs q i 0x091 x c) (hreserved : reservedByte c.pkt [(8, 9)] = none)
    (he : pb c.pkt 8 8 = e) (hslot : pb c.pkt 9 9 = slot) (hrange : slot ≤ 1) (hheld : s.keySlot e slot ≠ none) (hidle : s.inFlight e = false) :
    execKeyRetire q i s = .next ((({ s with
      free := s.free + 2
      keys := s.keys.modify e (fun k => if slot = 0 then { k with cur := none } else { k with prev := none }) } : State).gateDone true).answer
        q i ⟨0, 0, 0⟩) := by
  subst he hslot
  have slot_ok : firstBad [(decide (1 < pb c.pkt 9 9), 9)] = none := firstBad_atMost hrange 9 []
  have holds : (s.keySlot (pb c.pkt 8 8) (pb c.pkt 9 9)).isNone = false :=
    Bool.eq_false_iff.mpr (mt Option.isNone_iff_eq_none.mp hheld)
  have none_flies : s.flightCount (pb c.pkt 8 8) (pb c.pkt 9 9) = 0 := if_neg (Bool.eq_false_iff.mp hidle)
  rw [execKeyRetire, serve_runs hruns]
  simp only [packetCheck_none hreserved firstBad_nil slot_ok, State.keyRetire, holds, none_flies, State.gateReply_req]
  rfl

end Sys2Proof.Machine

open Sys2Proof Sys2Proof.Machine

/-- Settles O43: KEY_INSTALL by its checks in the order of the rule, and KEY_RETIRE of a slot with no page in flight. -/
theorem keysOfSealedSets : Obligations.KeysOfSealedSets := by
  refine ⟨?install, fun s q i x c hruns hreserved hrange hheld hidle => execKeyRetire_erases hruns hreserved rfl rfl hrange hheld hidle⟩
  case install =>
    intro s q i blob x c hruns hreserved haligned e k kek s0 refused
    refine ⟨execKeyInstall_noEasement hruns hreserved haligned rfl, execKeyInstall_otherUnit hruns hreserved haligned rfl, fun hexists hopen hunit => ?_⟩
    refine ⟨execKeyInstall_badTag hruns hreserved haligned rfl hexists hopen hunit, fun htag => ?_⟩
    refine ⟨execKeyInstall_needsMode hruns hreserved haligned rfl hexists hopen hunit htag, fun hmode => ?_⟩
    exact ⟨fun w => execKeyInstall_oldEpoch hruns hreserved haligned rfl hexists hopen hunit htag hmode,
      execKeyInstall_installs hruns hreserved haligned rfl hexists hopen hunit htag hmode⟩
end

section
/-! PROOFS. Confidential mode: CONF_ENTER as it begins and as it completes, and the ways to leave (R499, R500, R503 to R505). -/

namespace Sys2Proof.Machine

variable {s : State} {q i : Nat} {x : Queue} {c : Cmd}

/-! ### The command at an index -/

theorem cmd?_runs {op : Nat} (h : s.runs q i op x c) : s.cmd? q i = some c := by
  obtain ⟨hq, hc, -, -⟩ := h
  simp [State.cmd?, hq, hc]

theorem cmd?_serves {op : Nat} {d : List Nat} (h : s.serves q i op x c d) : s.cmd? q i = some c := by
  obtain ⟨hq, hc, -, -⟩ := h
  simp [State.cmd?, hq, hc]

/-! ### CONF_ENTER (R499, R500) -/

section
variable {p vf : Nat} (hruns : s.runs q i 0x092 x c) (hreserved : reservedByte c.pkt [(8, 9)] = none) (hparcel : pb c.pkt 8 8 = p) (hvf : pb c.pkt 9 9 = vf)
  (hp : p < 16) (hvf1 : 1 ≤ vf) (hvf63 : vf < 64)

/-- The state as CONF_ENTER closes debug and transit and asks the sites of the parcel to flush. -/
def State.confClosed (s : State) : State := (((s.scrubFlag true).traceStop).setBit Reg.secStatus 1 true).setBit Reg.secStatus 2 true
def State.confBegun (s : State) (p : Nat) : State :=
  (((s.confClosed.parcels.get? p).map (fun x => x.sites)).getD []).foldl State.flushSite s.confClosed

include hruns hreserved hparcel hvf hp hvf1 hvf63

/-- A CONF_ENTER that starts, by the life cycle and the first failed condition. -/
theorem execConfEnter_starts : execConfEnter q i s = .next (
    let lc := s.fieldOf Reg.lcsStatus 2 0
    if lc = 0 ∨ lc = 3 ∨ lc = 4 then (s.gateDone false).answer q i ⟨0x60, 0, 0⟩
    else match s.confBad p vf with
      | some k => (s.gateDone false).answer q i ⟨0x21, k, 0⟩
      | none => (s.confBegun p).modCmd q i (fun c => { c with st := .serving [0xF040, p, vf] })) := by
  subst hparcel hvf
  have ranges : firstBad [(decide (15 < pb c.pkt 8 8), 8), (pb c.pkt 9 9 == 0 || decide (63 < pb c.pkt 9 9), 9)] = none := by
    have not_zero : (pb c.pkt 9 9 == 0) = false := by simp; omega
    rw [firstBad_atMost (Nat.le_of_lt_succ hp), not_zero, Bool.false_or, firstBad_atMost (Nat.le_of_lt_succ hvf63), firstBad_nil]
  obtain ⟨-, -, started, -⟩ := id hruns
  simp only [execConfEnter, cmd?_runs hruns, started, serve_runs hruns, packetCheck_none hreserved firstBad_nil ranges]
  rfl

theorem execConfEnter_denied (hlc : s.fieldOf Reg.lcsStatus 2 0 = 0 ∨ s.fieldOf Reg.lcsStatus 2 0 = 3 ∨ s.fieldOf Reg.lcsStatus 2 0 = 4) :
    execConfEnter q i s = .next ((s.gateDone false).answer q i ⟨0x60, 0, 0⟩) :=
  (execConfEnter_starts hruns hreserved hparcel hvf hp hvf1 hvf63).trans (congrArg _ (if_pos hlc))

variable (hlc : s.fieldOf Reg.lcsStatus 2 0 = 1 ∨ s.fieldOf Reg.lcsStatus 2 0 = 2)
include hlc

theorem execConfEnter_condition {k : Nat} (hbad : s.confBad p vf = some k) :
    execConfEnter q i s = .next ((s.gateDone false).answer q i ⟨0x21, k, 0⟩) := by
  rw [execConfEnter_starts hruns hreserved hparcel hvf hp hvf1 hvf63, hbad]
  exact congrArg _ (if_neg (by omega))

theorem execConfEnter_begins (hgood : s.confBad p vf = none) :
    execConfEnter q i s = .next ((s.confBegun p).modCmd q i (fun c => { c with st := .serving [0xF040, p, vf] })) := by
  rw [execConfEnter_starts hruns hreserved hparcel hvf hp hvf1 hvf63, hgood]
  exact congrArg _ (if_neg (by omega))

end

/-- The space cleansed, and SEC_STATUS and GLB_STATUS showing the mode with its parcel and its tenant. -/
def State.confOn (s : State) (p vf : Nat) : State :=
  ((s.cleanse p).setBit Reg.glbStatus 2 true).setField Reg.secStatus 13 0 (1 + 2 + 4 + (s.cleanse p).fieldOf Reg.secStatus 3 3 * 8 + p * 16 + vf * 256)

theorem execConfEnter_completes {p vf : Nat} {y : Parcel} (hserves : s.serves q i 0x092 x c [0xF040, p, vf]) (hy : s.parcels.get? p = some y)
    (hflushed : ∀ n ∈ y.sites, s.flushing n = false) :
    execConfEnter q i s = .next ((({ s.confOn p vf with attest := none } : State).gateDone true).answer q i ⟨0, 0, 0⟩) := by
  obtain ⟨-, -, serving, opcode⟩ := id hserves
  have flushed : y.sites.any s.flushing = false := List.any_eq_false.mpr fun n hn => by simp [hflushed n hn]
  simp only [execConfEnter, cmd?_serves hserves, serving, opcode]
  refine congrArg _ ((if_neg ?_).trans rfl)
  simp [hy, flushed]

/-! ### Leaving (R503, R504) -/

section
variable (hruns : s.runs q i 0x093 x c) (hcheck : packetCheck c.pkt [] [] [] = none)
include hruns hcheck

theorem execConfLeave_starts : execConfLeave q i s = .next (if s.confidential = false then (s.gateDone false).answer q i ⟨0x21, 1, 0⟩
    else ((({ s with leave := max 1 s.leave } : State).gateDone true).modCmd q i (fun c => { c with st := .serving [0xF041] })).leaveStep) := by
  obtain ⟨-, -, started, -⟩ := id hruns
  simp only [execConfLeave, cmd?_runs hruns, started, serve_runs hruns, hcheck, Bool.not_eq_eq_eq_not, Bool.not_true]
  rfl

theorem execConfLeave_outside (h : s.confidential = false) : execConfLeave q i s = .next ((s.gateDone false).answer q i ⟨0x21, 1, 0⟩) :=
  (execConfLeave_starts hruns hcheck).trans (congrArg _ (if_pos h))

theorem execConfLeave_leaves (h : s.confidential = true) :
    execConfLeave q i s = .next
      ((({ s with leave := max 1 s.leave } : State).gateDone true).modCmd q i (fun c => { c with st := .serving [0xF041] })).leaveStep :=
  (execConfLeave_starts hruns hcheck).trans (congrArg _ (if_neg (by simp [h])))

end

theorem execConfidentialLeaveEvent_tenantError (hconf : s.confidential = true) (htdi : (s.fn s.tenant).tdi = 3) (hleave : s.leave = 0) :
    execConfidentialLeaveEvent s = .next ({ s with leave := 1 } : State).leaveStep := by
  simp [execConfidentialLeaveEvent, hconf, htdi, hleave]

end Sys2Proof.Machine

open Sys2Proof Sys2Proof.Machine

/-- Settles O44: CONF_ENTER as it starts and as it runs again, then the ways to leave. -/
theorem confidentialModeIsEnteredAndLeft : Obligations.ConfidentialModeIsEnteredAndLeft := by
  refine ⟨?enter, ?complete, ?leave, fun s => execConfidentialLeaveEvent_tenantError⟩
  case enter =>
    intro s q i x c hruns hreserved hp hvf1 hvf63
    exact ⟨execConfEnter_denied hruns hreserved rfl rfl hp hvf1 hvf63, fun hlc k => execConfEnter_condition hruns hreserved rfl rfl hp hvf1 hvf63 hlc,
      execConfEnter_begins hruns hreserved rfl rfl hp hvf1 hvf63⟩
  case complete =>
    intro s q i p vf x c y hserves hy hflushed
    exact execConfEnter_completes hserves hy hflushed
  case leave =>
    intro s q i x c hruns hcheck
    exact ⟨execConfLeave_outside hruns hcheck, execConfLeave_leaves hruns hcheck⟩
end

section
/-! PROOFS. Function queues: the fetch of a packet, its start, its reply, and the failure of a ring (R400 to R409). -/

namespace Sys2Proof.Machine

variable {s : State} {q i : Nat} {x : Queue} {c : Cmd}

/-! ### COMMAND_FETCH (R400, R402) -/

/-- Only a LAUNCH has an extension that is read at its submission. -/
theorem Cmd.opcode_of_ext {e : Nat} (h : c.ext? = some e) : c.opcode = 0x040 := by
  by_contra other
  simp [Cmd.ext?, other] at h

/-- A LAUNCH is turned away on a function queue. -/
theorem State.startCheck_launch (s : State) (hfunction : x.ctx = 0) (hop : c.opcode = 0x040) : s.startCheck x c ≠ none := by
  have kind : opcodeKind 0x040 = (2, false) := by decide
  unfold State.startCheck
  rw [hop]
  dsimp only
  rw [kind]
  dsimp only
  rw [if_neg (by decide), if_pos (show x.ctx = 0 ∧ 2 = 2 ∨ x.ctx ≠ 0 ∧ 2 = 3 from .inl ⟨hfunction, rfl⟩)]
  split
  · exact Option.some_ne_none _
  · split <;> exact Option.some_ne_none _

/-- Nothing of a packet on a function queue is read beside its 64 bytes. -/
theorem State.whenExt_function (s k : State) (c : Cmd) (hfunction : x.ctx = 0) : s.whenExt x c k = k := by
  unfold State.whenExt
  split
  · next passes ext _ => exact absurd passes (s.startCheck_launch hfunction (Cmd.opcode_of_ext ext))
  · rfl

/-- A fetched packet as a command of its queue. -/
def Queue.taken (x : Queue) (pkt : Nat) : Cmd := ⟨packetMask pkt, x.ordinal + 1, [], .fetched, x.subOf, 0, none, none⟩

/-- A queue once the packet at its fetch index has been taken in. -/
def Queue.advanced (x : Queue) (pkt : Nat) : Queue :=
  { x with fetch := (x.fetch + 1) % 2 ^ 32, ordinal := x.ordinal + 1, cmds := x.cmds.set x.fetch (x.taken pkt),
           subs := x.subs.filter (fun e => e.1 != (x.fetch + 1) % 2 ^ 32) }

theorem State.fetched_function (s : State) (q pkt : Nat) (hfunction : x.ctx = 0) :
    s.fetched q x pkt = (s.setQueue q (x.advanced pkt)).takeRefs q x.fetch x (x.taken pkt) :=
  State.whenExt_function _ _ _ hfunction

theorem execCommandFetch_function {pkt : Nat} (hq : s.queues.get? q = some x) (hfunction : x.ctx = 0) (halive : x.dead = false)
    (hleft : x.fetch ≠ x.tail) (hfree : x.cmds.has x.fetch = false) (hopen : s.hostOpen x.fn = true) :
    execCommandFetch q pkt s = .next (((s.emit (.hostRead x.fn none (x.ring + 64 * (x.fetch % 2 ^ x.log2)) 64 noAcc)).setQueue q
      (x.advanced (pkt % 2 ^ 512))).takeRefs q x.fetch x (x.taken (pkt % 2 ^ 512))) := by
  have goes : ((x.dead && x.ctx == 0) || x.fetch == x.tail || x.cmds.has x.fetch || ((x.ctx == 0 || inHost x.ring) && !s.hostOpen x.fn)) = false := by
    simp [halive, hleft, hfree, hopen]
  simp only [execCommandFetch, hq, goes, Bool.false_eq_true, if_false, if_pos hfunction, State.fetched_function _ _ _ hfunction]

/-! ### A ring that fails (R407) -/

theorem State.ringFail_function (hq : s.queues.get? q = some x) (hfunction : x.ctx = 0) (code pva ppa : Nat) :
    s.ringFail q code pva ppa true = ((s.setQueue q { x with dead := true }).fnEvent x.fn 0x8005 code).interrupt x.fn 0 := by
  simp only [State.ringFail, hq, if_pos hfunction, if_true]

theorem execRingFetchFail_fetching (hq : s.queues.get? q = some x) (halive : x.dead = false) (hleft : x.fetch ≠ x.tail) :
    execRingFetchFail q s = .next (s.ringFail q 0x09 (x.ring + 64 * (x.fetch % 2 ^ x.log2)) 0 true) := by
  simp [execRingFetchFail, hq, halive, hleft]

/-! ### COMMAND_START (R405, R409) -/

section
variable (hq : s.queues.get? q = some x) (hnext : x.next? = some (i, c)) (hrunning : x.st = .running) (hmay : s.mayStart x c = true) (hfunction : x.ctx = 0)
include hq hnext hrunning hmay hfunction

theorem execCommandStart_next : execCommandStart q s = .next (match s.startCheck x c with
    | some a => s.answer q i a
    | none => s.recordRead q c (s.modCmd q i (fun c => { c with st := .started }))) := by
  have runs : (x.st != .running) = false := by rw [hrunning]; rfl
  have starts : (x.st != .running || !s.mayStart x c || (x.ctx != 0 && !s.hostOpen x.fn)) = false := by simp [runs, hmay, hfunction]
  simp only [execCommandStart, hq, hnext, starts, Bool.false_eq_true, if_false] <;> rfl

theorem execCommandStart_answers {a : Answer} (hcheck : s.startCheck x c = some a) : execCommandStart q s = .next (s.answer q i a) := by
  rw [execCommandStart_next hq hnext hrunning hmay hfunction, hcheck]

theorem execCommandStart_starts (hcheck : s.startCheck x c = none) (hctx : s.recordLost (ctxOff (c.context % 4096)) = false)
    (hqueue : s.recordLost (queueOff q) = false) : execCommandStart q s = .next (s.modCmd q i (fun c => { c with st := .started })) := by
  have kept : [ctxOff (c.context % 4096), queueOff q].find? s.recordLost = none := by simp [hctx, hqueue]
  rw [execCommandStart_next hq hnext hrunning hmay hfunction, hcheck]
  simp only [State.recordRead, kept]
  cases s.ctxOf c.context <;> rfl

end

/-! ### STATUS_REPLY (R404, R406) -/

theorem execStatusReply_plain {b : Answer} (hq : s.queues.get? q = some x) (hc : x.cmds.get? i = some c) (hdone : c.st = .done b)
    (hwhole : s.degraded = false) (hsignal : c.signalled = false) (hinterrupt : c.interrupts = false) :
    execStatusReply q i s = .next ((c.refs.foldl State.devDrop
      ((s.putReply q i c.seq b).modQueue q (fun y => { y with cmds := y.cmds.erase i }))).raiseQueueFence q) := by
  have whole : s.degradedAnswer x b = (b, s) := by simp [State.degradedAnswer, hwhole]
  have quiet : c.raises x b = false := by simp [Cmd.raises, hsignal]
  simp only [execStatusReply, hq, hc, hdone, whole, State.writeReply, quiet, hinterrupt, Bool.false_eq_true, if_false]

end Sys2Proof.Machine

open Sys2Proof Sys2Proof.Machine

/-- Settles O27: the fetch, the failure of the ring, the start by the first status that applies, and the reply. -/
theorem packetsAreFetchedStartedAndAnswered : Obligations.PacketsAreFetchedStartedAndAnswered := by
  refine ⟨?fetch, ?fail, ?start, fun s q i x c b hq hc hdone hwhole => execStatusReply_plain hq hc hdone hwhole⟩
  case fetch =>
    intro s q pkt x hq hfunction halive hleft hfree hopen c nx
    exact execCommandFetch_function hq hfunction halive hleft hfree hopen
  case fail =>
    intro s q x hq hfunction halive hleft
    exact (execRingFetchFail_fetching hq halive hleft).trans (congrArg _ (State.ringFail_function hq hfunction _ _ _))
  case start =>
    intro s q i x c hq hnext hrunning hmay hfunction
    exact ⟨fun a => execCommandStart_answers hq hnext hrunning hmay hfunction, execCommandStart_starts hq hnext hrunning hmay hfunction⟩
end

section
/-! PROOFS. NOP and the commands on fences: each reaches its meaning through its context and the fence that it names (R417, R426, R428). -/

namespace Sys2Proof.Machine

variable {s : State} {q i n k : Nat} {x : Queue} {c : Cmd} {y : Context} {f : FenceObj}

theorem execNop_completes (hruns : s.runs q i 0x001 x c) (hcheck : packetCheck c.pkt [] [] [] = none) : execNop q i s = .next (s.answer q i ⟨0, 0, 0⟩) := by
  rw [execNop, serve_runs hruns]
  simp only [hcheck]
  rfl

section
variable (hnamed : s.named c n y) (hfence : s.fenceOf (pb c.pkt 11 8) = some (k, f)) (hkept : s.rsvLost (fenceOff (pb c.pkt 11 8 % 2 ^ 20)) = false)
include hnamed hfence hkept

theorem execFenceSignal_raises (hparcel : f.parcel = y.parcel) (hcheck : packetCheck c.pkt [(8, 11), (16, 23)] [] [] = none)
    (hruns : s.runs q i 0x002 x c) (hclean : s.poisoned f.word = false) :
    execFenceSignal q i s = .next ((s.raiseWord f.word (pb c.pkt 23 16)).answer q i ⟨0, 0, 0⟩) := by
  rw [execFenceSignal, serve_runs hruns, withCtx_named hnamed]
  simp only [hcheck, State.tableRead_kept hkept, hfence, if_neg (not_not_intro hparcel), hclean]
  rfl

theorem execFenceWait_waits (hparcel : f.parcel = y.parcel) (hcheck : packetCheck c.pkt [(8, 11), (16, 23)] [] [] = none)
    (hruns : s.runs q i 0x003 x c) :
    execFenceWait q i s = .next (s.modCmd q i (fun c => { c with st := .serving [f.word, f.pva, f.ppa] })) := by
  rw [execFenceWait, serve_runs hruns, withCtx_named hnamed]
  simp only [hcheck, State.tableRead_kept hkept, hfence, if_neg (not_not_intro hparcel), keepServing_req]

theorem execFenceFree_removes (hcheck : packetCheck c.pkt [(8, 11)] [] [] = none) (hruns : s.runs q i 0x035 x c) (howner : f.ctx = n) :
    execFenceFree q i s = .next (({ s with fences := s.fences.erase k } : State).answer q i ⟨0, 0, 0⟩) := by
  rw [execFenceFree, serve_runs hruns, withCtx_named hnamed]
  simp only [hcheck, State.tableRead_kept hkept, hfence, if_neg (not_not_intro howner)]
  rfl

end

theorem execFenceWaitSatisfied_reached {word pva ppa : Nat} (hnamed : s.named c n y) (hserves : s.serves q i 0x003 x c [word, pva, ppa])
    (hclean : s.poisoned word = false) (hreached : pb c.pkt 23 16 ≤ s.cohRead word 8) :
    execFenceWaitSatisfied q i s = .next (s.answer q i ⟨0, 0, b2n (s.abandoned word)⟩) := by
  rw [execFenceWaitSatisfied, serving_serves hserves, withCtx_named hnamed]
  simp only [List.headD_cons, hclean, Bool.false_and, Bool.false_eq_true, if_false, if_pos hreached]
  rfl

theorem execFenceCreate_creates {dpa : Nat} (hnamed : s.named c n y) (hruns : s.runs q i 0x034 x c)
    (hcheck : packetCheck c.pkt [(8, 23)] [(pvaHigh c.pkt 8, 8)] [(pb c.pkt 15 8 % 16 != 0, 8)] = none)
    (hword : s.fenceWord y none (pb c.pkt 15 8) 4 = .ok dpa) (hroom : s.fences.length < 2 ^ 20) :
    execFenceCreate q i s = .next (
      let k := s.fences.freeKey (2 ^ 20)
      let g := nextGen (s.gens.getD (genKey 2 k) 0) 4095
      let s1 := s.cohWrite dpa (bytesOf 8 (pb c.pkt 23 16) ++ bytesOf 8 0)
      ({ s1 with
        fences := s1.fences.set k ⟨g, n, y.parcel, pb c.pkt 15 8, s.ppaAt y (pb c.pkt 15 8), dpa⟩
        gens := s1.gens.set (genKey 2 k) g } : State).answer q i ⟨0, 0, k + g * 2 ^ 20⟩) := by
  rw [execFenceCreate, serve_runs hruns, withCtx_named hnamed]
  simp only [hcheck, hword, if_neg (Nat.not_le.mpr hroom)]
  rfl

end Sys2Proof.Machine

open Sys2Proof Sys2Proof.Machine

/-- Settles O29, command by command. -/
theorem contextAndFenceCommands : Obligations.ContextAndFenceCommands := by
  refine ⟨fun s q i x c => execNop_completes, ?fences, ?satisfied, ?create⟩
  case fences =>
    intro s q i n k x c y f hnamed hfence hkept
    exact ⟨fun hparcel hcheck => ⟨execFenceSignal_raises hnamed hfence hkept hparcel hcheck, execFenceWait_waits hnamed hfence hkept hparcel hcheck⟩,
      fun hruns hcheck => execFenceFree_removes hnamed hfence hkept hcheck hruns⟩
  case satisfied =>
    intro s q i n word pva ppa x c y hnamed hserves hclean hreached
    exact execFenceWaitSatisfied_reached hnamed hserves hclean hreached
  case create =>
    intro s q i n dpa x c y hnamed hruns hcheck hword hroom
    exact execFenceCreate_creates hnamed hruns hcheck hword hroom
end

section
/-! PROOFS. Weight sets: registered, loaded, pinned, unpinned and evicted, and the end of a load (R450 to R456, R507). -/

namespace Sys2Proof.Machine

variable {s : State} {q i op n k : Nat} {x : Queue} {c : Cmd} {y : Context} {o : MemObj} {w : WeightSet}

/-! ### WSET_REGISTER (R450) -/

/-- The fields of a WSET_REGISTER in their ranges. -/
structure RegisterOk (p : Nat) : Prop where
  reserved : reservedByte p [(8, 26)] = none
  high : pvaHigh p 8 = false
  aligned : pb p 15 8 % 65536 = 0
  window : inHost (pb p 15 8) = true
  filled : pb p 23 16 ≠ 0
  pages : pb p 23 16 % 65536 = 0
  easement : pb p 25 24 < 256
  sealBit : pb p 26 26 < 2

theorem RegisterOk.packetCheck {p : Nat} (h : RegisterOk p) : packetCheck p [(8, 26)] [(pvaHigh p 8, 8)]
    [(pb p 15 8 % 65536 != 0 || !inHost (pb p 15 8), 8), (pb p 23 16 == 0 || pb p 23 16 % 65536 != 0, 16), (decide (255 < pb p 25 24), 24),
      (decide (1 < pb p 26 26), 26)] = none := by
  refine packetCheck_none h.reserved (by rw [h.high]; rfl) (firstBad_none fun e he => ?_)
  simp only [List.mem_cons, List.not_mem_nil, or_false] at he
  rcases he with rfl | rfl | rfl | rfl
  · simp [h.aligned, h.window]
  · simp [h.filled, h.pages]
  · simpa using Nat.le_of_lt_succ h.easement
  · simpa using Nat.le_of_lt_succ h.sealBit

theorem execWsetRegister_registers {pc : Parcel} {e : Easement} (hruns : s.runs q i 0x060 x c) (hnamed : s.named c n y) (hok : RegisterOk c.pkt)
    (hpc : s.parcels.get? y.parcel = some pc) (hmapped : ∃ m ∈ pc.eases, m.2 = pb c.pkt 25 24) (he : s.eases.get? (pb c.pkt 25 24) = some e)
    (hfits : pb c.pkt 23 16 ≤ e.size * 2 ^ 30) (hset : e.wset = 0) (hobjs : s.objs.length < 2 ^ 20) (hholds : y.holds.length < 16384) :
    execWsetRegister q i s = .next (
      let p := c.pkt
      let k := s.objs.freeKey (2 ^ 20)
      let g := nextGen (s.gens.getD (genKey 1 k) 0) 4095
      let h := k + g * 2 ^ 20
      let w : WeightSet := ⟨pb p 15 8, ctxHandle n y, pb p 23 16, pb p 25 24, pb p 26 26 == 1, [], false, false, 0, 0⟩
      (({ s with
        objs := s.objs.set k ⟨g, y.parcel, 0, pb p 23 16, 0, 0, 0, 0, some w⟩
        gens := s.gens.set (genKey 1 k) g
        eases := s.eases.set (pb p 25 24) { e with wset := h } } : State).holdAdd n k 1).answer q i ⟨0, 0, h⟩) := by
  have mapped : pc.eases.any (fun m => m.2 == pb c.pkt 25 24) = true := by simpa using hmapped
  have room : ¬ (2 ^ 20 ≤ s.objs.length ∨ 16384 ≤ y.holds.length) := by omega
  rw [execWsetRegister, serve_runs hruns, withCtx_named hnamed]
  simp only [hok.packetCheck, hpc, mapped, if_true, he, if_neg (Nat.not_lt.mpr hfits), hset, if_neg room]
  rfl

/-! ### Commands on a weight-set handle (R451 to R454) -/

section
variable (hnamed : s.named c n y) (hcheck : packetCheck c.pkt [(8, 11)] [] [] = none) (hobj : s.objOf (pb c.pkt 11 8) y.parcel = some (k, o))
  (hw : o.wset = some w) (hkept : s.rsvLost (objOff (pb c.pkt 11 8 % 2 ^ 20)) = false)
include hnamed hcheck hobj hw hkept

theorem onWset_runs {f : Req → Nat → MemObj → WeightSet → State} (hruns : s.runs q i op x c) :
    s.onWset q i op f = f (s.req q i x c) k o w := by
  rw [State.onWset, serve_runs hruns, withCtx_named hnamed]
  simp only [hcheck, State.tableRead_kept hkept, hobj, hw]

theorem execWsetLoad_resident (hruns : s.runs q i 0x061 x c) (hres : w.resident = true) :
    execWsetLoad q i s = .next ((s.touchSets [k]).answer q i ⟨0, 0, w.bays.length⟩) := by
  rw [execWsetLoad, onWset_runs hnamed hcheck hobj hw hkept hruns]
  exact congrArg _ (if_pos hres)

theorem execWsetLoad_begins {t : State} (hruns : s.runs q i 0x061 x c) (hres : w.resident = false) (hidle : w.loading = false)
    (hload : (s.touchSets [k]).loadSet k = .ok t) :
    execWsetLoad q i s = .next (t.modCmd q i (fun c => { c with st := .serving [0xF001, k] })) := by
  rw [execWsetLoad, onWset_runs hnamed hcheck hobj hw hkept hruns]
  simp only [hres, hidle, hload, Bool.false_eq_true, if_false, keepServing_req]

theorem execWsetPin_resident (hruns : s.runs q i 0x062 x c) (hres : w.resident = true) :
    execWsetPin q i s = .next (((s.touchSets [k]).modWset k (fun w => { w with pins := satAdd 8 w.pins 1 })).answer q i ⟨0, 0, 0⟩) := by
  rw [execWsetPin, onWset_runs hnamed hcheck hobj hw hkept hruns]
  exact congrArg _ (if_pos hres)

theorem execWsetUnpin_pinned (hruns : s.runs q i 0x063 x c) (hpins : w.pins ≠ 0) :
    execWsetUnpin q i s = .next (((s.touchSets [k]).modWset k (fun w => { w with pins := w.pins - 1 })).answer q i ⟨0, 0, 0⟩) := by
  rw [execWsetUnpin, onWset_runs hnamed hcheck hobj hw hkept hruns]
  exact congrArg _ (if_neg hpins)

theorem execWsetEvict_unused (hruns : s.runs q i 0x064 x c) (hres : w.resident = true) (hidle : w.loading = false) (hpins : w.pins = 0) (hdev : o.dev = 0) :
    execWsetEvict q i s = .next (((s.touchSets [k]).evictSet k).answer q i ⟨0, 0, 0⟩) := by
  have unused : o.evictable = true := by simp [MemObj.evictable, hw, hres, hidle, hpins, hdev]
  rw [execWsetEvict, onWset_runs hnamed hcheck hobj hw hkept hruns]
  simp only [hres, unused, Bool.not_true, Bool.false_and, Bool.false_eq_true, if_false]
  rfl

end

/-! ### WSET_LOAD_DONE (R258, R456) -/

section
variable (hw : s.wset? k = some w) (hloading : w.loading = true) (hopen : w.sealed = false) (hreads : s.sourceWaits w = false)
include hw hloading hopen hreads

/-- The bytes of an unsealed set are in HBM: its granules loaded into its bays, its easement's map naming them, and the load counted. -/
def State.setLoaded (s : State) (k : Nat) (w : WeightSet) : State :=
  let s1 := w.bays.foldl State.loadGranule s
  let s2 : State := { s1 with eases := s1.eases.modify w.ease (fun e => { e with map := (w.bays.zipIdx).foldl (fun m (x : Nat × Nat) => m.set x.2 x.1) [] }) }
  (s2.addWrap Reg.cmdWpoolStat 47 32 1).modWset k (fun w => { w with loading := false, resident := true })

theorem execWsetLoadDone_unsealed : execWsetLoadDone k none s = .next (if s.linesHeld (inGranules w.bays) then s.evictLines (inGranules w.bays)
    else (s.setLoaded k w).loadsOver k) := by
  have sealOk : s.sealOk w = true := by simp [State.sealOk, hopen]
  simp only [execWsetLoadDone, hw, hloading, hreads, hopen, sealOk, Bool.not_true, Bool.or_self, Bool.false_and, Bool.false_eq_true, if_false,
    State.setLoaded]

end

end Sys2Proof.Machine

open Sys2Proof Sys2Proof.Machine

/-- Settles O32, command by command; the end of a load by whether a line of the bays is still held. -/
theorem weightSetCommands : Obligations.WeightSetCommands := by
  refine ⟨?register, ?handles, ?done⟩
  case register =>
    intro s q i n x c y pc e hruns hnamed p reserved high aligned window filled pages easement sealBit hpc hmapped he hfits hset hobjs hholds
    exact execWsetRegister_registers hruns hnamed ⟨reserved, high, aligned, window, filled, pages, easement, sealBit⟩ hpc hmapped he hfits hset hobjs hholds
  case handles =>
    intro s q i n k x c y o w hnamed hcheck hobj hw hkept s1
    exact ⟨fun hruns => ⟨execWsetLoad_resident hnamed hcheck hobj hw hkept hruns,
        fun hres hidle t => execWsetLoad_begins hnamed hcheck hobj hw hkept hruns hres hidle⟩,
      execWsetPin_resident hnamed hcheck hobj hw hkept, execWsetUnpin_pinned hnamed hcheck hobj hw hkept, execWsetEvict_unused hnamed hcheck hobj hw hkept⟩
  case done =>
    intro s k w hw hloading hopen hreads
    have ends := execWsetLoadDone_unsealed hw hloading hopen hreads
    exact ⟨fun held => ends.trans (congrArg _ (if_pos held)), fun free => ends.trans (congrArg _ (if_neg (Bool.eq_false_iff.mp free)))⟩
end

section
/-! PROOFS. Parcels: created, resized and destroyed, their granules zeroed, and a township that leaves (R459, R461, R467 to R471, R256). -/

namespace Sys2Proof.Machine

variable {s : State} {q i p : Nat} {x : Queue} {c : Cmd}

/-- The townships and the sites that a parcel command names. -/
def shipsNamed (pkt : Nat) : List Nat := bitsOf 256 (pb pkt 47 16)
def sitesNamed (pkt : Nat) : List Nat := bitsOf 8 (pb pkt 9 9)

/-- The parcel and the holding of HBM that a command names are in range. -/
theorem firstBad_holding {p hbm : Nat} (hp : p < 16) (hhbm : hbm ≤ 768) : firstBad [(decide (15 < p), 8), (decide (768 < hbm), 10)] = none := by
  rw [firstBad_atMost (Nat.le_of_lt_succ hp), firstBad_atMost hhbm, firstBad_nil]

/-! ### PARCEL_CREATE (R467) -/

theorem execParcelCreate_free {hbm : Nat} (hidle : s.parcelBusy = false) (hhalted : s.haltedFor q i 0x070 = false) (hruns : s.runs q i 0x070 x c)
    (hreserved : reservedByte c.pkt [(8, 11), (16, 47)] = none) (hparcel : pb c.pkt 8 8 = p) (hgrans : pb c.pkt 11 10 = hbm) (hp : p < 16)
    (hhbm : hbm ≤ 768) (hconf : s.confidential = false) (hnew : s.parcels.has p = false) (hships : ∀ t ∈ shipsNamed c.pkt, s.shipFree t = true)
    (hsites : ∀ n ∈ sitesNamed c.pkt, s.parcelOfSite n = none) (henough : hbm ≤ s.freeGrans.length) :
    execParcelCreate q i s = .next (if hbm = 0 then (s.parcelMake p (shipsNamed c.pkt) (sitesNamed c.pkt) []).answer q i ⟨0, 0, 0⟩
      else s.modCmd q i (fun c => { c with st := .serving (0xF020 :: p :: s.freeGrans.take hbm) })) := by
  subst hparcel hgrans
  have ships_free : (bitsOf 256 (pb c.pkt 47 16)).find? (fun t => !s.shipFree t) = none := by
    rw [List.find?_eq_none]
    intro t ht
    simp [hships t ht]
  have sites_free : (bitsOf 8 (pb c.pkt 9 9)).find? (fun n => (s.parcelOfSite n).isSome) = none := by
    rw [List.find?_eq_none]
    intro n hn
    simp [hsites n hn]
  rw [execParcelCreate, parcelServe_runs hruns hidle hhalted]
  simp only [packetCheck_none hreserved firstBad_nil (firstBad_holding hp hhbm), hconf, hnew, ships_free, sites_free, if_neg (Nat.not_lt.mpr henough)]
  rfl

/-! ### GRANULE_ZEROED (R461) -/

/-- The zeroed granules of a new parcel: their lines are given up first, and then it is made, or refused where a part is no longer free. -/
theorem execGranuleZeroed_creates {gs : List Nat} (hserves : s.serves q i 0x070 x c (0xF020 :: p :: gs)) :
    execGranuleZeroed q i s = .next (if s.linesHeld (inGranules gs) then s.evictLines (inGranules gs)
      else match s.holdBusy (shipsNamed c.pkt) (sitesNamed c.pkt) gs with
        | some a => s.gate.answer q i a
        | none => (s.parcelMake p (shipsNamed c.pkt) (sitesNamed c.pkt) gs).answer q i ⟨0, 0, 0⟩) := by
  obtain ⟨-, -, serving, opcode⟩ := id hserves
  simp only [execGranuleZeroed, cmd?_serves hserves, serving, opcode]
  rfl

theorem execGranuleZeroed_resizes {l : List Nat} (hserves : s.serves q i 0x071 x c (0xF021 :: p :: 0 :: l))
    (hfree : s.linesHeld (inGranules (resizeOf l).add) = false) :
    execGranuleZeroed q i s = .next (s.resizeEnd ⟨q, i, x.fn, none, c.pkt⟩ p true (resizeOf l)) := by
  obtain ⟨queue, -, serving, opcode⟩ := id hserves
  have other : ¬ (0x071 = 0x070) := by decide
  simp only [execGranuleZeroed, cmd?_serves hserves, serving, opcode, queue, if_neg other, List.drop_succ_cons, List.drop_zero, hfree,
    Bool.false_eq_true, if_false]
  rfl

/-! ### PARCEL_RESIZE (R469, R470) -/

/-- The sites of a parcel that a resize takes from it, asked to flush. -/
def State.flushLeaving (s : State) (y : Parcel) (z : Resize) : State := (y.sites.filter (fun n => !z.sites.contains n)).foldl State.flushSite s

theorem execParcelResize_passes {hbm : Nat} {y : Parcel} {z : Resize} (hidle : s.parcelBusy = false) (hhalted : s.haltedFor q i 0x071 = false)
    (hruns : s.runs q i 0x071 x c) (hreserved : reservedByte c.pkt [(8, 11), (16, 47)] = none) (hparcel : pb c.pkt 8 8 = p) (hgrans : pb c.pkt 11 10 = hbm)
    (hp : p < 16) (hhbm : hbm ≤ 768) (hconf : s.confidential = false) (hy : s.parcels.get? p = some y)
    (hcheck : s.resizeCheck p y (shipsNamed c.pkt) (sitesNamed c.pkt) hbm = .ok z) :
    execParcelResize q i s = .next ((s.flushLeaving y z).resizeEnd (s.req q i x c) p z.add.isEmpty z) := by
  subst hparcel hgrans
  unfold shipsNamed sitesNamed at hcheck
  rw [execParcelResize, parcelServe_runs hruns hidle hhalted]
  simp only [packetCheck_none hreserved firstBad_nil (firstBad_holding hp hhbm), hconf, hy, hcheck]
  rfl

/-! ### PARCEL_DESTROY (R471) -/

/-- A PARCEL_DESTROY that has started has nothing to go on with. -/
theorem destroy_parcelServe {g : Req → List Nat → State} {f : Req → State} (hidle : s.parcelBusy = false) (hhalted : s.haltedFor q i 0x072 = false)
    (hruns : s.runs q i 0x072 x c) : (s.serving q i 0x072 g).parcelServe q i 0x072 f = f (s.req q i x c) := by
  rw [serving_runs hruns, parcelServe_runs hruns hidle hhalted]

theorem execParcelDestroy_unused {y : Parcel} (hidle : s.parcelBusy = false) (hhalted : s.haltedFor q i 0x072 = false) (hruns : s.runs q i 0x072 x c)
    (hreserved : reservedByte c.pkt [(8, 8)] = none) (hparcel : pb c.pkt 8 8 = p) (hp : p < 16) (hconf : s.confidential = false)
    (hy : s.parcels.get? p = some y) (hctxs : ∀ e ∈ s.ctxs, e.2.parcel ≠ p) (hvfs : ∀ n, 1 ≤ n → n < 64 → s.vfBound n = true → s.vfParcel n ≠ p) :
    execParcelDestroy q i s = .next (
      let up := y.sites.filter (fun n => s.fieldOf (Reg.siteStat n) 2 0 == 4)
      (up.foldl State.flushSite s).destroyEnd (s.req q i x c) p up) := by
  subst hparcel
  have no_contexts : (s.ctxs.filter (fun e => e.2.parcel == pb c.pkt 8 8)).length = 0 := by
    rw [List.length_eq_zero_iff, List.filter_eq_nil_iff]
    intro e he
    simpa using hctxs e he
  have no_functions : ((upTo 64).filter (fun n => decide (1 ≤ n) && s.vfBound n && s.vfParcel n == pb c.pkt 8 8)).length = 0 := by
    rw [List.length_eq_zero_iff, List.filter_eq_nil_iff]
    intro n hn
    simpa using fun h1 bound => hvfs n h1 (List.mem_range.mp hn) bound
  rw [execParcelDestroy, destroy_parcelServe hidle hhalted hruns]
  simp only [packetCheck_none hreserved firstBad_nil (firstBad_parcel hp), hconf, hy, no_contexts, no_functions]
  rfl

/-! ### TOWNSHIP_LEAVE (R256, R470) -/

/-- A leaving township written back, with all that it cached forgotten. -/
def State.shipLeft (s : State) (t : Nat) : State :=
  (s.writeBackShip t).modShip t (fun h => { h.forget (fun _ => true) with leaving := false, returns := [] })

theorem execTownshipLeave_quiet {t : Nat} (hp : s.parcelOfShip t = some p) (hleaving : (s.ship t).leaving = true) (himage : (s.ship t).image = none)
    (hidle : t ∉ s.busyShips) (hanswered : ∀ e ∈ (s.ship t).returns, e.2.answer ≠ none) (htest : (s.ship t).test = none) (hquiet : s.shipQuiet t = true) :
    execTownshipLeave t s = .next { s.shipLeft t with
      parcels := (s.shipLeft t).parcels.modify p (fun y => { y with ships := y.ships.filter (fun r => r != t) }) } := by
  have answered : (s.ship t).returns.any (fun e => e.2.answer.isNone) = false := by
    rw [List.any_eq_false]
    intro e he
    simpa using hanswered e he
  have free : s.busyShips.contains t = false := by simpa using hidle
  simp only [execTownshipLeave, hp, hleaving, himage, free, answered, htest, hquiet]
  rfl

end Sys2Proof.Machine

open Sys2Proof Sys2Proof.Machine

/-- Settles O37, command by command; the zeroed granules of a new parcel by whether lines of them are held and its holding is still free. -/
theorem parcelsAreMadeResizedAndDestroyed : Obligations.ParcelsAreMadeResizedAndDestroyed := by
  refine ⟨?create, ?zeroed, fun s q i p l x c => execGranuleZeroed_resizes, ?resize, ?destroy, ?leave⟩
  case create =>
    intro s q i x c hidle hhalted hruns hreserved p hbm ships sites hp hhbm hconf hnew hships hsites
    have created := execParcelCreate_free hidle hhalted hruns hreserved rfl rfl hp hhbm hconf hnew hships hsites
    exact ⟨fun none_asked => (created (none_asked.trans_le (Nat.zero_le _))).trans (congrArg _ (if_pos none_asked)),
      fun some_asked henough => (created henough).trans (congrArg _ (if_neg some_asked.ne'))⟩
  case zeroed =>
    intro s q i p gs x c hserves
    have zeroed := execGranuleZeroed_creates hserves
    refine ⟨fun held => zeroed.trans (congrArg _ (if_pos held)), fun free => ?_⟩
    intro ships sites
    replace zeroed := zeroed.trans (congrArg _ (if_neg (Bool.eq_false_iff.mp free)))
    refine ⟨fun still_free => ?_, fun a refused => ?_⟩
    · rw [show s.holdBusy (shipsNamed c.pkt) (sitesNamed c.pkt) gs = none from still_free] at zeroed
      exact zeroed
    · rw [show s.holdBusy (shipsNamed c.pkt) (sitesNamed c.pkt) gs = some a from refused] at zeroed
      exact zeroed
  case resize =>
    intro s q i x c y z hidle hhalted hruns hreserved hp hhbm hconf hy hcheck
    exact execParcelResize_passes hidle hhalted hruns hreserved rfl rfl hp hhbm hconf hy hcheck
  case destroy =>
    intro s q i x c y hidle hhalted hruns hreserved hp hconf hy hctxs hvfs
    exact execParcelDestroy_unused hidle hhalted hruns hreserved rfl hp hconf hy hctxs hvfs
  case leave =>
    intro s t p hp hleaving himage hidle hanswered htest hquiet
    exact execTownshipLeave_quiet hp hleaving himage hidle hanswered htest hquiet
end

section
/-! PROOFS. Accesses of the BARs: those refused for their size, doorbells, reads and writes of BAR4, and the swap of the dirty maps (R378, R379,
R382, R385, R394, R397, R401). -/

namespace Sys2Proof.Machine

variable {s : State} {n : Nat} {tee : Bool}

/-! ### Accesses of a size or alignment that is not accepted (R378) -/

theorem badSize_iff (off size : Nat) (pasid : Bool) : badSize off size pasid = true ↔ pasid = true ∨ (size ≠ 4 ∧ size ≠ 8) ∨ off % size ≠ 0 := by
  simp [badSize, or_assoc]

theorem execBadAccess_bad {off size : Nat} {pasid : Bool} (write : Bool) (h : badSize off size pasid = true) :
    execBadAccess off size pasid write s = .next (s.badAccess off write) := congrArg _ (if_pos h)

theorem execBadAccess_good {off size : Nat} {pasid : Bool} (write : Bool) (h : badSize off size pasid = false) :
    execBadAccess off size pasid write s = .next s := congrArg _ (if_neg (Bool.eq_false_iff.mp h))

/-! ### DOORBELL (R385, R401) -/

section
variable {page slot : Nat} {v : W64} (hopen : s.barOpen n tee = true)
include hopen

/-- A doorbell that the function takes: dropped before READY, in a reset or in ERROR, and where it has no queue. -/
theorem execDoorbell_taken : execDoorbell n page slot v tee s = .next (
    if s.bit Reg.glbStatus 0 = false then s.dbDrop
    else if (s.fn n).flr = true ∨ (s.fn n).tdi = 3 then s.dbDrop
    else match s.doorbellOf n page slot with
      | none => s.dbDrop
      | some q => match s.queues.get? q with
        | none => s.dbDrop
        | some x => s.setTail q x (v.toNat % 2 ^ 32)) := by
  simp only [execDoorbell, hopen, Bool.not_true, Bool.false_eq_true, if_false, Bool.not_eq_eq_eq_not, Bool.or_eq_true, beq_iff_eq] <;> rfl

theorem execDoorbell_unready (h : s.bit Reg.glbStatus 0 = false) : execDoorbell n page slot v tee s = .next s.dbDrop :=
  (execDoorbell_taken hopen).trans (congrArg _ (if_pos h))

variable (hready : s.bit Reg.glbStatus 0 = true)
include hready

theorem execDoorbell_stopped (h : (s.fn n).flr = true ∨ (s.fn n).tdi = 3) : execDoorbell n page slot v tee s = .next s.dbDrop :=
  (execDoorbell_taken hopen).trans (congrArg _ ((if_neg (by simp [hready])).trans (if_pos h)))

variable (hflr : (s.fn n).flr = false) (htdi : (s.fn n).tdi ≠ 3)
include hflr htdi

theorem execDoorbell_no_queue (h : s.doorbellOf n page slot = none) : execDoorbell n page slot v tee s = .next s.dbDrop := by
  rw [execDoorbell_taken hopen, h]
  simp [hready, hflr, htdi]

theorem execDoorbell_queue {q : Nat} {x : Queue} (h : s.doorbellOf n page slot = some q) (hq : s.queues.get? q = some x) :
    execDoorbell n page slot v tee s = .next (s.setTail q x (v.toNat % 2 ^ 32)) := by
  rw [execDoorbell_taken hopen, h]
  simp [hready, hflr, htdi, hq]

end

/-- How many commands a tail is ahead of the fetch index. -/
def Queue.ahead (x : Queue) (v : Nat) : Nat := (v + 2 ^ 32 - x.fetch) % 2 ^ 32

theorem State.setTail_far {q v : Nat} {x : Queue} (hmoves : v ≠ x.tail) (h : 2 ^ 31 ≤ x.ahead v) : s.setTail q x v = s.dbDrop :=
  (if_neg hmoves).trans (if_pos h)

/-- A tail less than 2^31 ahead, and further than each before it, submits the commands below it. -/
theorem State.setTail_near {q v : Nat} {x : Queue} (hmoves : v ≠ x.tail) (h : x.ahead v < 2 ^ 31) (hmore : ∀ e ∈ x.subs, x.ahead e.1 < x.ahead v) :
    s.setTail q x v = ({ s with tick := s.tick + 1 } : State).setQueue q { x with tail := v, subs := x.subs ++ [(v, s.tick)] } := by
  unfold Queue.ahead at h hmore
  have more : x.subs.all (fun e => decide ((e.1 + 2 ^ 32 - x.fetch) % 2 ^ 32 < (v + 2 ^ 32 - x.fetch) % 2 ^ 32)) = true :=
    List.all_eq_true.mpr fun e he => decide_eq_true (hmore e he)
  simp only [State.setTail, if_neg hmoves, if_neg (Nat.not_le.mpr h), State.stamp, more, if_true]

/-! ### BAR4 (R379) -/

theorem execBar4Read_closed {off len : Nat} (h : s.barOpen n tee = false) : execBar4Read n off len tee s = .next (s.emit (.completion n 1 [])) := by
  simp [execBar4Read, h]

section
variable {off len : Nat} {bytes : List Byte} (hopen : s.barOpen n tee = true)
include hopen

theorem execBar4Read_unready (h : s.bit Reg.glbStatus 0 = false) :
    execBar4Read n off len tee s = .next (s.emit (.completion n 0 (bytesOf len 0))) := by
  simp [execBar4Read, hopen, h]

variable (hready : s.bit Reg.glbStatus 0 = true)
include hready

theorem execBar4Read_served : execBar4Read n off len tee s = .next (s.bar4Read n off len tee) := by
  simp [execBar4Read, hopen, hready]

theorem execBar4Write_served : execBar4Write n off bytes tee s = .next (s.bar4Write n off bytes tee) := by
  simp [execBar4Write, hopen, hready]

end

/-- A miss is an error of the parcel only where the plat entry lies on a failed channel. -/
theorem State.bar4Miss_other {f : Xfault} (n : Nat) (h : f.code ≠ 0x0C) : s.bar4Miss n f = s := if_neg h

theorem State.bar4Miss_failed {f : Xfault} (n : Nat) (h : f.code = 0x0C) : s.bar4Miss n f = s.parcelError 0x07 (s.vfParcel n) 0 0 0 0 := if_pos h

section
variable {off : Nat} {x : Xlat}

theorem State.bar4Read_miss {f : Xfault} (len : Nat) (tee : Bool) (h : s.bar4 n off false = .error f) :
    s.bar4Read n off len tee = (s.bar4Miss n f).emit (.completion n 1 []) := by
  simp only [State.bar4Read, h]

/-- The completion of a read that HBM answers: poison where a byte of it is poisoned, and else the coherent bytes. -/
def State.bar4Answer (s : State) (n dpa len : Nat) : Out :=
  if s.spanPoisoned dpa len then .completion n 3 (bytesOf len 0) else .completion n 0 (bytesOf len (s.cohRead dpa len))

theorem State.bar4Read_hbm (len : Nat) (tee : Bool) (h : s.bar4 n off false = .ok x) (hwindow : x.window = none) :
    s.bar4Read n off len tee = if s.spanHeld x.dpa len then { s with hostHeld := s.hostHeld ++ [.bar4Read n off len tee] }
      else (s.countSpan 680 none false (len / 128 + 2) x.dpa len).emit (s.bar4Answer n x.dpa len) := by
  simp only [State.bar4Read, h, hwindow, State.bar4Answer]
  cases s.spanPoisoned x.dpa len <;> rfl

theorem State.bar4Write_miss {f : Xfault} (bytes : List Byte) (tee : Bool) (h : s.bar4 n off true = .error f) (htenant : ¬ (n = 0 ∧ s.confidential = true)) :
    s.bar4Write n off bytes tee = (s.bar4Miss n f).emit (.mgmt 0x22 [n]) := by
  simp only [State.bar4Write, h, if_neg htenant]

theorem State.bar4Write_hbm (bytes : List Byte) (tee : Bool) (h : s.bar4 n off true = .ok x) (hwindow : x.window = none) :
    s.bar4Write n off bytes tee = if s.spanHeld x.dpa bytes.length then { s with hostHeld := s.hostHeld ++ [.bar4Write n off bytes tee] }
      else (s.countSpan 680 none true (bytes.length / 128 + 2) x.dpa bytes.length).cohWrite x.dpa bytes := by
  simp only [State.bar4Write, h, hwindow]

end

/-! ### SWAP (R397) -/

theorem execSwap_vf (hleast : 1 ≤ n) (hmost : n ≤ 63) : execSwap n s = .next (s.dirtySwap n) := congrArg _ (if_neg (by omega))

end Sys2Proof.Machine

open Sys2Proof Sys2Proof.Machine

/-- Settles O46: refused accesses, doorbells by what drops them, reads and writes of BAR4 by where their address leads, and the swap. -/
theorem doorbellsAndBarAccesses : Obligations.DoorbellsAndBarAccesses := by
  refine ⟨?bad, ?doorbell, ?read, ?write, fun s n => execSwap_vf⟩
  case bad =>
    intro s off size pasid write s1
    exact ⟨badSize_iff off size pasid, execBadAccess_bad write, execBadAccess_good write⟩
  case doorbell =>
    intro s n page slot v tee hopen s1
    refine ⟨execDoorbell_unready hopen, execDoorbell_stopped hopen, execDoorbell_no_queue hopen, fun q x hready hflr htdi hdoor hq hmoves => ?_⟩
    have reaches := execDoorbell_queue (v := v) hopen hready hflr htdi hdoor hq
    exact ⟨fun far => reaches.trans (congrArg _ (State.setTail_far hmoves far)),
      fun near more => reaches.trans (congrArg _ (State.setTail_near hmoves near more))⟩
  case read =>
    intro s n off len tee
    refine ⟨execBar4Read_closed, execBar4Read_unready, fun hopen hready => ?_⟩
    have served := execBar4Read_served (off := off) (len := len) hopen hready
    refine ⟨fun f miss other => ?_, fun f miss failed => ?_, fun x leads hwindow => ?_⟩
    · exact served.trans (congrArg _ ((State.bar4Read_miss len tee miss).trans (by rw [State.bar4Miss_other n other])))
    · exact served.trans (congrArg _ ((State.bar4Read_miss len tee miss).trans (by rw [State.bar4Miss_failed n failed])))
    · replace served := served.trans (congrArg _ (State.bar4Read_hbm len tee leads hwindow))
      refine ⟨fun held => served.trans (congrArg _ (if_pos held)), fun free => ?_⟩
      replace served := served.trans (congrArg _ (if_neg (Bool.eq_false_iff.mp free)))
      intro s2
      exact ⟨fun poisoned => served.trans (congrArg (fun o => Host.Outcome.next (s2.emit o)) (if_pos poisoned)),
        fun clean => served.trans (congrArg (fun o => Host.Outcome.next (s2.emit o)) (if_neg (Bool.eq_false_iff.mp clean)))⟩
  case write =>
    intro s n off bytes tee hopen hready
    have served := execBar4Write_served (off := off) (bytes := bytes) hopen hready
    refine ⟨fun f miss htenant other => ?_, fun x leads hwindow => ?_⟩
    · exact served.trans (congrArg _ ((State.bar4Write_miss bytes tee miss htenant).trans (by rw [State.bar4Miss_other n other])))
    · replace served := served.trans (congrArg _ (State.bar4Write_hbm bytes tee leads hwindow))
      exact ⟨fun held => served.trans (congrArg _ (if_pos held)), fun free => served.trans (congrArg _ (if_neg (Bool.eq_false_iff.mp free)))⟩
end

section
/-! PROOFS. Bus Master Enable, translations and invalidations, and host reads that fail (R384, R389 to R391, R407, R606). -/

namespace Sys2Proof.Machine

variable {s : State}

/-! ### Translations and invalidations (R389, R390) -/

section
variable {n tag : Nat} {r : AtsReq}

/-- The cache without the entry of a page. -/
def State.atcWithout (s : State) (n : Nat) (r : AtsReq) : List AtcEntry :=
  s.atc.filter (fun x => !(x.fn == n && x.pasid == r.pasid && x.page == r.page))

/-- A Translation Request that has returned is outstanding no more. -/
def State.atsReturned (s : State) (n tag : Nat) : State := s.modFn n (fun f => { f with atsReq := f.atsReq.erase tag })

/-- The cache with an entry at its front, and one free value used. -/
def State.cached (s : State) (e : AtcEntry) (rest : List AtcEntry) : State := { s with free := s.free + 1, atc := e :: rest }

theorem State.atcPut_returned (s : State) (n tag hp : Nat) (r : AtsReq) (rd wr : Bool) :
    (s.atsReturned n tag).atcPut ⟨n, r.pasid, r.page, hp, rd, wr⟩ = (s.atsReturned n tag).cached ⟨n, r.pasid, r.page, hp, rd, wr⟩
      (if (s.atcWithout n r).length < 4096 then s.atcWithout n r else (s.atcWithout n r).eraseIdx (Config.freeNat s.free % (s.atcWithout n r).length)) := rfl

theorem execAtsTranslationCompletion_permits {hp : Nat} {rd wr : Bool} (hreq : (s.fn n).atsReq.get? tag = some r) (h : rd = true ∨ wr = true) :
    execAtsTranslationCompletion n tag hp rd wr s = .next (((s.atsReturned n tag).cached ⟨n, r.pasid, r.page, hp, rd, wr⟩
      (if (s.atcWithout n r).length < 4096 then s.atcWithout n r
       else (s.atcWithout n r).eraseIdx (Config.freeNat s.free % (s.atcWithout n r).length))).hostGoes) := by
  have permits : (rd || wr) = true := by simpa using h
  rw [← State.atcPut_returned]
  simp only [execAtsTranslationCompletion, hreq, permits, if_true, State.atsReturned]

theorem execAtsTranslationCompletion_denies {hp : Nat} (hreq : (s.fn n).atsReq.get? tag = some r) :
    execAtsTranslationCompletion n tag hp false false s = .next (
      let s2 := ({ s.atsReturned n tag with atc := ⟨n, r.pasid, r.page, 0, false, false⟩ :: s.atc } : State).hostGoes.failDenied
      { s2 with atc := s2.atc.filter (fun e => e.read || e.write) }) := by
  simp only [execAtsTranslationCompletion, hreq]
  rfl

end

section
variable {n tag pasid page count : Nat}

/-- The cache without the translations of a range of pages. -/
def State.atcInvalidated (s : State) (n pasid page count : Nat) : State :=
  { s with atc := s.atc.filter (fun e => !(e.fn == n && e.pasid == pasid && decide (page ≤ e.page) && decide (e.page < page + count))) }

/-- The translated reads outstanding of a range of pages. -/
def State.readsOf (s : State) (n pasid page count : Nat) : List Nat :=
  (s.hostOut.filter (fun e => e.2.xlat && (e.2.fn == n && e.2.pasid == pasid && decide (page ≤ e.2.page) && decide (e.2.page < page + count)))).map Prod.fst

theorem execAtsInvalidationRequest_full (h : 32 ≤ s.invals.length) : execAtsInvalidationRequest n tag pasid page count s = .next s :=
  congrArg _ (if_pos h)

theorem State.readsOf_none_out (h : s.hostOut = []) : s.readsOf n pasid page count = [] := by
  simp [State.readsOf, h]

theorem State.readsOf_one {id : Nat} {e : HostRd} (h : s.hostOut = [(id, e)]) (hxlat : e.xlat = true) (hfn : e.fn = n) (hpasid : e.pasid = pasid)
    (hlow : page ≤ e.page) (hhigh : e.page < page + count) : s.readsOf n pasid page count = [id] := by
  simp [State.readsOf, h, hxlat, hfn, hpasid, hlow, hhigh]

/-- The first request held. -/
theorem execAtsInvalidationRequest_first (h : s.invals = []) : execAtsInvalidationRequest n tag pasid page count s = .next
    ({ s.atcInvalidated n pasid page count with invals := [⟨n, tag, pasid, page, count, s.readsOf n pasid page count⟩] } : State).invalsDone := by
  simp [execAtsInvalidationRequest, h, State.atcInvalidated, State.readsOf]

/-- A request that waits for no read is completed. -/
theorem execAtsInvalidationRequest_completes (h : s.invals = []) (hreads : s.readsOf n pasid page count = []) :
    execAtsInvalidationRequest n tag pasid page count s = .next ((s.atcInvalidated n pasid page count).emit (.atsDone n tag)) := by
  rw [execAtsInvalidationRequest_first h, hreads]
  exact congrArg (fun l => Host.Outcome.next (({ s.atcInvalidated n pasid page count with invals := l } : State).emit (.atsDone n tag))) h.symm

/-- A request that waits for reads is kept. -/
theorem execAtsInvalidationRequest_waits (h : s.invals = []) (hreads : s.readsOf n pasid page count ≠ []) :
    execAtsInvalidationRequest n tag pasid page count s = .next
      { s.atcInvalidated n pasid page count with invals := [⟨n, tag, pasid, page, count, s.readsOf n pasid page count⟩] } := by
  obtain ⟨id, rest, reads⟩ := List.exists_cons_of_ne_nil hreads
  rw [execAtsInvalidationRequest_first h, reads]
  rfl

end

/-! ### Host reads that fail (R391, R606, R407) -/

section
variable {id : Nat} {a : Acc} {p : Part}

theorem State.hostFails_access (ha : s.accs.get? id = some a) (hp : a.part? = some p) (hvia : p.via = .host) (hst : a.st = .host ∨ a.st = .ats) :
    s.hostFails (.access id) = (s.failAcc id 0x09 0).hostEnd id := by
  have fails : (a.part?.any (fun p => p.via == .host) && (a.st == .host || a.st == .ats)) = true := by
    rcases hst with hst | hst <;> rw [hp, Option.any_some, hvia, hst] <;> rfl
  simp only [State.hostFails, ha, fails, if_true]

end

theorem State.hostFails_ring {q : Nat} {x : Queue} (hq : s.queues.get? q = some x) (halive : x.dead = false) (hleft : x.fetch ≠ x.tail) :
    s.hostFails (.ring q) = s.ringFail q 0x09 (x.ring + 64 * (x.fetch % 2 ^ x.log2)) 0 true := by
  simp [State.hostFails, hq, halive, hleft]

theorem State.hostFails_command {q i pva acc : Nat} {c : Cmd} {y : Context} (hc : s.cmd? q i = some c) (hsource : c.hostSource = some (pva, acc))
    (hy : s.ctxs.get? (c.context % 4096) = some y) (hlive : y.st = .live) :
    s.hostFails (.command q i) = s.loseCtx (c.context % 4096) ⟨0x09, acc, pva, 0, 0xFFFFFFFF⟩ := by
  simp only [State.hostFails, hc, hsource, hy, if_pos hlive]

/-- The function of a queue's requests. -/
theorem State.hostReqFn_queue {q : Nat} {x : Queue} (hq : s.queues.get? q = some x) (i : Nat) :
    s.hostReqFn (.ring q) = x.fn ∧ s.hostReqFn (.command q i) = x.fn := by
  simp [State.hostReqFn, hq]

theorem State.hostReqFn_access {id : Nat} {e : HostRd} (h : s.hostOut.get? id = some e) : s.hostReqFn (.access id) = e.fn := by
  simp [State.hostReqFn, h]

theorem execCompletionTimeout_disabled {r : HostReq} (h : (s.fn (s.hostReqFn r)).ctoOff = true) : execCompletionTimeout r s = .next s :=
  congrArg _ (if_pos h)

theorem execCompletionTimeout_access {id : Nat} (hout : s.hostOut.has id = true) (h : (s.fn (s.hostReqFn (.access id))).ctoOff = false) :
    execCompletionTimeout (.access id) s = .next (s.hostFails (.access id)) := by
  simp [execCompletionTimeout, h, hout]

theorem execCompletionTimeout_answered {id : Nat} (hout : s.hostOut.get? id = none) : execCompletionTimeout (.access id) s = .next s := by
  simp [execCompletionTimeout, Tbl.has, hout]

theorem execCompletionTimeout_ring {q : Nat} (h : (s.fn (s.hostReqFn (.ring q))).ctoOff = false) :
    execCompletionTimeout (.ring q) s = .next (s.hostFails (.ring q)) := congrArg _ (if_neg (Bool.eq_false_iff.mp h))

theorem execCompletionTimeout_command {q i : Nat} (h : (s.fn (s.hostReqFn (.command q i))).ctoOff = false) :
    execCompletionTimeout (.command q i) s = .next (s.hostFails (.command q i)) := congrArg _ (if_neg (Bool.eq_false_iff.mp h))

end Sys2Proof.Machine

open Sys2Proof Sys2Proof.Machine

/-- Settles O47: translations by their permissions, invalidations by the reads they wait for, and the failed reads by what they were made for. -/
theorem translationsAndHostReads : Obligations.TranslationsAndHostReads := by
  refine ⟨fun s n => ⟨rfl, rfl⟩, ?translation, ?invalidation, ?access, ?ring, ?command⟩
  case translation =>
    intro s n tag hp r hreq s1 l
    refine ⟨fun rd wr some_permission => ?_, execAtsTranslationCompletion_denies hreq⟩
    have permits := execAtsTranslationCompletion_permits (hp := hp) hreq some_permission
    refine ⟨fun room => ?_, fun full => ⟨Config.freeNat s.free % l.length, Nat.mod_lt _ (by omega), ?_⟩⟩
    · exact permits.trans (congrArg (fun l => Host.Outcome.next ((s.atsReturned n tag).cached _ l).hostGoes) (if_pos room))
    · exact permits.trans (congrArg (fun l => Host.Outcome.next ((s.atsReturned n tag).cached _ l).hostGoes) (if_neg (Nat.not_lt.mpr full)))
  case invalidation =>
    intro s n tag pasid page count s1
    refine ⟨execAtsInvalidationRequest_full, fun none_held none_out => ?_, fun id e none_held only hxlat hfn hpasid hlow hhigh => ?_⟩
    · exact execAtsInvalidationRequest_completes none_held (State.readsOf_none_out none_out)
    · have reads := State.readsOf_one only hxlat hfn hpasid hlow hhigh
      exact (execAtsInvalidationRequest_waits none_held (by rw [reads]; exact List.cons_ne_nil _ _)).trans (by rw [reads]; rfl)
  case access =>
    intro s id a p ha hp hvia
    refine ⟨fun hst => congrArg _ (State.hostFails_access ha hp hvia hst), fun e hout hoff => ?_, fun e hout hon hst => ?_, execCompletionTimeout_answered⟩
    · exact execCompletionTimeout_disabled (by rwa [State.hostReqFn_access hout])
    · have fails := execCompletionTimeout_access (by rw [Tbl.has, hout]; rfl) (by rwa [State.hostReqFn_access hout])
      exact fails.trans (congrArg _ (State.hostFails_access ha hp hvia (.inl hst)))
  case ring =>
    intro s q x hq halive hleft
    have fails := State.hostFails_ring hq halive hleft
    obtain ⟨fn, -⟩ := State.hostReqFn_queue hq 0
    refine ⟨congrArg _ fails, fun hon => ?_, fun hoff => execCompletionTimeout_disabled (by rwa [fn])⟩
    exact (execCompletionTimeout_ring (by rwa [fn])).trans (congrArg _ fails)
  case command =>
    intro s q i pva acc x c y hq hc hsource hy hlive
    have fails := State.hostFails_command hc hsource hy hlive
    obtain ⟨-, fn⟩ := State.hostReqFn_queue hq i
    exact ⟨congrArg _ fails, fun hon => (execCompletionTimeout_command (by rwa [fn])).trans (congrArg _ fails)⟩
end
